-- ==== Sys2Proof/Word.lean ====
section
/-! DEFINITION. Word and table types that every other file uses: the manual's bit widths as BitVec
abbreviations, and the sparse table `Tab` in which the model keeps what the block has many of. -/

namespace Sys2Proof

abbrev W8 := BitVec 8
abbrev W16 := BitVec 16
abbrev W32 := BitVec 32
/-- Engine-view addresses, instruction addresses and A registers (R153, R154). -/
abbrev W48 := BitVec 48
abbrev W64 := BitVec 64
/-- An accumulator (R155). -/
abbrev W80 := BitVec 80

/-- A table keyed by number: strictly rising keys, and no entry equal to the table's default value. A key that is not
listed has the default value, so equal tables are equal lists. -/
abbrev Tab (α : Type) := List (Nat × α)

/-- Random-access memory: a list of (address, byte) pairs in the same canonical form with default byte 0. -/
abbrev Mem := List (Nat × BitVec 8)

end Sys2Proof
end

