-- ==== Sys2Proof/Syntax.lean ====
section
/-! DEFINITION. Syntax: the commands of the block, one constructor for each row of spec/opcode_table.json, and the types of
their operands. A command is one whole step of the block (spec/95_what_each_step_holds.md); what comes from outside the
block in that step (an address, a word on a port, an answer of external memory, a measured value) is an operand. -/

namespace Sys2Proof

/-- Who reaches a register (R34, R42, R48, R170, R472). -/
inductive Requester where
  | host
  | sm
  | tap
  | thread (g : Fin 2048)
  deriving DecidableEq, Repr

/-- What external memory answers to a read or write that a mover makes inside one step (R55, R57). -/
inductive MemAns where
  | ok (data : List W8)
  | dataErr
  | decErr
  | timeout
  deriving DecidableEq, Repr

/-- What external memory answers to the reads by which a packet is fetched: that of its chain record, when it has one, and those of
the pieces of its segments, in order (R357, R384). -/
structure PktAns where
  chain : MemAns
  data  : List MemAns
  deriving DecidableEq, Repr

/-- One beat of a memory-port response: status, parity check, 64 data bytes (R54–R56). -/
structure MpBeat where
  status : BitVec 2
  parOk  : Bool
  data   : List W8
  deriving DecidableEq, Repr

/-- A THREAD section of a repertory image (R204, R453). -/
structure ThreadSec where
  g      : Fin 2048
  pc     : W48
  cfg    : BitVec 2
  vbase  : W48
  ev     : W64
  fixed  : Bool
  pinned : List W48
  deriving DecidableEq, Repr

/-- A section of a repertory image (the table before R453). -/
inductive Section where
  | code (addr : BitVec 24) (words : List W32)
  | thread (t : ThreadSec)
  | bill (e : Fin 64) (shd : List W64) (mode : W32)
  | kpprog (b : Fin 32) (entry : BitVec 12) (start : Bool) (words : List (BitVec 14))
  | cptmap (g : Fin 2048) (points : List (W16 × W48))
  deriving DecidableEq, Repr

/-- A signed image: the header of R449 and its sections. -/
structure Image where
  kind     : W16
  format   : W16
  len      : Nat
  version  : W32
  secver   : W32
  keyslot  : W8
  reserved : Bool
  pubkey   : BitVec 776
  sig      : BitVec 768
  sections : List Section
  deriving DecidableEq, Repr

/-- What a reader of external memory gets for an image (R441, R449). -/
inductive ImgAns where
  | ok (img : Image)
  | memErr
  deriving DecidableEq, Repr

/-- What the surroundings and the silicon bring to start-up: measured clocks (ID, Hz), engines whose rail fails, engines
that fail BIST (R85, R101, R104, R106), and the entropy of the new debug challenge (R469). -/
structure BootEnv where
  meas     : List (Nat × Nat)
  rampFail : List Nat
  bistFail : List Nat
  chal     : W64
  walk     : List MemAns := []
  deriving DecidableEq, Repr

/-- Loop delays in femtoseconds of a bank's eight pins, and its new linearity table (R302). -/
structure BankCal where
  delays : List Int
  lin    : List W16
  deriving DecidableEq, Repr

/-- Why a sequencer word cannot run (R298 causes 0x01 and 0x06). -/
inductive SeqTrapWhy where
  | illegalWord
  | parity
  deriving DecidableEq, Repr

/-- A prompt-book entry of 32 bytes (R372). -/
structure PbEntry where
  dc     : W64
  tb     : W64
  seq    : W32
  handle : W32
  len    : Nat
  od     : W8
  port   : Fin 16
  rx     : Bool
  err    : Bool
  span   : Nat
  deriving DecidableEq, Repr

/-- What REPLAY_ARM reads in external memory: FIRST and LAST of each port, and the ring entries by index (R442). -/
structure ReplayTable where
  ranges  : List (W32 × W32)
  entries : List (W32 × PbEntry)
  deriving DecidableEq, Repr

/-- A short operation (R198, R199). D fields name D0–D7, A fields A0–A3. -/
inductive ShortOp where
  | snop
  | sadd (d s t : Fin 8)
  | ssub (d s t : Fin 8)
  | sand (d s t : Fin 8)
  | sor (d s t : Fin 8)
  | sxor (d s t : Fin 8)
  | smov (d s : Fin 8)
  | snot (d s : Fin 8)
  | sneg (d s : Fin 8)
  | sselt (d s t : Fin 8)
  | scmp (s t : Fin 8)
  | steq (s t : Fin 8)
  | stlt (s t : Fin 8)
  | saddi (d : Fin 8) (imm7 : BitVec 7)
  | smovi (d : Fin 8) (imm7 : BitVec 7)
  | sshli (d : Fin 8) (imm7 : BitVec 7)
  | sshri (d : Fin 8) (imm7 : BitVec 7)
  | ssari (d : Fin 8) (imm7 : BitVec 7)
  | sldw (d : Fin 8) (a : Fin 4) (mode : BitVec 2)
  | sldhu (d : Fin 8) (a : Fin 4) (mode : BitVec 2)
  | sldbu (d : Fin 8) (a : Fin 4) (mode : BitVec 2)
  | sstw (d : Fin 8) (a : Fin 4) (mode : BitVec 2)
  | ssth (d : Fin 8) (a : Fin 4) (mode : BitVec 2)
  | sstb (d : Fin 8) (a : Fin 4) (mode : BitVec 2)
  | saadd (a : Fin 4) (s : Fin 8)
  | saaddi (a : Fin 4) (imm7 : BitVec 7)
  | smacx (ac : Fin 2) (ax ay : Fin 4) (mode : BitVec 2) (sg : BitVec 2)
  | sclmacx (ac : Fin 2) (ax ay : Fin 4) (mode : BitVec 2)
  deriving DecidableEq, Repr

/-- The commands. A KE instruction names the logical global thread `g` that issues it (R35), a KP instruction the pin bank
`b` whose sequencer issues it; an endpoint `ep` is thread × 4 + endpoint (R225); a timer is engine `e`, timer `n`. -/
inductive Instr where
  -- bill, fetch, events (R122–R151, R207–R223)
  | commit (e : Fin 64)
  | billSwitch (e : Fin 64)
  | fetchMiss (g : Fin 2048)
  | fillDone (p : Fin 68) (line : W48)
  | stiCacheUpdate (g : Fin 2048)
  | heldAccessResponse (g : Fin 2048)
  | postedAccessResponse (g : Fin 2048) (k : Nat)
  | eventEntry (g : Fin 2048)
  | threadWake (g : Fin 2048)
  | threadWatchdog (g : Fin 2048)
  | restart (who : Requester) (g : Fin 2048) (dropev : Bool)
  | thrEvWrite (who : Requester) (g : Fin 2048) (data : W64)
  -- KE arithmetic and logic (R174)
  | add (g : Fin 2048) (rd rs rt : Fin 16)
  | addc (g : Fin 2048) (rd rs rt : Fin 16)
  | sub (g : Fin 2048) (rd rs rt : Fin 16)
  | subc (g : Fin 2048) (rd rs rt : Fin 16)
  | and (g : Fin 2048) (rd rs rt : Fin 16)
  | or (g : Fin 2048) (rd rs rt : Fin 16)
  | xor (g : Fin 2048) (rd rs rt : Fin 16)
  | andn (g : Fin 2048) (rd rs rt : Fin 16)
  | shl (g : Fin 2048) (rd rs rt : Fin 16)
  | shr (g : Fin 2048) (rd rs rt : Fin 16)
  | sar (g : Fin 2048) (rd rs rt : Fin 16)
  | ror (g : Fin 2048) (rd rs rt : Fin 16)
  | mul (g : Fin 2048) (rd rs rt : Fin 16)
  | mulhs (g : Fin 2048) (rd rs rt : Fin 16)
  | mulhu (g : Fin 2048) (rd rs rt : Fin 16)
  | cmp (g : Fin 2048) (rs rt : Fin 16)
  | min (g : Fin 2048) (rd rs rt : Fin 16)
  | max (g : Fin 2048) (rd rs rt : Fin 16)
  | minu (g : Fin 2048) (rd rs rt : Fin 16)
  | maxu (g : Fin 2048) (rd rs rt : Fin 16)
  | clz (g : Fin 2048) (rd rs : Fin 16)
  | popc (g : Fin 2048) (rd rs : Fin 16)
  | brev (g : Fin 2048) (rd rs : Fin 16)
  | bswap (g : Fin 2048) (rd rs : Fin 16)
  | sextb (g : Fin 2048) (rd rs : Fin 16)
  | sexth (g : Fin 2048) (rd rs : Fin 16)
  | selt (g : Fin 2048) (rd rs rt : Fin 16)
  | teq (g : Fin 2048) (rs rt : Fin 16)
  | tlt (g : Fin 2048) (rs rt : Fin 16)
  | tltu (g : Fin 2048) (rs rt : Fin 16)
  | tbit (g : Fin 2048) (rs rt : Fin 16)
  -- KE immediates and division (R175, R176)
  | addi (g : Fin 2048) (rd rs : Fin 16) (imm17 : BitVec 17)
  | andi (g : Fin 2048) (rd rs : Fin 16) (imm17 : BitVec 17)
  | ori (g : Fin 2048) (rd rs : Fin 16) (imm17 : BitVec 17)
  | xori (g : Fin 2048) (rd rs : Fin 16) (imm17 : BitVec 17)
  | shi (g : Fin 2048) (rd rs : Fin 16) (imm17 : BitVec 17)
  | cmpi (g : Fin 2048) (rs : Fin 16) (imm17 : BitVec 17)
  | tsti (g : Fin 2048) (sel : Fin 16) (rs : Fin 16) (imm17 : BitVec 17)
  | movi (g : Fin 2048) (rd : Fin 16) (h : Bool) (imm16 : W16)
  | div (g : Fin 2048) (rd rs rt : Fin 16)
  | divu (g : Fin 2048) (rd rs rt : Fin 16)
  | rems (g : Fin 2048) (rd rs rt : Fin 16)
  | remu (g : Fin 2048) (rd rs rt : Fin 16)
  -- KE address and special registers (R158, R177)
  | aaddi (g : Fin 2048) (ad as : Fin 8) (imm19 : BitVec 19)
  | aadd (g : Fin 2048) (ad as : Fin 8) (dt : Fin 16)
  | asub (g : Fin 2048) (ad as : Fin 8) (dt : Fin 16)
  | amov (g : Fin 2048) (ad as : Fin 8)
  | alo (g : Fin 2048) (ad as : Fin 8) (dt : Fin 16)
  | ahi (g : Fin 2048) (ad as : Fin 8) (dt : Fin 16)
  | atod (g : Fin 2048) (as : Fin 8) (dt : Fin 16)
  | atodh (g : Fin 2048) (as : Fin 8) (dt : Fin 16)
  | taeq (g : Fin 2048) (ad as : Fin 8)
  | taltu (g : Fin 2048) (ad as : Fin 8)
  | amovi (g : Fin 2048) (ad : Fin 8) (h : BitVec 2) (imm16 : W16)
  | mts (g : Fin 2048) (reg : BitVec 5) (num : W8)
  | mfs (g : Fin 2048) (reg : BitVec 5) (num : W8)
  -- KE loads and stores (R178)
  | ldb (g : Fin 2048) (r : Fin 16) (a : Fin 8) (mode : BitVec 2) (imm16 : W16)
  | ldbu (g : Fin 2048) (r : Fin 16) (a : Fin 8) (mode : BitVec 2) (imm16 : W16)
  | ldh (g : Fin 2048) (r : Fin 16) (a : Fin 8) (mode : BitVec 2) (imm16 : W16)
  | ldhu (g : Fin 2048) (r : Fin 16) (a : Fin 8) (mode : BitVec 2) (imm16 : W16)
  | ldw (g : Fin 2048) (r : Fin 16) (a : Fin 8) (mode : BitVec 2) (imm16 : W16)
  | ldd (g : Fin 2048) (r : Fin 16) (a : Fin 8) (mode : BitVec 2) (imm16 : W16)
  | lda (g : Fin 2048) (r : Fin 16) (a : Fin 8) (mode : BitVec 2) (imm16 : W16)
  | stb (g : Fin 2048) (r : Fin 16) (a : Fin 8) (mode : BitVec 2) (imm16 : W16)
  | sth (g : Fin 2048) (r : Fin 16) (a : Fin 8) (mode : BitVec 2) (imm16 : W16)
  | stw (g : Fin 2048) (r : Fin 16) (a : Fin 8) (mode : BitVec 2) (imm16 : W16)
  | std (g : Fin 2048) (r : Fin 16) (a : Fin 8) (mode : BitVec 2) (imm16 : W16)
  | sta (g : Fin 2048) (r : Fin 16) (a : Fin 8) (mode : BitVec 2) (imm16 : W16)
  | sti (g : Fin 2048) (r : Fin 16) (a : Fin 8) (mode : BitVec 2) (imm16 : W16)
  -- KE multiply-accumulate (R180–R185)
  | macx (g : Fin 2048) (ac : Fin 2) (ax ay : Fin 8) (xm ym sg : BitVec 2) (neg : Bool)
  | clmacx (g : Fin 2048) (ac : Fin 2) (ax ay : Fin 8) (xm ym : BitVec 2)
  | mac (g : Fin 2048) (ac : Fin 2) (rs rt : Fin 16) (sg : BitVec 2) (neg : Bool)
  | clrac (g : Fin 2048) (ac : Fin 2)
  | mfac (g : Fin 2048) (ac : Fin 2) (d : Fin 16) (par : BitVec 13)
  | mfacs (g : Fin 2048) (ac : Fin 2) (d : Fin 16) (par : BitVec 13)
  | mtac (g : Fin 2048) (ac : Fin 2) (d : Fin 16) (par : BitVec 13)
  | acshr (g : Fin 2048) (ac : Fin 2) (par : BitVec 13)
  | acshl (g : Fin 2048) (ac : Fin 2) (par : BitVec 13)
  | clred (g : Fin 2048) (ac : Fin 2) (d : Fin 16) (par : BitVec 13)
  | acadd (g : Fin 2048) (ac : Fin 2)
  | acxor (g : Fin 2048) (ac : Fin 2)
  | bcrc (g : Fin 2048) (ac : Fin 2) (ax ay : Fin 8) (xm ym : BitVec 2) (dn : Fin 16)
  -- KE control transfer and waits (R186–R191)
  | br (g : Fin 2048) (cond : BitVec 4) (off21 : BitVec 21)
  | dbnz (g : Fin 2048) (d : Fin 16) (off21 : BitVec 21)
  | call (g : Fin 2048) (off25 : BitVec 25)
  | jr (g : Fin 2048) (a : Fin 8)
  | callr (g : Fin 2048) (a : Fin 8)
  | ret (g : Fin 2048)
  | rete (g : Fin 2048)
  | waitt (g : Fin 2048)
  | waite (g : Fin 2048) (mask : W16)
  | ldtb (g : Fin 2048) (d : Fin 16)
  -- KE cues, timers, callboard, usher, atomics, system (R192–R197)
  | cue (g : Fin 2048) (s p : Fin 16) (act : BitVec 4)
  | caprd (g : Fin 2048) (d p k : Fin 16)
  | tmrRead (g : Fin 2048) (d : Fin 16) (n : Fin 4) (sel : BitVec 4)
  | tmrWrite (g : Fin 2048) (d : Fin 16) (n : Fin 4) (sel : BitVec 4)
  | chopen (g : Fin 2048) (ce : Fin 4) (d : Fin 16) (tr : Bool)
  | chw (g : Fin 2048) (ce : Fin 4) (d : Fin 16) (tr : Bool)
  | chclose (g : Fin 2048) (ce : Fin 4) (tr : Bool)
  | chr (g : Fin 2048) (ce : Fin 4) (d : Fin 16) (tr : Bool)
  | chabort (g : Fin 2048) (ce : Fin 4) (tr : Bool)
  | take (g : Fin 2048) (r1 : Fin 16) (tr : Bool)
  | release (g : Fin 2048) (r1 r2 : Fin 16)
  | casw (g : Fin 2048) (a : Fin 8) (d t : Fin 16)
  | casd (g : Fin 2048) (a : Fin 8) (d t : Fin 16)
  | acq (g : Fin 2048) (a : Fin 8) (d t : Fin 16)
  | rel (g : Fin 2048) (a : Fin 8)
  | lwatch (g : Fin 2048) (a : Fin 8)
  | lunwatch (g : Fin 2048) (a : Fin 8)
  | nop (g : Fin 2048)
  | synci (g : Fin 2048)
  | cpt (g : Fin 2048) (num : W16)
  | fence (g : Fin 2048)
  | bkpt (g : Fin 2048) (num : W16)
  | tset (g : Fin 2048)
  | tclr (g : Fin 2048)
  | pair (g : Fin 2048) (a b : ShortOp)
  -- callboard (R225–R245)
  | cbOpenArrive (ep : Fin 8192)
  | cbNextGrant (ep : Fin 8192)
  | cbGrantArrive (ep : Fin 8192)
  | cbWordArrive (ep : Fin 8192)
  | cbCreditArrive (ep : Fin 8192)
  | cbCloseNews (ep : Fin 8192)
  | cbAbortArrive (ep : Fin 8192)
  | ceAbort (who : Requester) (ep : Fin 8192)
  | ceAbortTx (who : Requester) (ep : Fin 8192)
  | stalledRoute (ep : Fin 8192)
  | standstillEvaluation
  -- engine timers (R257–R269)
  | timerTop (e : Fin 64) (n : Fin 4)
  | timerBottom (e : Fin 64) (n : Fin 4)
  | timerCompareMatch (e : Fin 64) (n : Fin 4)
  | timerTrigger (e : Fin 64) (n : Fin 4)
  | tmrCfgWrite (e : Fin 64) (n : Fin 4) (data : W32)
  | clr (e : Fin 64) (n : Fin 4)
  | swcap (e : Fin 64) (n : Fin 4)
  | cmpWrite (e : Fin 64) (n : Fin 4) (b : Bool) (data : W32)
  | periodWrite (e : Fin 64) (n : Fin 4) (data : W32)
  | cntWrite (e : Fin 64) (n : Fin 4) (data : W32)
  | tmrCapRead (who : Requester) (e : Fin 64) (n : Fin 4)
  | tmrOvrClear (e : Fin 64) (n : Fin 4)
  -- pins (R271–R282)
  | pinEdge (k : Fin 256) (rising : Bool) (off : Fin 64)
  | cueFire (k : Fin 256)
  | flushCue (k : Fin 256)
  | flushCap (k : Fin 256)
  | pinOvrClear (k : Fin 256)
  | pbRfxWrite (b : Fin 32) (r : Fin 4) (data : W64)
  -- pin sequencer (R283–R299)
  | seqStart (b : Fin 32)
  | seqStop (b : Fin 32)
  | programMemoryWrite (b : Fin 32) (w : BitVec 12) (data : W16)
  | dmWrite (b : Fin 32) (w : BitVec 9) (data : W16)
  | seqMbinWrite (b : Fin 32) (be : W8) (data : W64)
  | streamInFetch (b : Fin 32) (ans : MemAns)
  | streamOutFlush (b : Fin 32) (ans : MemAns)
  | kpWaitEnd (b : Fin 32)
  | seqTrap (b : Fin 32) (why : SeqTrapWhy)
  | kpNop (b : Fin 32)
  | kpEnd (b : Fin 32)
  | kpTrap (b : Fin 32) (imm8 : W8)
  | kpBr (b : Fin 32) (imm8 : W8)
  | kpCall (b : Fin 32) (imm8 : W8)
  | kpRet (b : Fin 32)
  | kpJv (b : Fin 32) (s : Fin 8)
  | kpCallv (b : Fin 32) (s : Fin 8)
  | kpBz (b : Fin 32) (imm8 : W8)
  | kpBnz (b : Fin 32) (imm8 : W8)
  | kpBc (b : Fin 32) (imm8 : W8)
  | kpBnc (b : Fin 32) (imm8 : W8)
  | kpBt (b : Fin 32) (imm8 : W8)
  | kpBf (b : Fin 32) (imm8 : W8)
  | kpDjnz (b : Fin 32) (imm8 : W8)
  | kpMov (b : Fin 32) (d s : Fin 8)
  | kpAdd (b : Fin 32) (d s : Fin 8)
  | kpSub (b : Fin 32) (d s : Fin 8)
  | kpAnd (b : Fin 32) (d s : Fin 8)
  | kpOr (b : Fin 32) (d s : Fin 8)
  | kpXor (b : Fin 32) (d s : Fin 8)
  | kpNot (b : Fin 32) (d s : Fin 8)
  | kpCmp (b : Fin 32) (d s : Fin 8)
  | kpAddi (b : Fin 32) (d : Fin 8) (imm5 : BitVec 5)
  | kpLdi (b : Fin 32) (d : Fin 8) (imm5 : BitVec 5)
  | kpLdb0 (b : Fin 32) (imm8 : W8)
  | kpLdh0 (b : Fin 32) (imm8 : W8)
  | kpShl (b : Fin 32) (d : Fin 8) (imm5 : BitVec 5)
  | kpShr (b : Fin 32) (d : Fin 8) (imm5 : BitVec 5)
  | kpRlt (b : Fin 32) (d : Fin 8)
  | kpTbv (b : Fin 32) (d : Fin 8) (imm5 : BitVec 5)
  | kpLd (b : Fin 32) (d s : Fin 8)
  | kpSt (b : Fin 32) (d s : Fin 8)
  | kpLdlc (b : Fin 32) (imm8 : W8)
  | kpTolc (b : Fin 32) (s : Fin 8)
  | kpFrlc (b : Fin 32) (d : Fin 8)
  | kpPush (b : Fin 32) (s : Fin 8)
  | kpPull (b : Fin 32) (d : Fin 8)
  | kpEpnow (b : Fin 32)
  | kpEpadd (b : Fin 32) (s : Fin 8)
  | kpEpaddi (b : Fin 32) (imm8 : W8)
  | kpCue (b : Fin 32) (j act : Fin 8)
  | kpCuec (b : Fin 32) (j : Fin 8)
  | kpCueimg (b : Fin 32) (s : Fin 8) (drive : Bool)
  | kpMarknow (b : Fin 32) (j : Fin 8)
  | kpEpcr (b : Fin 32)
  | kpInp (b : Fin 32) (d : Fin 8)
  | kpTpin (b : Fin 32) (j : Fin 8)
  | kpCapr (b : Fin 32) (j : Fin 8)
  | kpCrd (b : Fin 32) (d : Fin 8)
  | kpCre (b : Fin 32) (d : Fin 8)
  | kpMbr (b : Fin 32) (r : Fin 8) (k : Fin 4)
  | kpMbw (b : Fin 32) (r : Fin 8) (k : Fin 4)
  | kpWaitep (b : Fin 32)
  | kpWaitn (b : Fin 32) (imm8 : W8)
  | kpWaitv (b : Fin 32) (s : Fin 8)
  | kpWcap (b : Fin 32) (j : Fin 8)
  | kpWmb (b : Fin 32) (k : Fin 4)
  | kpWroom (b : Fin 32) (j : Fin 8)
  -- words without a meaning, halts and breakpoints (R171, R238, R479, R481)
  | debugHaltEffect (g : Fin 2048)
  | forcedHalt (g : Fin 2048)
  | addressBreakpoint (g : Fin 2048)
  | seqBreakpoint (b : Fin 32)
  | illegalOpcode (g : Fin 2048)
  -- resets, power, start-up (R74–R106, R471)
  | vddAonUp
  | porNAssert
  | porNRelease
  | corePwrOkFall
  | corePwrOkRise
  | blkRstNAssert
  | blkRstNRelease
  | isolate
  | isolateClear
  | wrapperClockLoss (id : Fin 3)
  | dpRstNAssert (n : Fin 16)
  | dpRstNRelease (n : Fin 16)
  | tapReset
  | startUp (env : BootEnv)
  | mramNotReady
  | clockCheck (env : BootEnv)
  | engineRampDone (p : Fin 68)
  | engineRampTimeout (p : Fin 68)
  | engineZeroingDone (p : Fin 68)
  | engineBistDone (p : Fin 68) (pass : Bool)
  -- measurements and timebase (R85, R249–R254, R425, R499)
  | clockPoll (meas : List (Nat × Nat))
  | sensorPoll (raw : List (Nat × Int))
  | ppsPulse
  | ppsMissing
  | refclkLoss
  | refclkReturn
  | refclkGap
  | tbSample
  | tbRateJournal
  -- host port (R42–R47, R77)
  | hostRequest (write : Bool) (addr : BitVec 24) (be : W8) (wdata : W64) (par : Bool)
  | hostResponse
  | hostTimeout
  -- memory ports (R52–R59)
  | mpRequest (m : Fin 8)
  | mpResponse (m : Fin 8) (tag : BitVec 11) (beats : List MpBeat)
  | mpTimeout (m : Fin 8) (job : Nat)
  -- pool manager (R61–R64, R359)
  | pmAllocRequest (p : Fin 8)
  | pmHandleBeat (p : Fin 8) (hnd : W32) (last empty parOk : Bool)
  | pmFreeReturn (p : Fin 8) (ready : Bool)
  | boxRetryExpiry (p : Fin 8)
  -- lanes (R305–R337)
  | laneRxWord (lane : Fin 64) (ctl : BitVec 2) (data : W64)
  | lnRxLockChange (lane : Fin 64) (level : Bool)
  | framerEnter (link : Fin 64)
  | txFrameStart (link : Fin 64) (ans : PktAns) (arrived : Nat)
  | laneTxWord (lane : Fin 64)
  | lgEnable (g : Fin 8)
  | lgDisable (g : Fin 8)
  | rebond (g : Fin 8)
  | rebondStart (g : Fin 8)
  | rebondDrainExpiry (g : Fin 8)
  | rebondQuietExpiry (g : Fin 8) (us : Nat)
  | cntclr (g : Fin 8)
  -- DUT ports (R68, R364–R381); `edges` counts the DCLKn edges since the port's last command, `held` those for which the
  -- beat has stood
  | dpTxBeat (n : Fin 16) (edges : Nat) (ready : Bool)
  | dpRxBeat (n : Fin 16) (data : List W8) (sop eop : Bool) (bytes : BitVec 7) (err : Bool) (edges : Nat)
  | dpRxEnter (n : Fin 16)
  | dpStagePacket (n : Fin 16) (entry : MemAns) (ans : PktAns)
  | replaySopPresent (n : Fin 16) (edges : Nat)
  | dpHoldRaise (n : Fin 16) (edges : Nat)
  | dpHoldRelease (n : Fin 16)
  | dutClkRunningChange (n : Fin 16) (level : Bool)
  | drainSample (n : Fin 16) (edges : Nat)
  | dpEnable (n : Fin 16)
  | dpDisable (n : Fin 16)
  | dpCntclr (n : Fin 16)
  -- usher and box office (R342–R363)
  | ushEnter (g : Fin 2048) (handle : W32) (len : BitVec 17) (od : Fin 256)
  | dispatch (od : Fin 256)
  | retirement (od : Fin 256)
  | domainTimeout (od : Fin 256)
  | forceDrop (who : Requester) (od : Fin 256) (handle : W32)
  | boxEnable
  | boxDisable
  | boxDrainDone
  | boxPoolWrite (p : Fin 8) (data : W64)
  | boxAlloc (who : Requester) (p : Fin 8)
  | boxFree (who : Requester) (handle : W32)
  -- DMA (R394–R406)
  | dcEnable (c : Fin 64)
  | dcDisable (c : Fin 64)
  | pause (c : Fin 64)
  | pauseClear (c : Fin 64)
  | dmaAbort (c : Fin 64)
  | arm (c : Fin 64)
  | doorbell (c : Fin 64)
  | dmaDescriptorFetch (c : Fin 64) (ans : MemAns)
  | dmaCompletion (c : Fin 64) (writeBack : MemAns)
  | dmaError (c : Fin 64)
  | dmaPaused (c : Fin 64)
  | dmaAbortDone (c : Fin 64)
  -- atomic units (R407–R419)
  | auLineFill (u : Fin 9) (line : W48)
  | auLineWriteback (u : Fin 9) (line : W48)
  | go
  -- log, journal, MRAM (R424, R428, R432)
  | logUnitWrite
  | journalCompaction
  | mramUnitWrite (off : Nat) (data : List W8) (good : Bool)
  -- stage-manager commands (R442–R463); `n` is the number of work units done in the step
  | identify
  | status
  | configSet
  | configGet
  | calRead
  | calWrite (ans : MemAns)
  | calExport (ans : MemAns)
  | calPins (n : Nat) (cals : List BankCal)
  | logRead (ans : MemAns)
  | journalCompact (n : Nat)
  | fwUpdate (n : Nat) (ans : ImgAns)
  | fwActivate
  | repertoryLoad (n : Nat) (ans : ImgAns)
  | repertorySwap (n : Nat) (ans : ImgAns)
  | engineSwing (n : Nat)
  | engineBist (n : Nat) (pass : Bool)
  | checkpoint (n : Nat) (ans : MemAns)
  | restore (n : Nat) (ans : MemAns)
  | replayArm (tbl : Option ReplayTable)
  | suspend
  | resume
  | cancel
  | opStatus
  | suspendPoint (slot : Fin 8)
  | longOperationTimeout (slot : Fin 8)
  -- debug (R466–R481)
  | unlock
  | unlockDone (chal : W64)
  | relock
  | debugHalt (g : Fin 2048)
  | debugResume (g : Fin 2048)
  | debugStep (g : Fin 2048)
  | seqDebugHalt (b : Fin 32)
  | seqDebugResume (b : Fin 32)
  | seqDebugStep (b : Fin 32)
  -- test access (R471–R475)
  | blkid
  | dbgacc (write : Bool) (addr : BitVec 24) (data : W64)
  | keyprog (slot : Fin 4) (digest : BitVec 384) (reserved : BitVec 6)
  | keyprogDone (good : Bool)
  | bypass
  | wsBypass
  | wsExtest
  | wsIntestScan
  | wsPreload (cells : List Nat)
  -- the rest
  | registerWrite (who : Requester) (addr : BitVec 27) (be : W8) (data : W64)
  | vddAonLoss
  | vddMramLoss
  | waitingFifoRetry (p : Fin 8)
  | wrstnAssert
  deriving DecidableEq, Repr

end Sys2Proof
end

