-- ==== Sys2Proof/WellFormed.lean ====
section
/-! DEFINITION. WellFormed: which operand values a command may carry. For a KE or KP instruction these are the register and
field constraints of its encoding (a word that breaks one takes fault 0x01, R171, or trap 0x01, R288; the meaning does so);
for the other commands, the sizes of what the ports carry. -/

namespace Sys2Proof

/-- A KE register number that must be even (R178, R191, R192, R194, R196). -/
def evenReg (r : Fin 16) : Bool := r.val % 2 = 0

/-- A short operation whose fields are as R199 asks: shift amounts have imm7[6:5] = 0. -/
def ShortOp.wellFormed : ShortOp → Bool
  | .sshli _ i => i.toNat < 32
  | .sshri _ i => i.toNat < 32
  | .ssari _ i => i.toNat < 32
  | _ => true

/-- A special-register number and the class of register it moves through (R157, R158). -/
def specialOk (reg : BitVec 5) (num : W8) : Bool :=
  reg.toNat < 24 && num.toNat ≤ 0x14 && (num.toNat < 8) = (16 ≤ reg.toNat)

/-- The encodings' constraints, and the sizes of port data. Every command not named has none. -/
def WellFormed : Instr → Bool
  | .ldd _ r _ m i => evenReg r && (m ≠ 3 || i.toNat < 16)
  | .std _ r _ m i => evenReg r && (m ≠ 3 || i.toNat < 16)
  | .lda _ r _ m i => r.val < 8 && (m ≠ 3 || i.toNat < 16)
  | .sta _ r _ m i => r.val < 8 && (m ≠ 3 || i.toNat < 16)
  | .ldb _ _ _ m i => m ≠ 3 || i.toNat < 16
  | .ldbu _ _ _ m i => m ≠ 3 || i.toNat < 16
  | .ldh _ _ _ m i => m ≠ 3 || i.toNat < 16
  | .ldhu _ _ _ m i => m ≠ 3 || i.toNat < 16
  | .ldw _ _ _ m i => m ≠ 3 || i.toNat < 16
  | .stb _ _ _ m i => m ≠ 3 || i.toNat < 16
  | .sth _ _ _ m i => m ≠ 3 || i.toNat < 16
  | .stw _ _ _ m i => m ≠ 3 || i.toNat < 16
  | .sti _ _ _ m i => m ≠ 3 || i.toNat < 16
  | .shi _ _ _ i => i.extractLsb' 5 10 = 0
  | .tsti _ sel _ i => sel.val < 4 && (sel.val ≠ 3 || i.toNat < 32)
  | .amovi _ _ h _ => h ≠ 3
  | .mts _ reg num => specialOk reg num && num ≠ 0x13 && num ≠ 0x14
  | .mfs _ reg num => specialOk reg num
  | .mfac _ _ _ p => p.toNat < 3
  | .mfacs _ _ _ p => p.toNat < 64
  | .mtac _ _ _ p => p.toNat < 4
  | .acshr _ _ p => p.toNat < 64
  | .acshl _ _ p => p.toNat < 64
  | .clred _ _ _ p => p.toNat < 16
  | .br _ c _ => c ≠ 15
  | .waite _ m => m ≠ 0
  | .ldtb _ d => evenReg d
  | .cue _ s _ a => evenReg s && a.toNat < 8
  | .caprd _ d _ k => evenReg d && k.val ≠ d.val && k.val ≠ d.val + 1
  | .tmrRead _ _ _ sel => sel.toNat < 10
  | .tmrWrite _ _ _ sel => sel.toNat < 10
  | .chr _ _ d _ => evenReg d
  | .take _ r1 _ => r1.val % 4 = 0
  | .casd _ _ d t => evenReg d && evenReg t
  | .acq _ _ d t => evenReg d && evenReg t
  | .pair _ a b => a.wellFormed && b.wellFormed
  | .kpShl _ _ i => i.toNat < 16
  | .kpShr _ _ i => i.toNat < 16
  | .kpTbv _ _ i => i.toNat < 16
  | .mpResponse _ _ bs => 1 ≤ bs.length && bs.all fun b => b.data.length = 64
  | .dpRxBeat _ d _ _ _ _ _ => d.length = 128
  | .wsPreload cs => cs.all fun c => c < 53117
  | .mramUnitWrite off d _ => d.length = 64 && off % 64 = 0 && off < 0x2000000
  | _ => true

end Sys2Proof
end

