-- ==== Sys2Proof/Decode.lean ====
section
/-! DEFINITION. Decode: what a KE word spells (spec/05 R171–R199) and what a KP word spells (spec/08 R288, R289), every word
total. The table of commands gives no row any bits, so `decodeTableWord` finds none. -/

namespace Sys2Proof

/-- The command that a word spells by the table's bits: spec/opcode_table.json gives bits to no row, so there is none. -/
def decodeTableWord (_nbits _w : Nat) : Option Instr := none

/-! ### Fields of a word -/

/-- Bits [lo+n-1:lo] of a word. -/
def field {w : Nat} (x : BitVec w) (lo n : Nat) : Nat := (x.extractLsb' lo n).toNat

/-- A field of 1, 2, 3, 4 or 5 bits as a register or unit number. -/
def fin1 {w : Nat} (x : BitVec w) (lo : Nat) : Fin 2 := (x.extractLsb' lo 1).toFin
def fin2 {w : Nat} (x : BitVec w) (lo : Nat) : Fin 4 := (x.extractLsb' lo 2).toFin
def fin3 {w : Nat} (x : BitVec w) (lo : Nat) : Fin 8 := (x.extractLsb' lo 3).toFin
def fin4 {w : Nat} (x : BitVec w) (lo : Nat) : Fin 16 := (x.extractLsb' lo 4).toFin

/-- The field is 0 (R171, R288). -/
def zero {w : Nat} (x : BitVec w) (lo n : Nat) : Bool := decide (x.extractLsb' lo n = 0)

/-- The word spells `i` when its fields that must be 0 are; else it takes fault 0x01 (R171). -/
def spell (g : Fin 2048) (ok : Bool) (i : Instr) : Instr := if ok then i else .illegalOpcode g

/-! ### KE: full operations (R172–R197) -/

/-- R174 ALU. -/
def keAlu (g : Fin 2048) (x : W32) : Instr :=
  let d := fin4 x 21
  let s := fin4 x 17
  let t := fin4 x 13
  let nd (i : Instr) : Instr := spell g (zero x 21 4) i
  let nt (i : Instr) : Instr := spell g (zero x 13 4) i
  spell g (zero x 0 8) (match field x 8 5 with
    | 0x00 => .add g d s t
    | 0x01 => .addc g d s t
    | 0x02 => .sub g d s t
    | 0x03 => .subc g d s t
    | 0x04 => .and g d s t
    | 0x05 => .or g d s t
    | 0x06 => .xor g d s t
    | 0x07 => .andn g d s t
    | 0x08 => .shl g d s t
    | 0x09 => .shr g d s t
    | 0x0A => .sar g d s t
    | 0x0B => .ror g d s t
    | 0x0C => .mul g d s t
    | 0x0D => .mulhs g d s t
    | 0x0E => .mulhu g d s t
    | 0x0F => nd (.cmp g s t)
    | 0x10 => .min g d s t
    | 0x11 => .max g d s t
    | 0x12 => .minu g d s t
    | 0x13 => .maxu g d s t
    | 0x14 => nt (.clz g d s)
    | 0x15 => nt (.popc g d s)
    | 0x16 => nt (.brev g d s)
    | 0x17 => nt (.bswap g d s)
    | 0x18 => nt (.sextb g d s)
    | 0x19 => nt (.sexth g d s)
    | 0x1A => .selt g d s t
    | 0x1B => nd (.teq g s t)
    | 0x1C => nd (.tlt g s t)
    | 0x1D => nd (.tltu g s t)
    | 0x1E => nd (.tbit g s t)
    | _ => .illegalOpcode g)

/-- R176 DIVG: the layout of ALU. -/
def keDivg (g : Fin 2048) (x : W32) : Instr :=
  let d := fin4 x 21
  let s := fin4 x 17
  let t := fin4 x 13
  spell g (zero x 0 8) (match field x 8 5 with
    | 0 => .div g d s t
    | 1 => .divu g d s t
    | 2 => .rems g d s t
    | 3 => .remu g d s t
    | _ => .illegalOpcode g)

/-- R177 AOP. -/
def keAop (g : Fin 2048) (x : W32) : Instr :=
  let ad := fin3 x 22
  let as := fin3 x 19
  let dt := fin4 x 15
  let nt (i : Instr) : Instr := spell g (zero x 15 4) i
  let nd (i : Instr) : Instr := spell g (zero x 22 3) i
  spell g (zero x 0 11) (match field x 11 4 with
    | 0 => .aadd g ad as dt
    | 1 => .asub g ad as dt
    | 2 => nt (.amov g ad as)
    | 3 => .alo g ad as dt
    | 4 => .ahi g ad as dt
    | 5 => nd (.atod g as dt)
    | 6 => nd (.atodh g as dt)
    | 7 => nt (.taeq g ad as)
    | 8 => nt (.taltu g ad as)
    | _ => .illegalOpcode g)

/-- R183 ACC. -/
def keAcc (g : Fin 2048) (x : W32) : Instr :=
  let ac := fin1 x 24
  let d := fin4 x 16
  let par := x.extractLsb' 0 13
  let nd (i : Instr) : Instr := spell g (zero x 16 4) i
  let np (i : Instr) : Instr := spell g (zero x 0 13) i
  spell g (zero x 13 3) (match field x 20 4 with
    | 0 => nd (np (.clrac g ac))
    | 1 => .mfac g ac d par
    | 2 => .mfacs g ac d par
    | 3 => .mtac g ac d par
    | 4 => nd (.acshr g ac par)
    | 5 => nd (.acshl g ac par)
    | 6 => .clred g ac d par
    | 7 => nd (np (.acadd g ac))
    | 8 => nd (np (.acxor g ac))
    | _ => .illegalOpcode g)

/-- R187 XFER. -/
def keXfer (g : Fin 2048) (x : W32) : Instr :=
  let na (i : Instr) : Instr := spell g (zero x 22 3) i
  spell g (zero x 0 20) (match field x 20 2 with
    | 0 => .jr g (fin3 x 22)
    | 1 => .callr g (fin3 x 22)
    | 2 => na (.ret g)
    | _ => na (.rete g))

/-- R190 WAIT. -/
def keWait (g : Fin 2048) (x : W32) : Instr :=
  spell g (zero x 16 7) (match field x 23 2 with
    | 0 => spell g (zero x 0 16) (.waitt g)
    | 1 => .waite g (x.extractLsb' 0 16)
    | _ => .illegalOpcode g)

/-- R194 CB. -/
def keCb (g : Fin 2048) (x : W32) : Instr :=
  let ce := fin2 x 20
  let d := fin4 x 16
  let tr := x.getLsbD 15
  let nd (i : Instr) : Instr := spell g (zero x 16 4) i
  spell g (zero x 0 15) (match field x 22 3 with
    | 0 => .chopen g ce d tr
    | 1 => .chw g ce d tr
    | 2 => nd (.chclose g ce tr)
    | 3 => .chr g ce d tr
    | 4 => nd (.chabort g ce tr)
    | _ => .illegalOpcode g)

/-- R195 USH. -/
def keUsh (g : Fin 2048) (x : W32) : Instr :=
  spell g (zero x 0 13) (match field x 22 3 with
    | 0 => spell g (zero x 14 4) (.take g (fin4 x 18) (x.getLsbD 13))
    | 1 => spell g (!x.getLsbD 13) (.release g (fin4 x 18) (fin4 x 14))
    | _ => .illegalOpcode g)

/-- R196 ATOM. -/
def keAtom (g : Fin 2048) (x : W32) : Instr :=
  let a := fin3 x 19
  let d := fin4 x 15
  let t := fin4 x 11
  let ndt (i : Instr) : Instr := spell g (zero x 11 8) i
  spell g (zero x 0 11) (match field x 22 3 with
    | 0 => .casw g a d t
    | 1 => .casd g a d t
    | 2 => .acq g a d t
    | 3 => ndt (.rel g a)
    | 4 => ndt (.lwatch g a)
    | 5 => ndt (.lunwatch g a)
    | _ => .illegalOpcode g)

/-- R197 SYS. -/
def keSys (g : Fin 2048) (x : W32) : Instr :=
  let ni (i : Instr) : Instr := spell g (zero x 0 16) i
  spell g (zero x 16 4) (match field x 20 5 with
    | 0 => ni (.nop g)
    | 1 => ni (.synci g)
    | 2 => .cpt g (x.extractLsb' 0 16)
    | 3 => ni (.fence g)
    | 4 => .bkpt g (x.extractLsb' 0 16)
    | 5 => ni (.tset g)
    | 6 => ni (.tclr g)
    | _ => .illegalOpcode g)

/-- A word with F = 0 (R172). -/
def keFull (g : Fin 2048) (x : W32) : Instr :=
  let d := fin4 x 21
  let s := fin4 x 17
  let imm17 := x.extractLsb' 0 17
  let a := fin3 x 18
  let m := x.extractLsb' 16 2
  let imm16 := x.extractLsb' 0 16
  match field x 25 6 with
  | 0x01 => keAlu g x
  | 0x02 => .addi g d s imm17
  | 0x03 => .andi g d s imm17
  | 0x04 => .ori g d s imm17
  | 0x05 => .xori g d s imm17
  | 0x06 => .shi g d s imm17
  | 0x07 => spell g (zero x 21 4) (.cmpi g s imm17)
  | 0x08 => .tsti g d s imm17
  | 0x09 => spell g (zero x 16 4) (.movi g d (x.getLsbD 20) imm16)
  | 0x0A => .aaddi g (fin3 x 22) (fin3 x 19) (x.extractLsb' 0 19)
  | 0x0B => keAop g x
  | 0x0C => spell g (zero x 16 4) (.amovi g (fin3 x 22) (x.extractLsb' 20 2) imm16)
  | 0x0D => spell g (zero x 0 12) (.mts g (x.extractLsb' 20 5) (x.extractLsb' 12 8))
  | 0x0E => spell g (zero x 0 12) (.mfs g (x.extractLsb' 20 5) (x.extractLsb' 12 8))
  | 0x10 => .ldb g d a m imm16
  | 0x11 => .ldbu g d a m imm16
  | 0x12 => .ldh g d a m imm16
  | 0x13 => .ldhu g d a m imm16
  | 0x14 => .ldw g d a m imm16
  | 0x15 => .ldd g d a m imm16
  | 0x16 => .lda g d a m imm16
  | 0x18 => .stb g d a m imm16
  | 0x19 => .sth g d a m imm16
  | 0x1A => .stw g d a m imm16
  | 0x1B => .std g d a m imm16
  | 0x1C => .sta g d a m imm16
  | 0x1D => .sti g d a m imm16
  | 0x20 => spell g (zero x 0 11) (.macx g (fin1 x 24) (fin3 x 21) a m (x.extractLsb' 14 2) (x.extractLsb' 12 2)
      (x.getLsbD 11))
  | 0x21 => spell g (zero x 0 14) (.clmacx g (fin1 x 24) (fin3 x 21) a m (x.extractLsb' 14 2))
  | 0x22 => spell g (zero x 0 10 && zero x 21 3) (.mac g (fin1 x 24) s (fin4 x 13) (x.extractLsb' 11 2) (x.getLsbD 10))
  | 0x23 => keAcc g x
  | 0x24 => spell g (zero x 0 10) (.bcrc g (fin1 x 24) (fin3 x 21) a m (x.extractLsb' 14 2) (fin4 x 10))
  | 0x25 => keDivg g x
  | 0x28 => .br g (x.extractLsb' 21 4) (x.extractLsb' 0 21)
  | 0x29 => .call g (x.extractLsb' 0 25)
  | 0x2A => keXfer g x
  | 0x2B => .dbnz g d (x.extractLsb' 0 21)
  | 0x30 => keWait g x
  | 0x31 => spell g (zero x 0 21) (.ldtb g d)
  | 0x32 => spell g (zero x 0 13) (.cue g d s (x.extractLsb' 13 4))
  | 0x33 => spell g (zero x 0 13) (.caprd g d s (fin4 x 13))
  | 0x34 => spell g (zero x 0 14) (if x.getLsbD 20 then .tmrWrite g d (fin2 x 18) (x.extractLsb' 14 4)
      else .tmrRead g d (fin2 x 18) (x.extractLsb' 14 4))
  | 0x35 => keCb g x
  | 0x36 => keUsh g x
  | 0x37 => keAtom g x
  | 0x38 => keSys g x
  | _ => .illegalOpcode g

/-! ### KE: short operations and pairs (R171, R198, R199) -/

/-- The 15 bits of a short operation; none: fault 0x01. The shift amounts' imm7[6:5] = 0 is `ShortOp.wellFormed`. -/
def keShort (x : BitVec 15) : Option ShortOp :=
  let d := fin3 x 7
  let s := fin3 x 4
  let t := fin3 x 1
  let i := x.extractLsb' 0 7
  let a := fin2 x 5
  let m := x.extractLsb' 3 2
  let ok (b : Bool) (o : ShortOp) : Option ShortOp := if b then some o else none
  let sr (o : ShortOp) : Option ShortOp := ok (zero x 0 1) o
  let sr1 (o : ShortOp) : Option ShortOp := ok (zero x 0 4) o
  let sr0 (o : ShortOp) : Option ShortOp := ok (zero x 0 1 && zero x 7 3) o
  let sm (o : ShortOp) : Option ShortOp := ok (zero x 0 3) o
  match field x 10 5 with
  | 0x00 => ok (zero x 0 10) .snop
  | 0x01 => sr (.sadd d s t)
  | 0x02 => sr (.ssub d s t)
  | 0x03 => sr (.sand d s t)
  | 0x04 => sr (.sor d s t)
  | 0x05 => sr (.sxor d s t)
  | 0x06 => sr1 (.smov d s)
  | 0x07 => sr1 (.snot d s)
  | 0x08 => sr1 (.sneg d s)
  | 0x09 => sr (.sselt d s t)
  | 0x0A => sr0 (.scmp s t)
  | 0x0B => sr0 (.steq s t)
  | 0x0C => sr0 (.stlt s t)
  | 0x0D => some (.saddi d i)
  | 0x0E => some (.smovi d i)
  | 0x0F => some (.sshli d i)
  | 0x10 => some (.sshri d i)
  | 0x11 => some (.ssari d i)
  | 0x12 => sm (.sldw d a m)
  | 0x13 => sm (.sldhu d a m)
  | 0x14 => sm (.sldbu d a m)
  | 0x15 => sm (.sstw d a m)
  | 0x16 => sm (.ssth d a m)
  | 0x17 => sm (.sstb d a m)
  | 0x18 => ok (zero x 0 4 && zero x 7 1) (.saadd (fin2 x 8) s)
  | 0x19 => ok (zero x 7 1) (.saaddi (fin2 x 8) i)
  | 0x1A => ok (zero x 0 1) (.smacx (fin1 x 9) (fin2 x 7) a m (x.extractLsb' 1 2))
  | 0x1B => ok (zero x 0 3) (.sclmacx (fin1 x 9) (fin2 x 7) a m)
  | _ => none

/-- The instruction that a KE word spells at thread g (R171). -/
def keDecode (g : Fin 2048) (x : W32) : Instr :=
  if x.getLsbD 31 then
    match keShort (x.extractLsb' 16 15), keShort (x.extractLsb' 1 15) with
    | some a, some b => spell g (zero x 0 1) (.pair g a b)
    | _, _ => .illegalOpcode g
  else keFull g x

/-! ### KP (R288, R289, R291) -/

/-- The instruction that a KP word spells at the sequencer of bank b; a word that spells none traps with cause 0x01. The
rule that imm5[4] is 0 for SHL, SHR and TBV stands in their meanings. -/
def kpDecode (b : Fin 32) (x : BitVec 14) : Instr :=
  let bad : Instr := .seqTrap b .illegalWord
  let ok (c : Bool) (i : Instr) : Instr := if c then i else bad
  let f0 (i : Instr) : Instr := ok (zero x 0 8) i
  let d := fin3 x 5
  let s := fin3 x 2
  let rr (i : Instr) : Instr := ok (zero x 0 2) i
  let rs (i : Instr) : Instr := ok (zero x 0 2 && zero x 5 3) i
  let rd (i : Instr) : Instr := ok (zero x 0 5) i
  let i5 := x.extractLsb' 0 5
  let i8 := x.extractLsb' 0 8
  let k := fin2 x 3
  let m (i : Instr) : Instr := ok (zero x 0 3) i
  match field x 8 6 with
  | 0x01 => f0 (.kpNop b)
  | 0x02 => f0 (.kpEnd b)
  | 0x03 => .kpTrap b i8
  | 0x04 => .kpBr b i8
  | 0x05 => .kpCall b i8
  | 0x06 => f0 (.kpRet b)
  | 0x07 => rs (.kpJv b s)
  | 0x08 => rs (.kpCallv b s)
  | 0x09 => .kpBz b i8
  | 0x0A => .kpBnz b i8
  | 0x0B => .kpBc b i8
  | 0x0C => .kpBnc b i8
  | 0x0D => .kpBt b i8
  | 0x0E => .kpBf b i8
  | 0x0F => .kpDjnz b i8
  | 0x10 => rr (.kpMov b d s)
  | 0x11 => rr (.kpAdd b d s)
  | 0x12 => rr (.kpSub b d s)
  | 0x13 => rr (.kpAnd b d s)
  | 0x14 => rr (.kpOr b d s)
  | 0x15 => rr (.kpXor b d s)
  | 0x16 => rr (.kpNot b d s)
  | 0x17 => rr (.kpCmp b d s)
  | 0x18 => .kpAddi b d i5
  | 0x19 => .kpLdi b d i5
  | 0x1A => .kpLdb0 b i8
  | 0x1B => .kpLdh0 b i8
  | 0x1C => .kpShl b d i5
  | 0x1D => .kpShr b d i5
  | 0x1E => rd (.kpRlt b d)
  | 0x1F => .kpTbv b d i5
  | 0x20 => rr (.kpLd b d s)
  | 0x21 => rr (.kpSt b d s)
  | 0x22 => .kpLdlc b i8
  | 0x23 => rs (.kpTolc b s)
  | 0x24 => rd (.kpFrlc b d)
  | 0x25 => rs (.kpPush b s)
  | 0x26 => rd (.kpPull b d)
  | 0x28 => f0 (.kpEpnow b)
  | 0x29 => rs (.kpEpadd b s)
  | 0x2A => .kpEpaddi b i8
  | 0x2B => rr (.kpCue b d s)
  | 0x2C => rd (.kpCuec b d)
  | 0x2D => ok (zero x 5 3 && zero x 1 1) (.kpCueimg b s (x.getLsbD 0))
  | 0x2E => rd (.kpMarknow b d)
  | 0x2F => f0 (.kpEpcr b)
  | 0x30 => rd (.kpInp b d)
  | 0x31 => rd (.kpTpin b d)
  | 0x32 => rd (.kpCapr b d)
  | 0x33 => rd (.kpCrd b d)
  | 0x34 => rd (.kpCre b d)
  | 0x35 => m (.kpMbr b d k)
  | 0x36 => m (.kpMbw b d k)
  | 0x38 => f0 (.kpWaitep b)
  | 0x39 => .kpWaitn b i8
  | 0x3A => rs (.kpWaitv b s)
  | 0x3B => rd (.kpWcap b d)
  | 0x3C => ok (zero x 5 3 && zero x 0 3) (.kpWmb b k)
  | 0x3D => rd (.kpWroom b d)
  | _ => bad

end Sys2Proof
end

