-- ==== Sys2Proof/Config.lean ====
section
/-! DEFINITION. Config: the values the manual leaves open, and the named standard functions the manual uses without
giving them (FIPS 180-4, FIPS 186-5). Each is an opaque constant: nothing can be proved about its value,
so a claim holds for every value (notes/assumptions 4, 5, 6). -/

namespace Sys2Proof

/-- A fresh 64-bit value that the manual leaves open, one for each number of `State.fresh` (notes/assumptions/4). -/
opaque Config.free64 : Nat → BitVec 64

/-- A fresh choice that the manual leaves open, one for each number of `State.fresh` (notes/assumptions/4). -/
opaque Config.freeBool : Nat → Bool

/-- The block serial number that IDENTIFY returns (R442, R468); the manual gives no value (notes/assumptions/4). -/
opaque Config.serial : BitVec 64

/-- The offset of BLK_ID in the global range of the host window, which the manual does not give (notes/assumptions/4). -/
opaque Config.blkIdOff : Nat

/-- The levels of `irq[3:0]` for the interrupt sources that are asserted: the manual gives neither the global interrupt registers'
fields nor which line a source raises (notes/assumptions/4). -/
opaque Config.irqLines : List Bool → BitVec 4

/-- SHA-384 of an uncompressed P-384 point of 97 bytes (FIPS 180-4, named by R7 and R449; notes/assumptions/5). -/
opaque Config.sha384Key : BitVec 776 → BitVec 384

/-- SHA-384 of `digest ‖ image digest` (R453; notes/assumptions/5). -/
opaque Config.sha384Pair : BitVec 384 → BitVec 384 → BitVec 384

/-- SHA-384 of an image: header fields without the signature, and the digest words of its sections
(R449; notes/assumptions/5). -/
opaque Config.sha384Words : List Nat → BitVec 384

/-- ECDSA P-384 verification of a signature over a digest with a public key (FIPS 186-5, R449; notes/assumptions/5). -/
opaque Config.ecdsaOk : BitVec 776 → BitVec 384 → BitVec 768 → Bool

/-- Byte and next running disparity that a 10-bit group outside the 8b/10b code leaves (R308; notes/assumptions/6). -/
opaque Config.bad8b10b : Bool → BitVec 10 → BitVec 8 × Bool

/-- Code group and next running disparity of a K byte that has no code (R329, R338; notes/assumptions/6). -/
opaque Config.badK8b10b : Bool → BitVec 8 → BitVec 10 × Bool

end Sys2Proof
end

