-- ==== Sys2Proof/Machine/PartsEngine.lean ====
section
/-! DEFINITION. State of the engines: thread contexts, engine control pages, bills, instruction caches, timers and the
callboard (spec/04 to 07, 13). A field's docstring gives its rule and its reset value. -/

namespace Sys2Proof.Machine

/-- Z, N, C, V, T (R156). -/
structure Flags where
  /-- R156 Z; reset 0. -/
  z : Bool := false
  /-- R156 N; reset 0. -/
  n : Bool := false
  /-- R156 C; reset 0. -/
  c : Bool := false
  /-- R156 V; reset 0. -/
  v : Bool := false
  /-- R156 T; reset 0. -/
  t : Bool := false
  deriving DecidableEq, Repr

/-- The registers a KE instruction can reach (R153). -/
structure Regs where
  /-- R153 D0–D15, 32 bits each; reset 0. -/
  d : Tab W32 := []
  /-- R153 A0–A7, 48 bits each; reset 0. -/
  a : Tab W48 := []
  /-- R153, R155 AC0, AC1, 80 bits each; reset 0. -/
  ac : Tab W80 := []
  /-- R156 FLAGS; reset 0. -/
  fl : Flags := {}
  /-- R153 PC, THR_PC (R209), 48 bits; reset 0. -/
  pc : W48 := 0
  /-- R188 return stack RS, 8 × 48 bits; reset 0. -/
  rs : Tab W48 := []
  /-- R188 RSP; reset 0. -/
  rsp : Nat := 0
  /-- R188 RSD, 0–8; reset 0. -/
  rsd : Nat := 0
  /-- R157 MB0–MB7, 48 bits each; reset 0. -/
  mb : Tab W48 := []
  /-- R157 ML0–ML7, 24 bits each; reset 0. -/
  ml : Tab (BitVec 24) := []
  /-- R153 THR_WAKE, 64 bits; reset 0. -/
  wake : W64 := 0
  deriving DecidableEq, Repr

/-- A loaded value, for the load-use rule (R497). -/
inductive LReg where
  | d (n : Nat)
  | a (n : Nat)
  | v
  | t
  deriving DecidableEq, Repr

/-- One register write of an instruction; an instruction's writes are formed from the state before it and applied
together (R136, R150). -/
inductive RWr where
  | d (n : Nat) (x : W32)
  | a (n : Nat) (x : W48)
  | ac (n : Nat) (x : W80)
  | znvc (z n c v : Bool)
  | v (b : Bool)
  | t (b : Bool)
  deriving DecidableEq, Repr

/-- Destination of a load (R178, R199). -/
inductive LDst where
  | dSx (r : Nat)
  | dZx (r : Nat)
  | dPair (r : Nat)
  | aReg (r : Nat)
  deriving DecidableEq, Repr

/-- What an access held on a bounded path does when its response arrives (R166). -/
inductive HeldOp where
  /-- A load of `size` bytes at an engine-view address (local memory of any engine, wings). -/
  | load (addr : W48) (size : Nat) (dst : LDst)
  /-- A load from external memory; `job` names its memory request. -/
  | loadExt (job : Nat) (addr : W48) (size : Nat) (dst : LDst)
  /-- A control-space load or store at host-window address `addr` (R168). -/
  | ctlLoad (addr : Nat) (size : Nat) (dst : LDst) (job : Option Nat)
  | ctlStore (addr : Nat) (size : Nat) (data : W64)
  /-- An atomic (R196), with its operands; `job` numbers it once it is in its unit's queue, 0 before (R386). -/
  | atom (fn : Nat) (addr : W48) (x y : W64) (d : Nat) (job : Nat)
  /-- TAKE (R195); `got` holds the window entry the usher has handed to it (R347). -/
  | take (r1 : Nat) (tr : Bool) (got : Option Nat)
  /-- Callboard functions that wait (R229, R230). -/
  | chopen (ce : Nat) (dst : Nat) (tr : Bool)
  | chw (ce : Nat) (data : W32) (tr : Bool)
  | chclose (ce : Nat) (tr : Bool)
  | chr (ce : Nat) (d : Nat) (tr : Bool)
  /-- A ninth posted access, not yet sent (R167): a store, an STI or a RELEASE. -/
  | ninthStore (addr : W48) (size : Nat) (data : W64)
  | ninthSti (addr : W48) (data : W32) (succ : W32)
  | ninthRelease (handle : W32) (disp : W32) (len : Option W32)
  /-- FENCE, SYNCI and CPT wait for the thread's posted accesses (R144, R167, R246). -/
  | fence
  | synci
  | cptStop
  deriving DecidableEq, Repr

/-- A held access: its effect, and the register writes made with it (R164, R201). -/
structure Held where
  op     : HeldOp
  writes : List RWr
  deriving DecidableEq, Repr

/-- A posted access whose acknowledgement has not arrived (R151, R167). -/
structure Posted where
  /-- PC of the word that made it. -/
  pc    : W48
  /-- External memory: the job of its request. -/
  job   : Option Nat
  /-- Fault its response brings, when the target has already found one. -/
  fault : Option W8
  /-- An STI: address and word still to reach the other cache arrays (R143). -/
  sti   : Option (W48 × W32)
  deriving DecidableEq, Repr

/-- Thread states (R203). -/
inductive TSt where
  | run
  | wait
  | halt
  | faulted
  deriving DecidableEq, Repr

/-- What a thread in WAIT waits for (R190, R203). -/
inductive WaitK where
  | waitt
  | waite (mask : W16)
  | curtain
  deriving DecidableEq, Repr

/-- The return state that event entry saves (R147, R148, R218). -/
structure SaveSt where
  pc   : W48
  fl   : Flags
  succ : Option W32
  deriving DecidableEq, Repr

/-- Debug state of a thread (R476–R479, R238). -/
structure ThrDbg where
  /-- R476 BKEN; reset 0. -/
  bken : Bool := false
  /-- R476 HALTED; reset 0. -/
  halted : Bool := false
  /-- R476 PENDING: a halt is requested; reset 0. -/
  pending : Bool := false
  /-- R476 REASON, 3 bits; reset 0. -/
  reason : BitVec 3 := 0
  /-- R476 BKNUM, 16 bits; reset 0. -/
  bknum : W16 := 0
  /-- R478: a STEP is in progress; reset 0. -/
  stepping : Bool := false
  /-- R479: the word at the PC was the subject of a halt and issues without matching again; reset 0. -/
  bpPass : Bool := false
  /-- R238: the thread's own bill positions that have passed since the halt was requested; reset 0. -/
  deferred : Nat := 0
  deriving DecidableEq, Repr

/-- The working copy of a BCRC in flight (R185): its registers as its iterations have left them. -/
structure CrcOp where
  ac : Nat
  ax : Nat
  ay : Nat
  xm : BitVec 2
  ym : BitVec 2
  r  : Regs
  deriving DecidableEq, Repr

/-- A long operation in flight (R132, R176, R185). -/
structure LongOp where
  /-- Iterations still to run. -/
  left   : Nat
  /-- What the last iteration writes; for a BCRC the working copy gives it. -/
  writes : List RWr
  crc    : Option CrcOp
  deriving DecidableEq, Repr

/-- A thread (R153, R203–R223). -/
structure Thread where
  /-- R153 architectural registers; reset 0. -/
  r : Regs := {}
  /-- R208 THR_STAT.STATE; reset HALT. -/
  st : TSt := .halt
  /-- R203: what a thread in WAIT waits for; reset none. -/
  waitK : Option WaitK := none
  /-- R166, R208 HELD: the held access; reset none. -/
  held : Option Held := none
  /-- R167: posted accesses outstanding, oldest first, at most 8; reset none. -/
  posted : List Posted := []
  /-- R139: the line a parked thread waits for; reset none. -/
  park : Option Nat := none
  /-- R143: the copy of an STI's successor; reset none. -/
  succ : Option W32 := none
  /-- R208 INH, R218: saved event return state; reset none. -/
  save : Option SaveSt := none
  /-- R208 LATE, W1C; reset 0. -/
  late : Bool := false
  /-- R208 CURTAIN; reset 0. -/
  curtain : Bool := false
  /-- R208 FCODE, 8 bits; reset 0. -/
  fcode : W8 := 0
  /-- R206 THR_CFG.RSTRAP; reset 0. -/
  rstrap : Bool := false
  /-- R206 THR_CFG.SUPV (reads 1 for T0); reset 0. -/
  supv : Bool := false
  /-- R222 THR_VBASE, bits [47:8]; reset 0. -/
  vbase : W48 := 0
  /-- R223 THR_EV.EN, 16 bits; reset 0. -/
  evEn : W16 := 0
  /-- R223 THR_EV.PIN, 8 bits; reset 0. -/
  evPin : W8 := 0
  /-- R223 THR_EV.DMA, 6 bits; reset 0. -/
  evDma : BitVec 6 := 0
  /-- R215: pending latched sources (bits 1, 2, 4–7, 12–14); reset 0. -/
  pend : W16 := 0
  /-- R213 THR_WDOG.LIMIT, 24 bits; reset 0. -/
  wdLimit : BitVec 24 := 0
  /-- R213 THR_WDOG.COUNT, 24 bits; reset 0. -/
  wdCount : BitVec 24 := 0
  /-- R498: pending fault (code, PC); reset none. -/
  pendFault : Option (W8 × W48) := none
  /-- R476: debug state; reset 0. -/
  dbg : ThrDbg := {}
  /-- R246: a swap is pending for the thread; reset 0. -/
  swap : Bool := false
  /-- R246: curtain-point numbers the swap accepts; none: every number. -/
  swapNums : Option (List W16) := none
  /-- R246, R455: number of the curtain point that the thread accepted last; reset 0. -/
  cptAt : W16 := 0
  /-- R131: dead slots that the thread owes; reset 0. -/
  owe : Nat := 0
  /-- R132: the long operation in flight; reset none. -/
  long : Option LongOp := none
  /-- R497: loaded values of the word in the thread's previous slot; reset none. -/
  loaded : List LReg := []
  /-- R216: the source recognized at the end of the previous ec, whose entry begins; reset none. -/
  entering : Option Nat := none
  /-- R139, R146: number of the first ec in which the thread may be ready again after an event entry or a fill; reset 0. -/
  readyAt : Nat := 0
  /-- R146, R239: number of the first ec after the thread's latest event entry; reset 0. -/
  entryEnd : Nat := 0
  /-- R22: the thread resumes from WAITT at a position of its own; reset 0. -/
  ownFirst : Bool := false
  deriving DecidableEq, Repr

/-- A line in the cache array or line buffer (R138): 16 words. -/
structure IcLine where
  line   : Nat
  pinned : Bool
  words  : Tab W32
  /-- R138: its way of the set, 0–3. -/
  way    : Nat
  /-- R152: ECC state of the way: 0 good, 1 a correctable error, 2 an uncorrectable one. -/
  ecc    : Nat
  deriving DecidableEq, Repr

/-- A fill in flight (R139, R140). -/
structure Fill where
  line    : Nat
  /-- Threads parked on it. -/
  waiters : List Nat
  pin     : Bool
  /-- R385: job of the memory request of a fill from external memory. -/
  job     : Option Nat
  /-- R139: ec in which a fill from the repertory store makes the line present. -/
  due     : Nat
  deriving DecidableEq, Repr

/-- A fill that waits for a free unit (R140): its line, the threads parked on it, whether it pins the line, and the source ID of
its request. -/
structure FillReq where
  line    : Nat
  waiters : List Nat
  pin     : Bool
  src     : W16
  deriving DecidableEq, Repr

/-- Instruction cache and line buffer of a physical engine (R138–R145). -/
structure Icache where
  /-- R138: cache array by set (128 sets, 4 ways), most recently used first; reset empty. -/
  sets : Tab (List IcLine) := []
  /-- R138: line buffer, 8 entries, most recently used first; reset empty. -/
  lb : List IcLine := []
  /-- R140: fills in flight, at most 4; reset none. -/
  fills : List Fill := []
  /-- R140: fills that wait for a free unit, oldest first; reset none. -/
  fillWait : List FillReq := []
  deriving DecidableEq, Repr

/-- What a timer raises in one ec (R257, R262–R264, R268): TOP, BOTTOM, CMPA, CMPB, a capture entry written, a turnaround by a
shortened period, a refused CFG write. -/
structure TEv where
  top   : Bool := false
  bot   : Bool := false
  a     : Bool := false
  b     : Bool := false
  cap   : Bool := false
  short : Bool := false
  err   : Bool := false
  deriving DecidableEq, Repr

/-- An engine timer (R257–R270). -/
structure Tmr where
  /-- R270 TMRn_CFG, 32 bits; reset 0. -/
  cfg : W32 := 0
  /-- R270 TMRn_CTL.EN; reset 0. -/
  en : Bool := false
  /-- R257 C, TMRn_CNT, 32 bits; reset 0. -/
  c : W32 := 0
  /-- R270 TMRn_STAT.DIR inverted: counting down; reset 0. -/
  down : Bool := false
  /-- R257 live period P, 32 bits; reset 0. -/
  p : W32 := 0
  /-- R264, R270 PERPEND: shadow period; reset none. -/
  shadow : Option W32 := none
  /-- R270 TMRn_CMPA, 32 bits; reset 0. -/
  cmpA : W32 := 0
  /-- R270 TMRn_CMPB, 32 bits; reset 0. -/
  cmpB : W32 := 0
  /-- R268: capture queue, oldest first, at most 4 entries (64 bits when chained); reset empty. -/
  capQ : List W64 := []
  /-- R270 CAPST.OVR, W1C; reset 0. -/
  ovr : Bool := false
  /-- R270 CAPST.EMPTYRD, W1C; reset 0. -/
  emptyRd : Bool := false
  /-- R270 CAPST.DROP, 8 bits; reset 0. -/
  drop : W8 := 0
  /-- R270 STAT.CMPA, W1C; reset 0. -/
  sCmpA : Bool := false
  /-- R270 STAT.CMPB, W1C; reset 0. -/
  sCmpB : Bool := false
  /-- R270 STAT.TOP, W1C; reset 0. -/
  sTop : Bool := false
  /-- R270 STAT.BOTTOM, W1C; reset 0. -/
  sBot : Bool := false
  /-- R270 STAT.SHORT, W1C; reset 0. -/
  sShort : Bool := false
  /-- R270 STAT.CFGERR, W1C; reset 0. -/
  cfgErr : Bool := false
  /-- R270 TMRn_CAPPIN, 8 bits; reset 0. -/
  capPin : W8 := 0
  /-- R269: staged low halves of CNT, PERIOD, CMPA, CMPB by sel; reset none. -/
  staged : Tab (Option W32) := []
  /-- R269: snapshots of the high half of CNT by reader; reset none. -/
  snapCnt : Tab (Option W32) := []
  /-- R269: snapshots of the high half of CAP by reader; reset none. -/
  snapCap : Tab (Option W32) := []
  /-- R259: what has been raised in the present ec; reset nothing. -/
  ev : TEv := {}
  /-- R258, R266: the master's trigger pulsed in the previous ec; reset 0. -/
  trg : Bool := false
  /-- R262: compares of a chained pair that matched in the previous ec, CMPA and CMPB; reset 0. -/
  chA : Bool := false
  chB : Bool := false
  /-- R262, R267: a compare of a chained pair becomes pending at the threads in the next ec; reset 0. -/
  thr : Bool := false
  /-- R268: a capture trigger fell in the present ec, or a pin edge whose recognition ec is the next one; reset 0. -/
  capDue : Bool := false
  capEdge : Bool := false
  /-- R257: the step of the present ec has been taken; reset 0. -/
  stepped : Bool := false
  /-- R259: registers (sel) that a TMR has written in the present ec; reset none. -/
  byTmr : List Nat := []
  /-- R258: a second timebase crossing owed to the following ec; reset 0. -/
  owed : Bool := false
  deriving DecidableEq, Repr

/-- Engine control page and dispatch queue of a physical engine (R116–R129, R210, R224, R241, R245, R346). -/
structure Eng where
  /-- R127 BILL_SHD positions by number, one byte each; reset p mod 32 (absent: the reset value). -/
  shd : Tab (Option W8) := []
  /-- R127 BILL_LIVE positions by number, one byte each; reset p mod 32 (absent: the reset value). -/
  live : Tab (Option W8) := []
  /-- R128 BILL_MODE.FIXED, 32 bits; reset 1. -/
  mode : W32 := 1
  /-- R128 BILL_MODE_LIVE.FIXED, 32 bits; reset 1. -/
  modeLive : W32 := 1
  /-- R129 BILL_CTL.COMMIT: lap at whose position 0 the commit takes effect; reset none. -/
  commit : Option Nat := none
  /-- R13: COMMIT has been written to 1 in the present ec; reset 0. -/
  commitEc : Bool := false
  /-- R122: shadow and BILL_MODE as the present ec found them, when it has written them; reset none. -/
  shdWas : Option (Tab (Option W8) × W32) := none
  /-- R129 BILL_STAT.REJECT, W1C; reset 0. -/
  reject : Bool := false
  /-- R129 BILL_STAT.REJ_WHY, 2 bits; reset 0. -/
  rejWhy : BitVec 2 := 0
  /-- R119: thread that has had the slot of the present ec; reset none. -/
  slot : Option Nat := none
  /-- R118: thread that had the slot of the previous ec; reset none. -/
  prev : Option Nat := none
  /-- R119: thread that last received an understudy slot; reset 31 (DESIGN CHOICE log 2: the search starts at T0). -/
  rr : Nat := 31
  /-- R214 ENG_FLTMAP, 32 bits, W1C; reset 0. -/
  fltmap : W32 := 0
  /-- R224 ENG_NOTICE, 3 bits, W1C; reset 0. -/
  notice : BitVec 3 := 0
  /-- R241 DBG_HALT_LIMIT.LIMIT, 16 bits; reset 0x1000. -/
  haltLimit : W16 := 0x1000
  /-- R241 DBG_HALT_LIMIT.NODEFER; reset 0. -/
  noDefer : Bool := false
  /-- R257: timers TMR0–TMR3, as the present ec leaves them so far; reset values. -/
  tmr : Tab Tmr := []
  /-- R259: the timers as the present ec found them, which is what reads return; reset values. -/
  tmr0 : Tab Tmr := []
  /-- R129: what the block's lap count was when the bill was last reset, less one while it runs; BILL_STAT.LAP counts from it;
  reset 0. -/
  lapAt : Nat := 0
  /-- R346: dispatch queue, window entries, oldest first, at most 64; reset empty. -/
  dq : List Nat := []
  /-- R347: packets that the usher has placed in the dispatch queue in the present ec, oldest first; reset empty. -/
  dqNew : List Nat := []
  /-- R347: threads of the engine held in TAKE, in the order in which they wait; reset none. -/
  takers : List Nat := []
  /-- R48: threads by the order in which they issued their latest control-space access; reset none. -/
  ctlQ : List Nat := []
  deriving DecidableEq, Repr

/-- Send-side states (R229). -/
inductive TxSt where
  | idle
  | opening
  | opn
  | closing
  | aborted
  deriving DecidableEq, Repr

/-- A word of a message (R226). -/
inductive CbWord where
  | opn (peer : Nat)
  | data (x : W32)
  | close
  deriving DecidableEq, Repr

/-- A callboard endpoint, both sides (R225–R236). -/
structure Ce where
  /-- R235 TXST; reset IDLE. -/
  txst : TxSt := .idle
  /-- R235 TXCRED, 0–8; reset 0. -/
  cred : Nat := 0
  /-- R235 TXPEER, 14 bits; reset 0. -/
  txPeer : Nat := 0
  /-- R235 CAUSE, 3 bits; reset 0. -/
  cause : BitVec 3 := 0
  /-- R235 RXBUSY; reset 0. -/
  rxBusy : Bool := false
  /-- R230: receive buffer, oldest first, at most 8 words; reset empty. -/
  rxBuf : List CbWord := []
  /-- R235 RXABT: cause of the queued ABORT word; reset none. -/
  rxAbt : Option W32 := none
  /-- R235 RXPEER, 14 bits; reset 0. -/
  rxPeer : Nat := 0
  /-- R231: last sender granted; reset 8191 (DESIGN CHOICE log 2: the search starts at address 0). -/
  lastGrant : Nat := 8191
  /-- R230: waiting set: sender addresses with the numbers of their routes; reset empty. -/
  waiting : List (Nat × Nat) := []
  /-- R229: number of the route that the send side opened last (the model's own, log 13); reset 0. -/
  route : Nat := 0
  /-- R230: number of the route that the receive side holds (the model's own, log 13); reset 0. -/
  rxRoute : Nat := 0
  /-- R235 STALL, W1C; reset 0. -/
  stall : Bool := false
  /-- R236: laps without a word; reset 0. -/
  stallLaps : Nat := 0
  /-- R236: the stalled route has been reported; reset 0. -/
  stallRep : Bool := false
  /-- R234 CE_TMO.LAPS, 16 bits; reset 0x0400. -/
  tmo : W16 := 0x0400
  deriving DecidableEq, Repr

/-- What travels over the callboard mesh (R228). -/
inductive CbKind where
  | opn
  | grant
  | word (w : CbWord)
  | credit
  | closeNews
  /-- An abort that travels to the receive side, with the cause its ABORT word shows. -/
  | abortRx (cause : W32)
  /-- An abort that travels to the send side, with its `CE_STAT.CAUSE`. -/
  | abortTx (cause : BitVec 3)
  deriving DecidableEq, Repr

/-- A word, credit, grant or abort in flight (R228). -/
structure CbMsg where
  kind  : CbKind
  src   : Nat
  dst   : Nat
  /-- Number of the sender's route it belongs to (log 13). -/
  route : Nat
  /-- R228: the ec in which it was sent. -/
  ec    : Nat
  deriving DecidableEq, Repr

/-- Callboard-wide state (R242–R245). -/
structure Cb where
  /-- R228: words, credits, grants, news and aborts in flight, oldest first; reset none. -/
  fly : List CbMsg := []
  /-- R245 CB_SS_MAP: logical threads in a detected set, ascending; reset none. -/
  ssMap : List Nat := []
  /-- R243: standstill sets found at the previous evaluation; reset none. -/
  ssSets : List (List Nat) := []
  /-- R244: number of the next detected set, 16 bits; reset 0. -/
  ssNum : W16 := 0
  deriving DecidableEq, Repr

end Sys2Proof.Machine
end

