-- ==== Sys2Proof/Machine/PartsLane.lean ====
section
/-! DEFINITION. State of the lane groups, lanes and links (spec/09). A field's docstring gives its rule and its reset
value. A link is keyed by its first lane. -/

namespace Sys2Proof.Machine

/-- A unit of a lane's block code after descrambling and decoding (R305–R308): header and payload bytes for the block
codes, or decoded bytes with their flags (K, code error, disparity error) for 8b/10b. The block that a descrambler takes first
after an unlock carries one flag (R310). -/
structure LBlk where
  hdr : BitVec 2
  pay : List W8
  kf  : List (BitVec 3)
  deriving DecidableEq, Repr

/-- The receive side of a lane (R305–R311, R314, R316). -/
structure LaneRx where
  /-- R339 RX_LOCK: level of `ln_rx_lock`; reset 0. -/
  lock : Bool := false
  /-- R309: the group's LCLK is outside its window; reset 0. -/
  clkBad : Bool := false
  /-- R339 ALIGNED (R307, R308); reset 0. -/
  aligned : Bool := false
  /-- R339 OFFSET, 0–129; reset 0. -/
  offset : Nat := 0
  /-- R305: stream bits received and not yet taken as a block, first received first; reset empty. -/
  bits : List Bool := []
  /-- R307: consecutive valid headers at the present offset, or commas (R308); reset 0. -/
  good : Nat := 0
  /-- R307, R308: validity of the latest blocks or code groups (1: invalid), newest first, at most 64; reset empty. -/
  hist : List Bool := []
  /-- R310: the lane has unlocked since its descrambler took its latest block; reset 0. -/
  stale : Bool := false
  /-- R310: descrambler state, 58 bits; reset 0 (DESIGN CHOICE log 2). -/
  descr : BitVec 58 := 0
  /-- R311: LFSR state, 32 bits; loaded from SEED. -/
  lfsr : W32 := 0
  /-- R308: running disparity of the decoder; reset 0 (DESIGN CHOICE log 2). -/
  disp : Bool := false
  /-- R314: 64-word deskew buffer, oldest first; reset empty. -/
  fifo : List LBlk := []
  /-- R314, R339 LPOS: logical position that the lane's first marker matched (64: none of the link, log 25); reset none. -/
  pos : Option Nat := none
  /-- R339 DESKEWED; reset 0. -/
  deskewed : Bool := false
  /-- R339 SKEW, 0–48; reset 0. -/
  skew : Nat := 0
  deriving DecidableEq, Repr

/-- The transmit side of a lane (R310, R311, R330). -/
structure LaneTx where
  /-- R67: level of `ln_tx_quiet`; reset 1. -/
  quiet : Bool := true
  /-- R89: transmit crossing queue, 66-bit words, oldest first, at most 32; reset empty. -/
  q : List (BitVec 2 × W64) := []
  /-- R67, R331: words from the front of the queue to the last that holds a part of a frame, a word that is not yet full among
them; reset 0. -/
  owed : Nat := 0
  /-- R306: bits of blocks not yet sent as lane words; reset empty. -/
  bits : List Bool := []
  /-- R310: scrambler state, 58 bits; reset 0 (DESIGN CHOICE log 2). -/
  scr : BitVec 58 := 0
  /-- R311: LFSR state, 32 bits; loaded from SEED. -/
  lfsr : W32 := 0
  /-- R329: running disparity of the encoder; reset 0 (DESIGN CHOICE log 2). -/
  disp : Bool := false
  /-- R40: the word driven last on `ln_tx_ctl`, `ln_tx_data`; at rest none. -/
  last : Option (BitVec 2 × W64) := none
  deriving DecidableEq, Repr

/-- A lane page (R339, R340). -/
structure Lane where
  rx : LaneRx := {}
  tx : LaneTx := {}
  /-- R339 LN_CFG.OD, 8 bits; reset 0. -/
  od : W8 := 0
  /-- R339 LN_CFG.SEED, 32 bits; reset 0. -/
  seed : W32 := 0
  /-- R339 LN_MKPAT, 64 bits; reset 0. -/
  mkpat : W64 := 0
  /-- R340 LN_ERR.HDR_ERR, 16 bits; reset 0. -/
  hdrErr : W16 := 0
  /-- R340 LN_ERR.DISP_ERR, 16 bits; reset 0. -/
  dispErr : W16 := 0
  /-- R340 LN_ERR.UNLOCK, 16 bits; reset 0. -/
  unlock : W16 := 0
  /-- R340 LN_ERR.MK_ERR, 16 bits; reset 0. -/
  mkErr : W16 := 0
  deriving DecidableEq, Repr

/-- Link states (R317). -/
inductive LSt where
  | off
  | forming
  | locking
  | up
  | rebonding
  deriving DecidableEq, Repr

/-- A packet received on a link or a DUT port, complete in the receive store (R318, R366), with its SRCINFO (R347). -/
structure RxPkt where
  bytes : List W8
  info  : W16
  /-- R356: pool chosen when its end arrived. -/
  pool  : Nat
  /-- R357: segments it needs. -/
  segs  : Nat
  /-- R372, DUT port: dc and timebase of the last beat, dc from the SOP transfer to it. -/
  dc    : W64
  tb    : W64
  span  : Nat
  deriving DecidableEq, Repr

/-- A received packet whose buffers are being written: its handles in segment order, its chain record and the job of its
writes (R318, R344). -/
structure RxWr where
  pkt     : RxPkt
  handles : List W32
  chidx   : Nat
  job     : Nat
  deriving DecidableEq, Repr

/-- What a hardware requester (link or DUT port) has between a packet's end and its entry (R318, R354, R360). -/
structure Inq where
  /-- Packets that wait for handles, oldest first; reset none. -/
  waiting : List RxPkt := []
  /-- Handles taken for the oldest of them; reset none. -/
  got : List W32 := []
  /-- Chain record taken for it; reset none. -/
  chidx : Option Nat := none
  /-- R318: segments that the link's frame in progress has begun since it reached the size of the largest pool; their handles join
  `got` once no packet waits; reset 0. -/
  live : Nat := 0
  /-- Packets being written, or written and not yet entered, oldest first; reset none. -/
  writing : List RxWr := []
  deriving DecidableEq, Repr

/-- The framer of a link (R318–R325). -/
structure Framer where
  /-- R318: bytes of the frame in progress; none outside frames; reset none. -/
  cur : Option (List W8) := none
  /-- R319: a frame has started whose next block still holds the end of its preamble and its SFD; reset 0. -/
  sfd : Bool := false
  /-- R324 CODE_ERR of the frame in progress; reset 0. -/
  codeErr : Bool := false
  /-- R323: the frame in progress has been cut at 65,536 B; reset 0. -/
  trunc : Bool := false
  /-- R325: the frame in progress found the store full and is being discarded; reset 0. -/
  drop : Bool := false
  /-- R318: finished frames on their way to the usher; reset none. -/
  inq : Inq := {}
  /-- R332: the receive side starts no frame (re-bonding); reset 0. -/
  hold : Bool := false
  deriving DecidableEq, Repr

/-- A packet in a transmit queue (R326). -/
structure OutPkt where
  handle : W32
  len    : Nat
  pool   : Nat
  chain  : Bool
  chidx  : Nat
  /-- R328, R348: the disposition carries the append override. -/
  append : Bool
  deriving DecidableEq, Repr

/-- The transmit assembler of a link (R326–R331). -/
structure Asm where
  /-- R326: transmit queue, oldest first, at most 1,024; reset empty. -/
  q : List OutPkt := []
  /-- R327: units still to be sent of the frame being sent; reset empty. -/
  cur : List LBlk := []
  /-- R327: a frame is being sent; reset 0. -/
  busy : Bool := false
  /-- R357: its packet, whose buffers are freed as it ends; reset none. -/
  pkt : Option OutPkt := none
  /-- R340: the frame being sent counts in FRAMES when it ends; reset 0. -/
  cnt : Bool := false
  /-- R329: bytes sent since the last terminate character; reset 255 (log 2). -/
  ipg : Nat := 255
  /-- R313: lane words until the next marker on every lane; reset 0. -/
  mkCnt : Nat := 0
  deriving DecidableEq, Repr

/-- A link, keyed by its first lane (R312–R317, R340). -/
structure Link where
  /-- R339 LSTATE; reset OFF. -/
  st : LSt := .off
  /-- R314: deskew step: 0 collects first markers, 1 waits for the confirming markers, 2 deskewed; reset 0. -/
  dsk : Nat := 0
  /-- R314: rounds since the last marker of the deskewed lanes; reset 0. -/
  rounds : Nat := 0
  /-- R316: consecutive bad marker intervals; reset 0. -/
  badInt : Nat := 0
  /-- R314: event 0x4012 has been logged in this stay in LOCKING; reset 0. -/
  refused : Bool := false
  fr : Framer := {}
  asm : Asm := {}
  /-- R340 LNK_RX.FRAMES, 32 bits; reset 0. -/
  rxFrames : W32 := 0
  /-- R340 LNK_RX.CRC_BAD, 16 bits; reset 0. -/
  crcBad : W16 := 0
  /-- R340 LNK_RX.RUNT, 16 bits; reset 0. -/
  runt : W16 := 0
  /-- R340 LNK_RXDROP.STORE_DROP, 16 bits; reset 0. -/
  storeDrop : W16 := 0
  /-- R340 LNK_RXDROP.BP_DROP, 16 bits; reset 0. -/
  bpDrop : W16 := 0
  /-- R340 LNK_RXDROP.TRUNC, 16 bits; reset 0. -/
  truncCnt : W16 := 0
  /-- R340 LNK_RXDROP.FRM_ERR, 16 bits; reset 0. -/
  frmErr : W16 := 0
  /-- R340 LNK_TX.FRAMES, 32 bits; reset 0. -/
  txFrames : W32 := 0
  /-- R340 LNK_TX.TXERR, 16 bits; reset 0. -/
  txErr : W16 := 0
  /-- R340 LNK_TX.UNDERRUN, 16 bits; reset 0. -/
  underrun : W16 := 0
  /-- R340 LNK_TXQ.DROP, 16 bits; reset 0. -/
  txqDrop : W16 := 0
  /-- R340 LNK_OS, 64 bits; reset 0. -/
  os : W64 := 0
  deriving DecidableEq, Repr

/-- Steps of a re-bond (R332). -/
inductive RbSt where
  | idle
  | drain
  | quiet
  deriving DecidableEq, Repr

/-- A lane group (R336–R338). -/
structure Lg where
  /-- R336 LG_CFG, 64 bits; reset MK_INT 0x4000. -/
  cfg : W64 := 0x0000400000000000
  /-- R336 LG_CFG_LIVE, 64 bits; reset MK_INT 0x4000. -/
  live : W64 := 0x0000400000000000
  /-- R337 LG_CTL.EN; reset 0. -/
  en : Bool := false
  /-- R337 LG_CTL.REBOND; reset 0. -/
  rebond : Bool := false
  /-- R13: REBOND has been written to 1 again in the present ec; reset 0. -/
  rbEc : Bool := false
  /-- R332, R337 REBONDING: step of the re-bond in progress; reset idle. -/
  rb : RbSt := .idle
  /-- R337 CFGERR, W1C; reset 0. -/
  cfgErr : Bool := false
  /-- R337 STORE_OVF, W1C; reset 0. -/
  storeOvf : Bool := false
  /-- R337 BP_DROP, W1C; reset 0. -/
  sBpDrop : Bool := false
  /-- R337 TX_UNDERRUN, W1C; reset 0. -/
  sUnderrun : Bool := false
  /-- R337 TXQ_DROP, W1C; reset 0. -/
  sTxqDrop : Bool := false
  /-- R338 LG_FRM, 64 bits; reset MIN_LEN 64, SOF_K 0xFB, EOF_K 0xFD, TX_IPG 12. -/
  frm : W64 := 0x000CFDFB00000040
  /-- R338 LG_LFSR, 64 bits; reset 0. -/
  lfsr : W64 := 0
  /-- R338 LG_IDLE, 64 bits; reset 0x1E. -/
  idle : W64 := 0x1E
  deriving DecidableEq, Repr

end Sys2Proof.Machine
end

