-- ==== Sys2Proof/Machine/PartsIo.lean ====
section
/-! DEFINITION. State of the usher, the box office, the DUT ports, the DMA channels and the atomic units (spec/10, 11). A
field's docstring gives its rule and its reset value. -/

namespace Sys2Proof.Machine

/-- A disposition that RELEASE gives (R348). -/
structure Disp where
  word   : W32
  /-- LENSET: the new length. -/
  newLen : Option Nat
  deriving DecidableEq, Repr

/-- Where a packet in the window is (R18, R353). -/
inductive PSt where
  | window
  | queued (p : Nat)
  | held (g : Nat)
  | released (d : Disp)
  /-- Force-dropped; its buffers wait for room in the free cache (R353). -/
  | freeing
  deriving DecidableEq, Repr

/-- A window entry (R342, R347, R372). -/
structure Pkt where
  handle : W32
  len    : Nat
  pool   : Nat
  od     : Nat
  chain  : Bool
  src    : BitVec 2
  recirc : Bool
  seq    : W32
  info   : W16
  chidx  : Nat
  /-- R372: timebase at which the packet first entered. -/
  tb     : W64
  st     : PSt
  deriving DecidableEq, Repr

/-- An order domain (R342–R353, R379). -/
structure Dom where
  /-- R379 USH_ODCFG.TMO, 24 bits; reset 0. -/
  tmo : BitVec 24 := 0
  /-- R379 USH_ODCFG.OWNER, 6 bits; reset 0. -/
  owner : BitVec 6 := 0
  /-- R379 USH_ODCFG.LIM, 15 bits; reset 0. -/
  lim : BitVec 15 := 0
  /-- R379 USH_ODDISP.ENGINES, 64 bits; reset 0. -/
  engines : W64 := 0
  /-- R379 TIMEDOUT, W1C; reset 0. -/
  timedOut : Bool := false
  /-- R379 FDMISS, W1C; reset 0. -/
  fdMiss : Bool := false
  /-- R379 FDLOST, W1C; reset 0. -/
  fdLost : Bool := false
  /-- R379 USH_ODCTL.HANDLE, 32 bits; reset 0. -/
  fdHandle : W32 := 0
  /-- R342, R379 NEXTSEQ, 32 bits; reset 0. -/
  nextSeq : W32 := 0
  /-- R342: window entries of the domain in sequence order, head first; reset empty. -/
  q : List Nat := []
  /-- R346: engine that received the previous packet; reset 63. -/
  ptr : Nat := 63
  /-- R346: a packet of the domain has been dispatched in the present ec; reset 0. -/
  dispNow : Bool := false
  /-- R352: timebase at which the head became the head; reset 0. -/
  headTb : W64 := 0
  /-- R352: the head has timed out; reset 0. -/
  headTo : Bool := false
  /-- R19: handle of the domain's latest RELEASE and the ec in which the usher took it; reset none. -/
  relLast : Option (W32 × Nat) := none
  /-- R19: a force-drop of the present ec whose packet a thread holds: master ID of its writer, handle; reset none. -/
  fdBy : Option (Nat × W32) := none
  /-- R379 RETIRED, 32 bits; reset 0. -/
  retired : W32 := 0
  /-- R379 DROPPED, 16 bits; reset 0. -/
  dropped : W16 := 0
  /-- R379 FDROPS, 16 bits; reset 0. -/
  fdrops : W16 := 0
  deriving DecidableEq, Repr

/-- A chained packet whose record is being read to free its segments (R357). -/
structure ChFree where
  job   : Nat
  pool  : Nat
  /-- Handle of the packet's first segment. -/
  handle : W32
  /-- First segment to free. -/
  first : Nat
  /-- Segments of the packet. -/
  cnt   : Nat
  chidx : Nat
  /-- The record itself is freed too. -/
  whole : Bool
  deriving DecidableEq, Repr

/-- A prompt-book entry whose write has been issued (R372). -/
structure PbWr where
  idx : W32
  job : Nat
  ack : Bool
  deriving DecidableEq, Repr

/-- The usher (R342–R354, R372, R378). -/
structure Ush where
  /-- R342: window entries by index, 0–16,383; reset none. -/
  win : Tab (Option Pkt) := []
  /-- R379: order domains OD0–OD255; reset values. -/
  dom : Tab Dom := []
  /-- R378 WFULL, W1C; reset 0. -/
  wfull : Bool := false
  /-- R378 CHWAIT, W1C; reset 0. -/
  chWait : Bool := false
  /-- R378 CFGERR, W1C; reset 0. -/
  cfgErr : Bool := false
  /-- R378 CHDROP, 16 bits; reset 0. -/
  chDrop : W16 := 0
  /-- R378 USH_CHAIN, 64 bits; reset 0. -/
  chain : W64 := 0
  /-- R357: chain records in use, ascending; reset none. -/
  chUsed : List Nat := []
  /-- R357: records being read for freeing; reset none. -/
  chFree : List ChFree := []
  /-- R378 USH_ENTRES by master ID: RES and SEQ; reset 0. -/
  entres : Tab (BitVec 2 × W32) := []
  /-- R353: packets force-dropped while held: holder and packet, until its RELEASE; reset none. -/
  orphans : List (Nat × Pkt) := []
  /-- R343: hardware sources that wait for a window entry or their domain, and the source that was given the last entry;
  reset none, 96 (DESIGN CHOICE log 2: the first turn starts at source 0). -/
  wsrc : List Nat := []
  lastSrc : Nat := 96
  /-- R349: domains that have retired a packet in the present ec; reset none. -/
  retNow : List Nat := []
  /-- R349: last domain that retired in an earlier ec; reset 255. -/
  retLast : Nat := 255
  /-- R378 USH_PB_CFG.EN; reset 0. -/
  pbEn : Bool := false
  /-- R378 USH_PB_CFG.WRAP; reset 0. -/
  pbWrap : Bool := false
  /-- R378 USH_PB_CFG.LOG2N, 5 bits; reset 10. -/
  pbLog2 : BitVec 5 := 10
  /-- R378 USH_PB_BASE, bits [47:12]; reset 0. -/
  pbBase : W48 := 0
  /-- R378 USH_PB_WR, 32 bits; reset 0. -/
  pbWr : W32 := 0
  /-- R378 USH_PB_RD, 32 bits; reset 0. -/
  pbRd : W32 := 0
  /-- R372: entries issued and not yet counted in WR, oldest first; reset none. -/
  pbOut : List PbWr := []
  deriving DecidableEq, Repr

/-- A pool of the box office (R355–R363, R380). -/
structure Pool where
  /-- R380 LOG2SIZE, 5 bits; reset 8. -/
  log2 : BitVec 5 := 8
  /-- R380 EN; reset 0. -/
  en : Bool := false
  /-- R359: free cache, next handle first, at most 1,024; reset empty. -/
  cache : List W32 := []
  /-- R359: a refill is under way; reset 0. -/
  refill : Bool := false
  /-- R61: handles still to come of the outstanding request; reset none. -/
  req : Option Nat := none
  /-- R359: the RETRY time after EMPTY runs; reset 0. -/
  retry : Bool := false
  /-- R360: waiting FIFO of requesters (links 0–63, DUT ports 64–79), at most 64; reset empty. -/
  fifo : List Nat := []
  /-- R360: requesters that found the FIFO full and retry; reset empty. -/
  late : List Nat := []
  /-- R359: handles whose free waits for room in the full cache, oldest first; reset none. -/
  waitFree : List W32 := []
  /-- R361: handles freed while the box office is off, on their way to the pool manager, oldest first; reset none. -/
  toPm : List W32 := []
  /-- R40: the handle driven last on `pm_free_*`; at rest none. -/
  lastFree : Option W32 := none
  deriving DecidableEq, Repr

/-- A handle that a master holds through BOX_ALLOC (R362, R363). -/
structure Held362 where
  master : Nat
  handle : W32
  pool   : Nat
  /-- R363: freed by its master and waiting for room. -/
  returning : Bool
  deriving DecidableEq, Repr

/-- The box office (R355–R363, R380). -/
structure Box where
  /-- R380 BOX_CFG.EN; reset 0. -/
  en : Bool := false
  /-- R380 BOX_CFG.RETRY, 16 bits; reset 0x1000. -/
  retry : W16 := 0x1000
  /-- R380 FILLED, 8 bits; reset 0. -/
  filled : W8 := 0
  /-- R380 EMPTY, 8 bits, W1C; reset 0. -/
  empty : W8 := 0
  /-- R380 ALLOCFULL, W1C; reset 0. -/
  allocFull : Bool := false
  /-- R380 RETSTALL, W1C; reset 0. -/
  retStall : Bool := false
  /-- R380 CFGERR, W1C; reset 0. -/
  cfgErr : Bool := false
  /-- R380 DRAINING; reset 0. -/
  draining : Bool := false
  /-- R380: pools POOL0–POOL7; reset values. -/
  pool : Tab Pool := []
  /-- R362: handles held by masters, at most 4,096; reset none. -/
  held : List Held362 := []
  deriving DecidableEq, Repr

/-- A delivery-queue entry (R364). -/
structure DqEnt where
  handle : W32
  seq    : W32
  len    : Nat
  od     : Nat
  err    : Bool
  chain  : Bool
  chidx  : Nat
  pool   : Nat
  tb     : W64
  /-- R384: job of the entry's write to the ring. -/
  job    : Nat
  deriving DecidableEq, Repr

/-- A packet in a DUT port's transmit store (R365). -/
structure TxPkt where
  ent  : DqEnt
  data : List W8
  err  : Bool
  /-- R365: only the first segment's handle is freed (its chain record could not be read). -/
  lost : Bool
  /-- R89, R365: first dc in which every beat is staged and visible in DCLKn. -/
  dc   : W64
  deriving DecidableEq, Repr

/-- Modes of a DUT port (R381). -/
inductive DpMode where
  | plain
  | record
  | replay
  deriving DecidableEq, Repr

/-- A DUT port (R364–R381). -/
structure Dp where
  /-- R40: level of `dp_rst_n`; at reset 1 (log 3). -/
  rstN : Bool := true
  /-- R381 DP_CFG, 64 bits; reset HOLD_LEAD 8. -/
  cfg : W64 := 0x800
  /-- R381 DP_CTL.EN; reset 0. -/
  en : Bool := false
  /-- R381 DP_STAT.CLK_RUN; reset 0. -/
  clkRun : Bool := false
  /-- R381 DP_STAT.HOLD: level of `dut_hold_req`; reset 0. -/
  hold : Bool := false
  /-- R381 DP_STAT.MODE; reset PLAIN. -/
  mode : DpMode := .plain
  /-- R373: the port records (RECORD started with the prompt book in use); reset 0. -/
  recording : Bool := false
  /-- R381 DIVERGE, W1C; reset 0. -/
  diverge : Bool := false
  /-- R381 CFGERR, W1C; reset 0. -/
  cfgErr : Bool := false
  /-- R381 FAST; reset 0. -/
  fast : Bool := false
  /-- R381 DQFULL, W1C; reset 0. -/
  dqFull : Bool := false
  /-- R381 CLKCHG, 16 bits; reset 0. -/
  clkChg : W16 := 0
  /-- R370: the port's notice in the window and the level it reported; reset none. -/
  notice : Option (Nat × Bool) := none
  /-- R381 DP_DC, 64 bits; reset 0. -/
  dc : W64 := 0
  /-- R372: timebase at the last beat's transfer on `dp_rx_*`; reset 0. -/
  rxTb : W64 := 0
  /-- R381 DP_DQ_BASE, 64 bits; reset LOG2N 10. -/
  dqBase : W64 := 0x000A000000000000
  /-- R364: delivery queue, oldest first; reset empty. -/
  dq : List DqEnt := []
  /-- R364: entries written to the ring, free-running; reset 0. -/
  dqWr : W32 := 0
  /-- R365: packets in the transmit store, oldest first; reset none. -/
  tx : List TxPkt := []
  /-- R365: the first packet of `tx` is being presented: next beat, dc of its SOP presentation; reset none. -/
  pres : Option (Nat × W64) := none
  /-- R40: the beat accepted last on `dp_tx_data`, `dp_tx_sb`; at rest none. -/
  lastTx : Option (List W8 × W16) := none
  /-- R366: bytes of the packet being received, and dc of its SOP; reset none. -/
  rx : Option (List W8 × W64) := none
  /-- R358: the packet being received has been cut; reset 0. -/
  rxTrunc : Bool := false
  /-- R368: the packet being received is discarded up to its EOP; reset 0. -/
  rxDrop : Bool := false
  /-- R366: received packets on their way to the usher; reset none. -/
  inq : Inq := {}
  /-- R68: dc of the latest beat transferred in each direction; reset 0. -/
  txDc : W64 := 0
  rxDc : W64 := 0
  /-- R373, R374: domains that have fed the port since the usher window was cleared, ascending; reset none. -/
  fed : List Nat := []
  /-- R367: condition (1–5 in the table's order) of the latest hold, and the dc up to which it makes no decision; reset
  none. -/
  cause : Nat := 0
  grace : Option (Nat × Nat) := none
  /-- R373: the 8-entry crossing queue of prompt-book entries; reset none. -/
  pbQ : List PbEntry := []
  /-- R373: event 0x5013 has been logged; reset 0. -/
  pbFullLog : Bool := false
  /-- R375: transmit entries still to be replayed; reset none. -/
  rpTx : List (W32 × PbEntry) := []
  /-- R377: receive entries still to be compared; reset none. -/
  rpRx : List (W32 × PbEntry) := []
  /-- R375: transmit entries whose packet has retired into the delivery queue and is not yet delivered; reset 0. -/
  rpRet : Nat := 0
  /-- R376: dc s of the next transmit entry has passed without its packet; reset 0. -/
  rpLate : Bool := false
  /-- R376: events 0x5020 and 0x5021 have been logged in this arm; reset 0. -/
  rpLogTx : Bool := false
  rpLogRx : Bool := false
  /-- R371: rates of the latest samples in Mb/s, newest first, at most 8; reset none. -/
  samples : List Nat := []
  /-- R371: open sample: dc counted, bytes accepted, timebase at its first dc; reset none. -/
  smp : Option (Nat × Nat × W64) := none
  /-- R381 DP_RATE_FLOOR, 32 bits; reset 1,000. -/
  floor : W32 := 1000
  /-- R381 DP_CNT.TX, 32 bits; reset 0. -/
  cntTx : W32 := 0
  /-- R381 DP_CNT.RX, 32 bits; reset 0. -/
  cntRx : W32 := 0
  /-- R381 RSTDROP, 16 bits; reset 0. -/
  rstDrop : W16 := 0
  /-- R381 DISDROP, 16 bits; reset 0. -/
  disDrop : W16 := 0
  /-- R381 TRUNC, 8 bits; reset 0. -/
  truncCnt : W8 := 0
  /-- R381 FRMERR, 8 bits; reset 0. -/
  frmErr : W8 := 0
  /-- R381 HOLDS, 16 bits; reset 0. -/
  holds : W16 := 0
  /-- R461: held for a checkpoint or restore; reset 0. -/
  ckHold : Bool := false
  deriving DecidableEq, Repr

/-- States of a DMA channel (R400). -/
inductive DcSt where
  | off
  | idle
  | run
  | pausing
  | paused
  | aborting
  | error
  deriving DecidableEq, Repr

/-- A register set of a DMA channel (R399, R405). -/
structure DSet where
  /-- R405 SRC, 48 bits; reset 0. -/
  src : W48 := 0
  /-- R405 DST, 48 bits; reset 0. -/
  dst : W48 := 0
  /-- R405 LEN, 24 bits; reset 0. -/
  len : Nat := 0
  /-- R405 FLAGS (BAR, HINT, FILL), 3 bits; reset 0. -/
  flags : BitVec 3 := 0
  /-- R405 PAT, 32 bits; reset 0. -/
  pat : W32 := 0
  deriving DecidableEq, Repr

/-- A DMA channel (R394–R405). -/
structure Dc where
  /-- R405 DC_CFG.MODE; reset 0 (ring). -/
  rehearsal : Bool := false
  /-- R405 DC_CFG.PRI, 2 bits; reset 0. -/
  pri : BitVec 2 := 0
  /-- R405 DC_CTL.EN; reset 0. -/
  en : Bool := false
  /-- R405 DC_CTL.PAUSE; reset 0. -/
  pause : Bool := false
  /-- R405 STATE; reset OFF. -/
  st : DcSt := .off
  /-- R405 SHVALID; reset 0. -/
  shValid : Bool := false
  /-- R405 DONE, W1C; reset 0. -/
  done : Bool := false
  /-- R405 ERR, W1C; reset 0. -/
  err : Bool := false
  /-- R405 SHWERR, W1C; reset 0. -/
  shwErr : Bool := false
  /-- R405 CFGERR, W1C; reset 0. -/
  cfgErr : Bool := false
  /-- R405 ERRCODE, 8 bits; reset 0. -/
  errCode : W8 := 0
  /-- R405 DBPEND; reset 0. -/
  dbPend : Bool := false
  /-- R405 DONECNT, 32 bits; reset 0. -/
  doneCnt : W32 := 0
  /-- R405 DC_RING.BASE, bits [47:5]; reset 0. -/
  ringBase : W48 := 0
  /-- R405 DC_RING.LOG2N, 5 bits; reset 2. -/
  log2 : BitVec 5 := 2
  /-- R405 DC_RIDX.NEXT, 32 bits; reset 0. -/
  next : W32 := 0
  /-- R405 DC_ERRADDR, 48 bits; reset 0. -/
  errAddr : W48 := 0
  /-- R405 active set; reset 0. -/
  act : DSet := {}
  /-- R405 shadow set; reset 0. -/
  shd : DSet := {}
  /-- R396: STOP of the running descriptor; reset 0. -/
  stop : Bool := false
  /-- R397: a descriptor fetch is due; reset 0. -/
  fetch : Bool := false
  /-- R394: bytes staged, oldest first; reset empty. -/
  stage : List W8 := []
  /-- R394: bytes of the transfer whose read has been issued, and whose write has been issued; reset 0. -/
  rdPos : Nat := 0
  wrPos : Nat := 0
  /-- R394: outstanding data reads (job, bytes), in order; reset none. -/
  rdOut : List (Nat × Nat) := []
  /-- R394, R404: outstanding data writes (job, bytes, position), in order; a write of an earlier transfer stands with 0 bytes
  and its address; reset none. -/
  wrOut : List (Nat × Nat × Nat) := []
  /-- R402, R404: bytes of the transfer written and acknowledged without error, in order; reset 0. -/
  acked : Nat := 0
  /-- R400: the active set holds a transfer that has not completed; reset 0. -/
  loaded : Bool := false
  /-- R401: error code and address of a failed request, not yet acted on; reset none. -/
  bad : Option (W8 × W48) := none
  /-- R401: a data write of the transfer has failed, so later ones do not count; reset 0. -/
  wrBad : Bool := false
  /-- R400: in ERROR, outstanding responses are still awaited; reset 0. -/
  errOpen : Bool := false
  deriving DecidableEq, Repr

/-- An operation in an atomic unit's queue (R407, R196, R419). -/
structure AuOp where
  /-- Master ID; 0xF00 is the host interface. -/
  master : Nat
  /-- fn of R196; 8: an entry of the walk of R416, whose recorded owner is `x`. -/
  fn     : Nat
  addr   : W48
  x      : W64
  y      : W64
  /-- The model's number of the access (log 10). -/
  job    : Nat
  deriving DecidableEq, Repr

/-- What an atomic unit answers (R196, R411): the old word, the new T, and the fault its response brings. -/
structure AuAns where
  job   : Nat
  old   : W64
  t     : Bool
  fault : Option W8
  deriving DecidableEq, Repr

/-- A line an atomic unit holds (R409): 64 bytes. -/
structure AuLine where
  data  : List W8
  dirty : Bool
  /-- R384: master ID of the last operation on the line. -/
  last  : Nat
  deriving DecidableEq, Repr

/-- An atomic unit (R407–R420). -/
structure Au where
  /-- R409: lines held by line number (address ÷ 64), at most 64; reset none. -/
  lines : Tab (Option AuLine) := []
  /-- R409: lines whose fill has been sent, with its job; reset none. -/
  fills : List (Nat × Nat) := []
  /-- R409: lines whose write-back is not yet acknowledged, with its job; reset none. -/
  wbs : List (Nat × Nat) := []
  /-- R407: queued operations in order of arrival; reset none. -/
  q : List AuOp := []
  /-- R415: holdings table, (word address, owner), at most 4,096; reset none. -/
  holdings : List (Nat × Nat) := []
  /-- R417: watch table, (word address, master ID), at most 4,096; reset none. -/
  watches : List (Nat × Nat) := []
  /-- R420 WFULL, W1C; reset 0. -/
  wfull : Bool := false
  /-- R420 HFULL, W1C; reset 0. -/
  hfull : Bool := false
  /-- R420 WALKSKIP, W1C; reset 0. -/
  walkSkip : Bool := false
  /-- R420 AU_CNT.OPS, 32 bits; reset 0. -/
  ops : W32 := 0
  /-- R420 AU_CNT.FAILS, 32 bits; reset 0. -/
  fails : W32 := 0
  deriving DecidableEq, Repr

/-- The host's compare-and-swap interface (R419, R420). -/
structure Hcas where
  /-- R420 AU_HADDR, 48 bits; reset 0. -/
  addr : W48 := 0
  /-- R420 AU_HCMP, 64 bits; reset 0. -/
  cmp : W64 := 0
  /-- R420 AU_HNEW, 64 bits; reset 0. -/
  new : W64 := 0
  /-- R420 AU_HOLD, 64 bits; reset 0. -/
  old : W64 := 0
  /-- R420 AU_HSTAT.BUSY; reset 0. -/
  busy : Bool := false
  /-- R420 AU_HSTAT.T; reset 0. -/
  t : Bool := false
  /-- R420 AU_HSTAT.ERR, W1C; reset 0. -/
  err : Bool := false
  /-- R420 AU_HSTAT.CODE, 8 bits; reset 0. -/
  code : W8 := 0
  deriving DecidableEq, Repr

end Sys2Proof.Machine
end

