-- ==== Sys2Proof/Machine/PartsPin.lean ====
section
/-! DEFINITION. State of the timebase, the pins and the pin banks with their sequencers (spec/07, 08, 13). A field's
docstring gives its rule and its reset value. -/

namespace Sys2Proof.Machine

/-- The timebase (R249–R256, R499). -/
structure Tb where
  /-- R249 TB_NOW, 64 bits; reset 0. -/
  now : W64 := 0
  /-- R249 sub-tick accumulator, 32 bits; reset 0. -/
  sub : W32 := 0
  /-- R102 step 5: the timebase runs; reset 0. -/
  running : Bool := false
  /-- R256 TB_RATE.CORR, 32 bits; kept by block reset, else the journaled value or 0. -/
  corr : W32 := 0
  /-- R251: the CORR that INC uses; it takes CORR at position 0 of the next lap; reset as CORR. -/
  corrLive : W32 := 0
  /-- R256 TB_CFG.DISC_EN; reset 1. -/
  discEn : Bool := true
  /-- R256 TB_CFG.PPS_EN; reset 0. -/
  ppsEn : Bool := false
  /-- R256 TB_STAT.UNSETTLED; reset 1. -/
  unsettled : Bool := true
  /-- R256 TB_STAT.HOLDOVER; reset 0. -/
  holdover : Bool := false
  /-- R256 TB_STAT.PPS_LOCK; reset 0. -/
  ppsLock : Bool := false
  /-- R256 TB_STAT.CLAMP, W1C; reset 0. -/
  clamp : Bool := false
  /-- R256 TB_STAT.GAP, W1C; reset 0. -/
  gap : Bool := false
  /-- R251 k; SAMPLES shows it up to 255; reset 0. -/
  k : Nat := 0
  /-- R251 S in units of 2^-16 tick; reset 0. -/
  sAcc : Int := 0
  /-- R251 E in units of 2^-16 tick; reset 0. -/
  eAcc : Int := 0
  /-- R251 X in units of 2^-16 tick; reset 262,144 ticks. -/
  x : Int := 262144 * 65536
  /-- R251: value of the previous sample; reset none (no reference). -/
  ref : Option W64 := none
  /-- R256 TB_PPS.LAST, 64 bits; reset 0. -/
  pps : W64 := 0
  /-- R252: pulses seen since the last loss, up to 2; reset 0. -/
  ppsSeen : Nat := 0
  /-- R85: the loss of `pps_in` has been logged; reset 0. -/
  ppsLost : Bool := false
  /-- R254: CORR last journaled; reset the journaled value or 0. -/
  corrJrn : W32 := 0
  /-- R255: snapshots of the high half by reader (master ID); reset none. -/
  snap : Tab (Option W32) := []
  deriving DecidableEq, Repr

/-- A cue in a queue (R271–R273). -/
structure Cue where
  /-- Requested time, in ticks. -/
  t   : W64
  /-- Earliest instant at which it can fire (R271, R280, R294). -/
  min : W64
  act : BitVec 4
  /-- R282: the ec in which it reached its queue. -/
  ec  : Nat
  deriving DecidableEq, Repr

/-- A cue on its way to its pin's queue (R280, R294). -/
structure DueCue where
  /-- The ec in which it reaches the queue. -/
  ec   : Nat
  /-- R273: order among the cues of one ec: the number of the reflex rule, 4 the sequencer. -/
  rank : Nat
  pin  : Nat
  cue  : Cue
  deriving DecidableEq, Repr

/-- A capture entry (R276, R277). -/
structure Cap where
  t    : W64
  edge : BitVec 2
  gap  : Bool
  /-- R276: the first ec in which CAPRD and CAPR find it. -/
  vis  : Nat
  deriving DecidableEq, Repr

/-- A pin (R271–R282, R300, R303, R304). -/
structure Pin where
  /-- R282 PIN_STAT.OUT: level of `pin_out`; reset 0. -/
  out : Bool := false
  /-- R282 PIN_STAT.OE: level of `pin_oe`; reset 0. -/
  oe : Bool := false
  /-- R72: level of `pin_in`; reset 0. -/
  inp : Bool := false
  /-- R24, R282: level of `pin_in` at the end of the previous ec, and, synchronized, at the end of the ec before it, which is
  PIN_STAT.IN; reset 0. -/
  in1 : Bool := false
  sync : Bool := false
  /-- R72, R300: instant at which the latest edge of `pin_out` or `pin_oe` was placed, with the pin's trim; reset none. -/
  placed : Option W64 := none
  /-- R73: level of `pin_lpbk_req`; reset 0. -/
  lpbk : Bool := false
  /-- R273: unfired cues in time order, at most 16; reset empty. -/
  cueQ : List Cue := []
  /-- R276: capture queue, oldest first, at most 16; reset empty. -/
  capQ : List Cap := []
  /-- R282 PIN_CFG.CAPEDGE, 2 bits; reset 0. -/
  capEdge : BitVec 2 := 0
  /-- R282 PIN_STAT.LATE, W1C; reset 0. -/
  late : Bool := false
  /-- R282 PIN_STAT.FULL, W1C; reset 0. -/
  full : Bool := false
  /-- R282 PIN_STAT.OVR, W1C; reset 0. -/
  ovr : Bool := false
  /-- R282 PIN_STAT.DROP, 16 bits; reset 0. -/
  drop : W16 := 0
  /-- R282 PIN_STAT.CUEDROP, 16 bits; reset 0. -/
  cueDrop : W16 := 0
  /-- R278: the next capture entry is marked GAP; reset 0. -/
  gapNext : Bool := false
  /-- R273: instant of the previous fire; reset none. -/
  lastFire : Option W64 := none
  /-- R276: instant of the previous passed edge; reset none. -/
  lastEdge : Option W64 := none
  /-- R276: the detector is inside a filtered pulse; reset 0. -/
  filtered : Bool := false
  /-- R303: `pin_out` and `pin_oe` at pause entry; reset 0. -/
  keptOut : Bool := false
  keptOe : Bool := false
  /-- R304 PIN_TRIM, 8 bits signed; from the calibration set, reset 0. -/
  trim : W8 := 0
  deriving DecidableEq, Repr

/-- A reflex rule PB_RFXr (R280, R282). -/
structure Rfx where
  /-- R282 SRC, 3 bits; reset 0. -/
  src : BitVec 3 := 0
  /-- R282 EDGE, 2 bits; reset 0. -/
  edge : BitVec 2 := 0
  /-- R282 DST, 3 bits; reset 0. -/
  dst : BitVec 3 := 0
  /-- R282 ACT, 4 bits; reset 0. -/
  act : BitVec 4 := 0
  /-- R282 ARM; reset 0. -/
  arm : Bool := false
  /-- R282 ONESHOT; reset 0. -/
  oneshot : Bool := false
  /-- R282 DELAY, 8 bits; reset 0. -/
  delay : W8 := 0
  /-- R282 FIRED, 16 bits; reset 0. -/
  fired : W16 := 0
  deriving DecidableEq, Repr

/-- Sequencer states (R285). -/
inductive SqSt where
  | stopped
  | run
  | wait
  | trapped
  | paused
  | halt
  deriving DecidableEq, Repr

/-- What a sequencer in WAIT waits for (R293). -/
inductive SqWait where
  | ep
  /-- WAITN, WAITV: pc still to pass. -/
  | count (n : Nat)
  | cap (j : Nat)
  | mb (k : Nat)
  | room (j : Nat)
  | push (x : W16)
  | pull (d : Nat)
  deriving DecidableEq, Repr

/-- A stream ring (R297, R299). -/
structure Strm where
  /-- R299 ADDR, bits [47:6] of the ring address; reset 0. -/
  base : W48 := 0
  /-- R299 SIZE, 4 bits; reset 0. -/
  size : BitVec 4 := 0
  /-- R299 EN; reset 0. -/
  en : Bool := false
  /-- R299 IDX.WR, 32 bits; reset 0. -/
  wr : W32 := 0
  /-- R299 IDX.RD, 32 bits; reset 0. -/
  rd : W32 := 0
  /-- R297: the 64-word FIFO, oldest first; reset empty. -/
  fifo : List W16 := []
  /-- R297: the ec in which each word entered the outbound FIFO; reset empty. -/
  since : List Nat := []
  deriving DecidableEq, Repr

/-- What acts on a sequencer at the next pc boundary (R285, R302, R481). -/
inductive SqReq where
  | stop
  | restart
  | pause
  | halt
  deriving DecidableEq, Repr

/-- A pin sequencer (R283–R299, R481). -/
structure Sq where
  /-- R299 SEQ_STAT.STATE; reset STOPPED. -/
  st : SqSt := .stopped
  /-- R285: state kept while PAUSED or in HALT; reset STOPPED. -/
  kept : SqSt := .stopped
  /-- R285: what WAIT waits for; reset none. -/
  wait : Option SqWait := none
  /-- R283 program memory, 4,096 × 14 bits; reset 0. -/
  pm : Tab (BitVec 14) := []
  /-- R283 DM, 512 × 16 bits; reset 0. -/
  dm : Tab W16 := []
  /-- R283 V0–V7, 16 bits each; reset 0. -/
  v : Tab W16 := []
  /-- R283 LC, 16 bits; reset 0. -/
  lc : W16 := 0
  /-- R283 Z; reset 0. -/
  z : Bool := false
  /-- R283 C; reset 0. -/
  c : Bool := false
  /-- R283 T; reset 0. -/
  t : Bool := false
  /-- R283 PC, 12 bits; reset 0. -/
  pc : BitVec 12 := 0
  /-- R283 call stack, 12 bits each, top first, at most 4; reset empty. -/
  stack : List (BitVec 12) := []
  /-- R283 EP, 64 bits; reset 0. -/
  ep : W64 := 0
  /-- R283 CR.time, 64 bits; reset 0. -/
  crT : W64 := 0
  /-- R283 CR edge code, 3 bits; reset 0. -/
  crE : BitVec 3 := 0
  /-- R299 SEQ_CFG.ENTRY, 12 bits; reset 0. -/
  entry : BitVec 12 := 0
  /-- R299 SEQ_CFG.TRAPMARK; reset 0. -/
  trapMark : Bool := false
  /-- R299 SEQ_CFG.TRAPPIN, 3 bits; reset 0. -/
  trapPin : BitVec 3 := 0
  /-- R299 SEQ_STAT.DONE, W1C; reset 0. -/
  done : Bool := false
  /-- R299 SEQ_STAT.LATE, W1C; reset 0. -/
  late : Bool := false
  /-- R299 SEQ_STAT.PMWERR, W1C; reset 0. -/
  pmwErr : Bool := false
  /-- R299 SEQ_STAT.STRERR, W1C; reset 0. -/
  strErr : Bool := false
  /-- R299 SEQ_STAT.TCAUSE, 8 bits; reset 0. -/
  tcause : W8 := 0
  /-- R299 SEQ_STAT.TARG, 8 bits; reset 0. -/
  targ : W8 := 0
  /-- R481 DBG_SEQ.BPEN; reset 0. -/
  bpEn : Bool := false
  /-- R481 DBG_SEQ.BPADDR, 12 bits; reset 0. -/
  bpAddr : BitVec 12 := 0
  /-- R481: a STEP is in progress; reset 0. -/
  stepping : Bool := false
  /-- R481: the word at PC issues without matching the breakpoint again; reset 0. -/
  bpPass : Bool := false
  /-- R285: what waits for the next pc boundary, oldest first; reset none. -/
  req : List SqReq := []
  /-- R284: the latest pc in which no further word issues: one has, or the sequencer went on in it; reset none. -/
  lastPc : Option Nat := none
  /-- R287: words of DM that other parties have written in the present ec, with their values before it; reset none. -/
  dmEc : Tab (Option W16) := []
  /-- R287: words of DM that ST has written in the present ec; reset none. -/
  stEc : List Nat := []
  deriving DecidableEq, Repr

/-- Mailboxes of a sequencer (R296, R299). -/
structure Mbx where
  /-- R299 SEQ_MBIN W0–W3, 16 bits each; reset 0. -/
  mbin : Tab W16 := []
  /-- R299 SEQ_MBOUT W0–W3, 16 bits each; reset 0. -/
  mbout : Tab W16 := []
  /-- R299 INFULL, 4 bits; reset 0. -/
  inFull : BitVec 4 := 0
  /-- R299 OUTFULL, 4 bits, W1C; reset 0. -/
  outFull : BitVec 4 := 0
  /-- R299 INOVW, 4 bits, W1C; reset 0. -/
  inOvw : BitVec 4 := 0
  /-- R299 OUTOVW, 4 bits, W1C; reset 0. -/
  outOvw : BitVec 4 := 0
  /-- R296: MBIN words written in the present ec, with their value, INFULL and INOVW before it; reset none. -/
  inEc : Tab (Option (W16 × Bool × Bool)) := []
  /-- R12, R296: MBOUT words that MBW has written in the present ec, 4 bits; reset 0. -/
  outEc : BitVec 4 := 0
  deriving DecidableEq, Repr

/-- A pin bank (R280–R304). -/
structure Bank where
  /-- R282 PB_CUE_CFG.LATE_TRAP; reset 0. -/
  lateTrap : Bool := false
  /-- R282 PB_CUE_CFG.FULL_TRAP; reset 0. -/
  fullTrap : Bool := false
  /-- R280 reflex rules PB_RFX0–PB_RFX3; reset 0. -/
  rfx : Tab Rfx := []
  /-- R283 the sequencer. -/
  sq : Sq := {}
  /-- R296 the mailboxes. -/
  mbx : Mbx := {}
  /-- R297 the inbound stream STR_IN. -/
  sin : Strm := {}
  /-- R297 the outbound stream STR_OUT. -/
  sout : Strm := {}
  /-- R280, R294: cues of reflexes and of the sequencer that have not reached their queues yet; reset none. -/
  due : List DueCue := []
  /-- R82: `pin_oe` of a pin of the bank has been driven to 1, so the bank's pins have left their rest values; reset 0. -/
  driven : Bool := false
  /-- R304 PB_CAL_STAT.PAUSED; reset 0. -/
  paused : Bool := false
  /-- R304 PB_CAL_STAT.OUTRANGE, 8 bits; reset 0. -/
  outRange : W8 := 0
  /-- R301 linearity table of 16 entries; from the calibration set, reset 0 (linear). -/
  lin : Tab W16 := []
  deriving DecidableEq, Repr

end Sys2Proof.Machine
end

