-- ==== Sys2Proof/Machine/PartsPort.lean ====
section
/-! DEFINITION. State of the always-on wrapper, the host port, the memory ports, the clock monitors and the power control
(spec/01_architecture, 02_block_ports, 03_clocks_resets_power). A field's docstring gives its rule and its reset value;
"log n" is notes/assumptions/n. -/

namespace Sys2Proof.Machine

/-- Power states of the block (R100). -/
inductive Power where
  | off
  | aon
  | boot
  | ready
  | recovery
  deriving DecidableEq, Repr

/-- Power states of a physical engine (R101). -/
inductive PePower where
  | off
  | ramp
  | init
  | bist
  | on
  deriving DecidableEq, Repr

/-- A debug key slot of the wrapper's one-time-programmable cells (R473). -/
structure KeySlot where
  /-- R473: SHA-384 of the debug key; reset kept (0 DESIGN CHOICE log 2). -/
  digest : BitVec 384 := 0
  /-- R473: the slot holds a key; reset kept (0 DESIGN CHOICE log 2). -/
  used : Bool := false
  /-- R473: the slot failed its programming check; reset kept (0 DESIGN CHOICE log 2). -/
  bad : Bool := false
  deriving DecidableEq, Repr

/-- The always-on wrapper (R74–R81, R86, R93, R98, R100, R473). -/
structure Aon where
  /-- R98: VDD_AON in range; at reset 1 (log 3). -/
  vddAon : Bool := true
  /-- R40: level of `por_n`; at reset 0. -/
  porN : Bool := false
  /-- R40: level of `blk_rst_n`; at reset 1 (log 3). -/
  blkRstN : Bool := true
  /-- R80 AON_STAT.CORE_PWR: level of `core_pwr_ok`; reset 0. -/
  corePwrOk : Bool := false
  /-- R40: level of `blk_disable`; reset 0 (log 3). -/
  blkDisable : Bool := false
  /-- R81 AON_CTL.ISOLATE; reset 0. -/
  isolate : Bool := false
  /-- R86: the monitor's clock-loss reason 0x05 is latched; reset 0. -/
  clkLoss : Bool := false
  /-- R74: reasons 0x01, 0x03 and 0x02 whose level has gone and which last until the stage manager releases the host port; at
  reset 0x01 does. -/
  porDue : Bool := true
  pwrDue : Bool := false
  rstDue : Bool := false
  /-- R80 AON_STAT.REASON; reset 0x01. -/
  reason : W8 := 0x01
  /-- R80 AON_STAT.LAST_REASON; reset 0x01. -/
  lastReason : W8 := 0x01
  /-- R100: power state; at reset AON. -/
  power : Power := .aon
  /-- R86, R115: clock of a clock-loss curtain still to be logged as 0x1005; reset none. -/
  owedClk : Option Nat := none
  /-- R115: AON_STAT of a core power loss still to be logged as 0x1010; reset none. -/
  owedPwr : Option W64 := none
  /-- R115: curtain reason of a block reset still to be logged as 0x1011; reset none. -/
  owedRst : Option W8 := none
  /-- R91: a core power loss or power-on reset has happened since the last start-up (the holdings tables are gone, the
  rate correction comes from the journal); at reset 1. -/
  cold : Bool := true
  /-- R473: the four debug key slots; kept. -/
  keys : List KeySlot := [{}, {}, {}, {}]
  /-- R473: the KEYPROG result: done, good; reset 0. -/
  keyBusy : Bool := false
  /-- R473: slot being programmed by KEYPROG; reset 0. -/
  keySlot : Nat := 0
  /-- R473: digest being programmed by KEYPROG; reset 0. -/
  keyDig : BitVec 384 := 0
  deriving DecidableEq, Repr

/-- BLK_STAT (R112). -/
structure Blk where
  /-- R112 READY; reset 0. -/
  ready : Bool := false
  /-- R112 UNMAPPED, W1C; reset 0. -/
  unmapped : Bool := false
  /-- R112 RECOVERY; reset 0. -/
  recovery : Bool := false
  /-- R112 UNCAL; reset 0. -/
  uncal : Bool := false
  /-- R112 NOREP; reset 0. -/
  norep : Bool := false
  /-- R112 FIRST_USE; reset 0. -/
  firstUse : Bool := false
  /-- R112 FW_SLOT; reset 0. -/
  fwSlot : Bool := false
  /-- R112 DEGRADED; reset 0. -/
  degraded : Bool := false
  /-- R112 BOOT_STEP, 4 bits; reset 1. -/
  bootStep : BitVec 4 := 1
  /-- R112 SWING_FREE, 3 bits; reset 0. -/
  swingFree : BitVec 3 := 0
  /-- R82, R102: the stage manager has enabled the memory ports and the pool-manager port; reset 0. -/
  portsOn : Bool := false
  /-- R104: clocks whose failure step 5 of this start-up has logged, ascending; reset none. -/
  step5Log : List Nat := []
  /-- R112: READY's interrupt is raised (R102 step 8); reset 0. -/
  readyIrq : Bool := false
  /-- R1 BLK_ID.REV, 8 bits; hard-wired 0x21. -/
  rev : W8 := 0x21
  deriving DecidableEq, Repr

/-- The clock monitors (R85, R113). -/
structure Clk where
  /-- R113 CLK_MON_STAT.OUT, 32 bits; reset 0. -/
  out : W32 := 0
  /-- R113 CLK_MON_STAT.SEEN, 32 bits, W1C; reset 0. -/
  seen : W32 := 0
  /-- R85: nominal of ECLK in Hz; reset 0: none measured yet. -/
  nomE : Nat := 0
  /-- R85: nominal of FCLK in Hz; reset 0: none measured yet. -/
  nomF : Nat := 0
  /-- R85: latest measured frequency in Hz by clock ID; reset none. -/
  meas : Tab Nat := []
  deriving DecidableEq, Repr

/-- What the stage manager powers an engine up for (R101, R443, R456, R458). -/
inductive PeGoal where
  | none
  /-- ENGPWR: map it to the lowest unmapped logical engine. -/
  | map
  /-- ENGPWR with every logical engine mapped: a swing engine after its BIST. -/
  | spare
  /-- ENGINE_SWING or ENGINE_BIST in op slot i. -/
  | swing (i : Nat)
  | bist (i : Nat)
  deriving DecidableEq, Repr

/-- A physical engine's power control (R101, R114). -/
structure Pe where
  /-- R101: power state; reset OFF. -/
  st : PePower := .off
  /-- R101, R114: the engine failed its power-up or BIST; reset 0. -/
  failed : Bool := false
  /-- R101: BIST was requested with the power-up; reset 0. -/
  bistReq : Bool := false
  /-- R101: what the power-up is for; reset none. -/
  goal : PeGoal := .none
  deriving DecidableEq, Repr

/-- An accepted host request that has no response yet (R42, R43). -/
structure HReq where
  write  : Bool
  addr   : BitVec 24
  be     : W8
  wdata  : W64
  /-- R46: parity failed while PAR_EN was 1. -/
  parBad : Bool
  /-- R77, R78: the curtain responder answers it. -/
  curtain : Bool
  /-- R77: the block had accepted it before the curtain came. -/
  early : Bool
  deriving DecidableEq, Repr

/-- A response on the host port (R42–R46). -/
structure HRsp where
  rdata  : W64
  status : BitVec 2
  par    : Bool
  deriving DecidableEq, Repr

/-- The host port (R42–R50). -/
structure Hp where
  /-- R49 HP_CFG.PAR_EN; reset 0. -/
  parEn : Bool := false
  /-- R50 HP_STAT.PERR, W1C; reset 0. -/
  perr : Bool := false
  /-- R50 HP_STAT.TMO, W1C; reset 0. -/
  tmo : Bool := false
  /-- R50 HP_STAT.ERR_CNT, 16 bits; reset 0. -/
  errCnt : W16 := 0
  /-- R43: accepted requests not yet answered, oldest first, at most 8; reset none. -/
  q : List HReq := []
  /-- R393: job of the oldest request's aperture read; reset none. -/
  apJob : Option Nat := none
  /-- R40: the latest response driven on `h_rsp_*`; at rest none. -/
  rsp : Option HRsp := none
  deriving DecidableEq, Repr

/-- A request to a memory port (R52, R53): `n` bytes from offset `off` of external memory (R51). -/
structure MpReq where
  write : Bool
  off   : Nat
  n     : Nat
  /-- R53: write data, one byte for each byte written; empty for a read. -/
  data  : List W8
  /-- R53: byte enables of a host-aperture write; empty means all enabled. -/
  mask  : List Bool
  src   : W16
  qos   : BitVec 2
  /-- The model's number of the access the request belongs to (log 10). -/
  job   : Nat
  deriving DecidableEq, Repr

/-- How a memory request ended (R55, R57). -/
inductive MpSt where
  | okay
  | dataErr
  | decErr
  | timeout
  deriving DecidableEq, Repr

/-- A completed memory request that its master has not yet taken (log 10). -/
structure MpAns where
  job  : Nat
  off  : Nat
  n    : Nat
  st   : MpSt
  data : List W8
  deriving DecidableEq, Repr

/-- The fields that a port drives with a request (R40, R51, R52). -/
structure MpPins where
  /-- R51: port-local address, bits [47:35] and [5:0] at 0. -/
  addr : W48
  /-- Beats minus 1. -/
  len  : BitVec 6
  op   : BitVec 2
  src  : W16
  tag  : BitVec 11
  qos  : BitVec 2
  /-- `mp_req_par`; what it covers, the manual does not say (log 4). -/
  par  : Bool
  deriving DecidableEq, Repr

/-- A beat of write data (R53). -/
structure MpWd where
  data : List W8
  be   : W64
  last : Bool
  par  : W8
  deriving DecidableEq, Repr

/-- A memory port (R52–R60, R420). -/
structure Mp where
  /-- R59: requests in staging, oldest first, at most 512; reset none. -/
  stage : List MpReq := []
  /-- R21, R59: requests that wait to enter staging; reset none. -/
  wait : List MpReq := []
  /-- R52: accepted requests by tag (11 bits); reset none. -/
  out : Tab (Option MpReq) := []
  /-- R57: tags held after a timeout; reset none. -/
  stuck : List Nat := []
  /-- R60 PANIC: level of `mp_panic[m]`; reset 0. -/
  panic : Bool := false
  /-- R60 RSP_PERR, W1C; reset 0. -/
  rspPerr : Bool := false
  /-- R60 TAG_UNEXP, W1C; reset 0. -/
  tagUnexp : Bool := false
  /-- R420 MP_CNTm.REQS, 32 bits; reset 0. -/
  reqs : W32 := 0
  /-- R420 MP_CNTm.ERRRSP, 16 bits; reset 0. -/
  errRsp : W16 := 0
  /-- R420 MP_CNTm.TMOS, 16 bits; reset 0. -/
  tmos : W16 := 0
  /-- R40, R51, R52: the fields driven with the request presented last; at rest none. -/
  last : Option MpPins := none
  /-- R40, R53: the data beats of the write accepted last, as they go out; reset none. -/
  wd : List MpWd := []
  /-- R53, R76: tag of that write while it has no response; reset none. -/
  wdTag : Option Nat := none
  deriving DecidableEq, Repr

end Sys2Proof.Machine
end

