-- ==== Sys2Proof/Machine/PartsSm.lean ====
section
/-! DEFINITION. State of the log, the journal, the stage manager, the debug unit and the test access (spec/12, 13). A
field's docstring gives its rule and its reset value. -/

namespace Sys2Proof.Machine

/-- A log record (R427): timebase, number, code, data values. -/
structure LogRec where
  tb   : W64
  seq  : W32
  code : W16
  data : List Nat
  deriving DecidableEq, Repr

/-- The log (R115, R427, R428). MRAM contents survive every reset (R91). -/
structure LogSt where
  /-- R427: the log ring in MRAM, newest first, at most 260,096 records; kept (empty when formatted). -/
  ring : List LogRec := []
  /-- R427: number of the next record, 32 bits; kept (0 when formatted). -/
  seq : W32 := 0
  /-- R428: records that T1 holds and has not yet written to a unit, oldest first; reset none. -/
  buf : List LogRec := []
  /-- R115: events raised before the end of step 4, oldest first; reset none. -/
  early : List (W16 × List Nat) := []
  /-- R115: step 4 of start-up has ended; reset 0. -/
  opened : Bool := false
  deriving DecidableEq, Repr

/-- A journal record (R430). -/
inductive JRec where
  | config (item : W16) (val : List W8)
  | configDefault (item : W16) (key : Nat)
  | fwAct (slot : Nat) (version : W32)
  | fwInvalid (slot : Nat)
  | repAct (slot : Nat) (digest : BitVec 384)
  | repInvalid (slot : Nat)
  | tbRate (corr : W32)
  | calStage (source : W16) (page : Mem)
  | calDone
  | opStart (oph : W16) (opcode : W8) (cmd : List W8)
  | opEnd (oph : W16) (result : W8)
  | engRetire (p : Nat)
  | engReturn (p : Nat)
  | secverMin (v : W32)
  | swapCommit (oph : W16) (digest : BitVec 384) (slot : Nat)
  deriving DecidableEq, Repr

/-- A journal half in MRAM (R423, R429–R433). -/
structure JHalf where
  /-- R430: GEN of a valid HDR; kept (none: unformatted). -/
  hdr : Option Nat := none
  /-- R430: GEN of a FLIP whose image matches; kept (none). -/
  flip : Option Nat := none
  /-- R431: the records of the half in file order; kept (empty). -/
  recs : List JRec := []
  /-- R429: units in use; kept (0). -/
  units : Nat := 0
  /-- R431: a torn tail follows the records; kept (0). -/
  torn : Bool := false
  deriving DecidableEq, Repr

/-- The MRAM (R423, R424). -/
structure Mram where
  /-- R423: bytes written by units, by MRAM offset; the calibration page lies at 0x1000000; kept (unlisted bytes 0). -/
  bytes : Mem := []
  /-- R423: images in the firmware slots A and B; kept (none). -/
  fwA : Option Image := none
  fwB : Option Image := none
  /-- R423: images in the boot-repertory slots A and B; kept (none). -/
  repA : Option Image := none
  repB : Option Image := none
  /-- R423, R429: journal halves 0 and 1; kept. -/
  j0 : JHalf := {}
  j1 : JHalf := {}
  /-- R424: the latest unit write failed after its retries; reset 0. -/
  wrErr : Bool := false
  deriving DecidableEq, Repr

/-- A sensor's register SM_SENSi (R425, R426, R464). -/
structure Sens where
  /-- R464 VALUE, 16 bits; reset 0. -/
  value : W16 := 0
  /-- R464 WARN; reset 0. -/
  warn : Bool := false
  /-- R464 CRIT; reset 0. -/
  crit : Bool := false
  deriving DecidableEq, Repr

/-- States of a long operation (R445). -/
inductive OpSt where
  | running
  | intermission
  | cancelling
  | cancelled
  | done
  | failed
  deriving DecidableEq, Repr

/-- An op slot (R444–R446). -/
structure OpSlot where
  /-- R444: generation, 1–8,191; reset 0: never used. -/
  gen : Nat := 0
  /-- R445: state; reset DONE with generation 0. -/
  st : OpSt := .done
  /-- R438: the command's 64 bytes; reset none. -/
  cmd : List W8 := []
  /-- R445: suspend pending; reset 0. -/
  susp : Bool := false
  /-- R446: the commit point has passed; reset 0. -/
  committed : Bool := false
  /-- R442 PROGRESS and TOTAL; reset 0. -/
  prog : Nat := 0
  total : Nat := 0
  /-- R440: result of an ended operation; reset 0. -/
  result : W8 := 0
  /-- R439: DATA of the end completion, 24 bytes; reset none. -/
  data : List W8 := []
  /-- R437: the end completion waits for room in the completion ring; reset 0. -/
  owes : Bool := false
  /-- R455, R463: image the operation works on; reset none. -/
  img : Option Image := none
  /-- R442: timebase at which the operation began; reset 0. -/
  start : W64 := 0
  /-- R442: timebase at which its present wait began; reset 0. -/
  t0 : W64 := 0
  /-- R445, R455, R456, R461: step of the operation that comes next; reset 0. -/
  phase : Nat := 0
  /-- R442: what the operation has settled on: a slot, a physical engine, banks with clamped pins; reset 0. -/
  arg : Nat := 0
  deriving DecidableEq, Repr

/-- A configuration item set (R443). -/
structure CfgItem where
  item    : W16
  key     : Nat
  val     : List W8
  persist : Bool
  deriving DecidableEq, Repr

/-- The stage manager (R422–R464). -/
structure Sm where
  /-- R464 ALIVE; reset 0. -/
  alive : Bool := false
  /-- R464 RINGERR, W1C; reset 0. -/
  ringErr : Bool := false
  /-- R464 CPL, W1C; reset 0. -/
  cpl : Bool := false
  /-- R464 SENS, W1C; reset 0. -/
  sensBit : Bool := false
  /-- R464 ENGRPT, W1C; reset 0. -/
  engRpt : Bool := false
  /-- R464 HEARTBEAT, 32 bits; reset 0. -/
  heartbeat : W32 := 0
  /-- R464 SM_INTEN.EN, 4 bits; reset 0. -/
  intEn : BitVec 4 := 0
  /-- R464 SM_CMD_WR, 32 bits; reset 0. -/
  cmdWr : W32 := 0
  /-- R464 SM_CMD_RD, 32 bits; reset 0. -/
  cmdRd : W32 := 0
  /-- R464 SM_CPL_WR, 32 bits; reset 0. -/
  cplWr : W32 := 0
  /-- R464 SM_CPL_RD, 32 bits; reset 0. -/
  cplRd : W32 := 0
  /-- R437: command ring, 4,096 bytes by offset; reset 0. -/
  cmdRing : Mem := []
  /-- R437: completion ring, 2,048 bytes by offset; reset 0. -/
  cplRing : Mem := []
  /-- R464: SM_SENS0–SM_SENS39; reset 0. -/
  sens : Tab Sens := []
  /-- R444: op slots 0–7; reset never used. -/
  ops : Tab OpSlot := []
  /-- R444: finished slots, least recently finished first; reset 0–7 in order. -/
  freed : List Nat := [0, 1, 2, 3, 4, 5, 6, 7]
  /-- R443: configuration items in force; reset from the journal (none). -/
  cfg : List CfgItem := []
  /-- R450: SECVER_MIN in force, 32 bits; from the journal (0). -/
  secverMin : W32 := 0
  /-- R430, R458: retired physical engines; from the journal (none). -/
  retired : List Nat := []
  /-- R102: the firmware image running, version; reset 0. -/
  fwVersion : W32 := 0
  /-- R453: repertory digest, 384 bits; reset 0. -/
  digest : BitVec 384 := 0
  /-- R453, R455: repertory pages that live scripts occupy, each with the logical threads that the image of its code names;
  reset none. -/
  pages : List (Nat × List Nat) := []
  /-- R434: SOURCE of the calibration set in force, 16 bits; from the page (0). -/
  calSource : W16 := 0
  /-- R455: old code pages of a swap in which a thread still runs, each freed once none does; reset none. -/
  oldPages : List Nat := []
  /-- R452: the stage manager restarts onto new firmware; reset 0. -/
  restart : Bool := false
  /-- R461: the block is frozen; reset 0. -/
  frozen : Bool := false
  deriving DecidableEq, Repr

/-- The debug lock (R466–R470). -/
structure DbgLock where
  /-- R470 UNLOCKED; reset 0. -/
  unlocked : Bool := false
  /-- R470 SCOPE, 3 bits; reset 0. -/
  scope : BitVec 3 := 0
  /-- R470 KEYSLOT, 2 bits; reset 0. -/
  keySlot : BitVec 2 := 0
  /-- R470 BUSY; reset 0. -/
  busy : Bool := false
  /-- R470 LASTFAIL, 8 bits; reset 0. -/
  lastFail : W8 := 0
  /-- R470 FAILS, 8 bits; reset 0. -/
  fails : W8 := 0
  /-- R469: timebase at the end of the latest failed attempt; reset none. -/
  failTb : Option W64 := none
  /-- R470 DBG_CHAL, 64 bits; random: taken from START_UP's environment, 0 before (log 2). -/
  chal : W64 := 0
  /-- R470 DBG_TOKEN, 256 bytes; reset 0. -/
  token : Mem := []
  deriving DecidableEq, Repr

/-- An address breakpoint DBG_BPe_n (R479). -/
structure Bp where
  /-- R479 ADDR, bits [47:2]; reset 0. -/
  addr : W48 := 0
  /-- R479 THREAD, 5 bits; reset 0. -/
  thread : BitVec 5 := 0
  /-- R479 ANY; reset 0. -/
  any : Bool := false
  /-- R479 EN; reset 0. -/
  en : Bool := false
  deriving DecidableEq, Repr

/-- The test access port and the test wrapper (R471–R475). -/
structure Tap where
  /-- R471 TAP instruction register, 8 bits; Test-Logic-Reset loads BYPASS 0xFF. -/
  ir : W8 := 0xFF
  /-- R471: the data register captured last (BLKID, DBGACC, KEYPROG or bypass); reset 0. -/
  dr : Nat := 0
  /-- R472 DBGACC.DATA, 64 bits; reset 0. -/
  data : W64 := 0
  /-- R472 DBGACC.STATUS, 2 bits; reset 0. -/
  status : BitVec 2 := 0
  /-- R472 DBGACC.BUSY; reset 0. -/
  busy : Bool := false
  /-- R393, R472: job of an aperture read that DBGACC waits for; reset none. -/
  job : Option Nat := none
  /-- R473 KEYPROG REFUSED; reset 0. -/
  keyRefused : Bool := false
  /-- R473 KEYPROG FAIL; reset 0. -/
  keyFail : Bool := false
  /-- R474 wrapper instruction register, 6 bits; reset WS_BYPASS 0. -/
  wir : BitVec 6 := 0
  /-- R475: WS_EXTEST or WS_INTEST_SCAN has taken effect; reset 0. -/
  wirOn : Bool := false
  /-- R474 wrapper boundary register, 53,117 cells; reset 0 (absent: 0). -/
  cells : Tab Bool := []
  deriving DecidableEq, Repr

end Sys2Proof.Machine
end

