-- ==== Sys2Proof/Machine/State.lean ====
section
/-! DEFINITION. The machine's state as plain data, the two kinds of stop, and the state at reset. The parts' types stand in
the Machine/Parts files. Tables (`Tab`) list only the entries that differ from the default record, which holds the reset
values. -/

namespace Sys2Proof.Machine

/-- A fault would stop the machine. No command of this block ends in one: thread faults, traps and error flags are the
command's effect on the state, so the type has no constructor. -/
inductive Fault where
  deriving DecidableEq, Repr

/-- A refusal: the model gives the command no meaning. -/
inductive Refusal where
  /-- Raised by the dispatcher alone, for a command that has no meaning yet; safe: nothing can be proved about it. -/
  | notModelled (mnemonic : String)
  deriving DecidableEq, Repr

/-- What a checkpoint slot in external memory holds (R459, R460, R462). The model keeps here what CHECKPOINT wrote. -/
structure Ckpt where
  /-- R443, R459: base of the slot when it was written. -/
  base   : Nat
  /-- R460 GEN. -/
  gen    : Nat
  /-- R460 timebase at the freeze. -/
  tb     : W64
  /-- R460 repertory digest. -/
  digest : BitVec 384
  /-- R460 mask of mapped logical engines. -/
  mask   : List Nat
  /-- R459 local memory by logical engine, at e × 0x4_0000. -/
  lm     : Mem
  /-- R459 wings. -/
  wings  : Mem
  /-- R459 thread contexts by logical thread. -/
  thr    : Tab Thread
  /-- R459 engine state by logical engine. -/
  eng    : Tab Eng
  /-- R459 callboard endpoints. -/
  ce     : Tab Ce
  cb     : Cb
  /-- R459 usher and box office. -/
  ush    : Ush
  box    : Box
  /-- R459 DMA channels. -/
  dc     : Tab Dc
  /-- R459 pin banks and pins. -/
  bank   : Tab Bank
  pin    : Tab Pin
  /-- R459 atomic units: holdings and watch tables. -/
  au     : Tab Au
  /-- R459 lane groups, lanes, links and DUT ports. -/
  lg     : Tab Lg
  lane   : Tab Lane
  link   : Tab Link
  dp     : Tab Dp
  deriving DecidableEq, Repr

/-- The memory system's registers and the two lists by which the model ties requests to their masters (log 10). -/
structure MemSys where
  /-- R52–R60: memory ports MP0–MP7. -/
  mp : Tab Mp := []
  /-- R420 MP_TMO.US, 24 bits; reset 100. -/
  tmo : BitVec 24 := 100
  /-- R420 MP_HWIN.ERR, W1C; reset 0. -/
  hwErr : Bool := false
  /-- R420 MP_HWIN.WERR, W1C; reset 0. -/
  hwWerr : Bool := false
  /-- R420 MP_HWIN.BASE, bits [47:19]; reset 0. -/
  hwBase : W48 := 0
  /-- Completed requests that their masters have not yet taken, oldest first (log 10); reset none. -/
  fin : List MpAns := []
  /-- The model's next access number (log 10); reset 1. -/
  nextJob : Nat := 1
  deriving DecidableEq, Repr

/-- A byte of local memory written in the present ec (R33): its value before the ec, and whether the pipeline port wrote it. -/
structure LmByte where
  addr : Nat
  old  : W8
  pipe : Bool
  deriving DecidableEq, Repr

/-- The on-chip memories (R138, R388, R391, R392). -/
structure Rams where
  /-- R30: local memory of physical engine p at p × 0x4_0000; zeroed at start-up, reset 0. -/
  lm : Mem := []
  /-- R388: the wings, 32 MiB; zeroed at start-up, reset 0. -/
  wings : Mem := []
  /-- R160, R392: the repertory store, 16 MiB; zeroed at start-up, reset 0. -/
  rep : Mem := []
  /-- R33: bytes of local memory written in the present ec, with their values before it; reset none. -/
  lmEc : List LmByte := []
  /-- R391: 64-bit words in uncorrectable error, by word number, ascending; reset none. -/
  lmBad : List Nat := []
  wingsBad : List Nat := []
  repBad : List Nat := []
  /-- R420 RS_WP0–RS_WP63, 64 bits each; reset 0. -/
  rsWp : Tab W64 := []
  deriving DecidableEq, Repr

/-- The engines (R116–R248). -/
structure Engines where
  /-- R101, R114: power of physical engines PE0–PE67; reset OFF. -/
  pe : Tab Pe := []
  /-- R29, R106: the mapping table, physical engine of each logical engine; reset 0x7F: none (log 2). -/
  emap : Tab Nat := []
  /-- R153: threads, by physical engine × 32 + thread; reset values. -/
  thr : Tab Thread := []
  /-- R116: engine control pages by physical engine; reset values. -/
  eng : Tab Eng := []
  /-- R138: instruction caches by physical engine; reset empty. -/
  ic : Tab Icache := []
  /-- R225: callboard endpoints by address; reset values. -/
  ce : Tab Ce := []
  /-- R242–R245: callboard-wide state; reset values. -/
  cb : Cb := {}
  deriving DecidableEq, Repr

/-- Lanes, usher, box office, DUT ports (R305–R382). -/
structure Traffic where
  /-- R339: lanes LN0–LN63; reset values. -/
  lane : Tab Lane := []
  /-- R312: links by first lane; reset values. -/
  link : Tab Link := []
  /-- R336: lane groups LG0–LG7; reset values. -/
  lg : Tab Lg := []
  /-- R342: the usher. -/
  ush : Ush := {}
  /-- R355: the box office. -/
  box : Box := {}
  /-- R364: DUT ports DP0–DP15; reset values. -/
  dp : Tab Dp := []
  deriving DecidableEq, Repr

/-- DMA and atomic units (R394–R421). -/
structure Movers where
  /-- R394: DMA channels DC0–DC63; reset values. -/
  dc : Tab Dc := []
  /-- R395: the channel that had the latest read slot, and write slot, of each PRI; reset 63 (DESIGN CHOICE log 2). -/
  rdTurn : Tab Nat := []
  wrTurn : Tab Nat := []
  /-- R406 DMA_DONEMAP, 64 bits, W1C; reset 0. -/
  doneMap : W64 := 0
  /-- R406 DMA_ERRMAP, 64 bits, W1C; reset 0. -/
  errMap : W64 := 0
  /-- R407: atomic units 0–8; reset values. -/
  au : Tab Au := []
  /-- R407: answers that their threads have not yet taken, oldest first; reset none. -/
  auFin : List AuAns := []
  /-- R419: the host's compare-and-swap interface. -/
  hcas : Hcas := {}
  deriving DecidableEq, Repr

/-- Log, MRAM, stage manager, debug and test (R422–R481). -/
structure Manage where
  log  : LogSt := {}
  mram : Mram := {}
  sm   : Sm := {}
  lock : DbgLock := {}
  /-- R479: DBG_BPe_n by e × 4 + n; reset 0. -/
  bp   : Tab Bp := []
  tap  : Tap := {}
  /-- R459: checkpoint slots A and B; kept (none). -/
  ckA  : Option Ckpt := none
  ckB  : Option Ckpt := none
  deriving DecidableEq, Repr

/-- The whole block, and the queue of waiting commands. -/
structure State where
  /-- The commands that wait, first in, first out. -/
  pending : List Instr := []
  /-- The model's own counter of free values used (log 4); reset 0 DESIGN CHOICE. -/
  fresh : Nat := 0
  /-- R116: number of the present ec, counted from the lap origin; reset 0. -/
  ec : Nat := 0
  /-- How far the present ec has come: its rows are on offer (0), its words are too (1) (log 9); reset 0. -/
  phase : Nat := 0
  /-- R116 number of the present lap, counted from the lap origin; BILL_STAT.LAP (R129) shows one more, mod 2^32; reset 0. -/
  lap : Nat := 0
  aon : Aon := {}
  blk : Blk := {}
  clk : Clk := {}
  hp  : Hp := {}
  ms  : MemSys := {}
  ram : Rams := {}
  tb  : Tb := {}
  en  : Engines := {}
  /-- R271: pins PIN0–PIN255; reset values. -/
  pin : Tab Pin := []
  /-- R283: pin banks PB0–PB31; reset values. -/
  bank : Tab Bank := []
  tr  : Traffic := {}
  mv  : Movers := {}
  mg  : Manage := {}
  deriving DecidableEq, Repr

/-- The block as `por_n` low leaves it (R74, R80, R91, R100): behind the curtain with reason 0x01, power state AON, every
field at its reset value, memories, tables and queues empty. -/
def State.reset : State := {}

end Sys2Proof.Machine
end

