-- ==== Sys2Proof/Machine/Tables.lean ====
section
/-! DEFINITION. Sparse tables and byte memories in their canonical form, and the byte-order and bit helpers. -/

namespace Sys2Proof.Machine

/-- The entry of key `k`; the default where none is listed. -/
def tget {α : Type} (d : α) : Tab α → Nat → α
  | [], _ => d
  | (k', v) :: t, k => if k = k' then v else tget d t k

/-- The table without the entry of `k`. -/
def tdel {α : Type} : Tab α → Nat → Tab α
  | [], _ => []
  | (k', v) :: t, k => if k' = k then tdel t k else (k', v) :: tdel t k

/-- Inserts an entry in key order. -/
def tput {α : Type} (k : Nat) (v : α) : Tab α → Tab α
  | [] => [(k, v)]
  | (k', v') :: t => if k < k' then (k, v) :: (k', v') :: t else (k', v') :: tput k v t

/-- Sets the entry of `k`; the default value removes it, so that equal tables are equal lists. -/
def tset {α : Type} [DecidableEq α] (d : α) (t : Tab α) (k : Nat) (v : α) : Tab α :=
  if v = d then tdel t k else tput k v (tdel t k)

/-- A table with each entry rebuilt. -/
def tmap {α : Type} [DecidableEq α] (d : α) (f : α → α) : Tab α → Tab α
  | [] => []
  | (k, v) :: t => tset d (tmap d f t) k (f v)

/-- The canonical form: strictly rising keys and no default entry. -/
def twf {α : Type} [DecidableEq α] (d : α) : Tab α → Bool
  | [] => true
  | (k, v) :: t => decide (v ≠ d) && t.all (fun e => decide (k < e.1)) && twf d t

/-- The canonical form of a byte memory. -/
def Memory.wf (m : Mem) : Bool := twf 0 m

def mget (m : Mem) (a : Nat) : W8 := tget 0 m a

def mset (m : Mem) (a : Nat) (b : W8) : Mem := tset 0 m a b

/-- `n` bytes from address `a`. -/
def mread (m : Mem) (a : Nat) : Nat → List W8
  | 0 => []
  | n + 1 => mget m a :: mread m (a + 1) n

/-- Writes bytes from address `a` up. -/
def mwrite (m : Mem) (a : Nat) : List W8 → Mem
  | [] => m
  | b :: bs => mwrite (mset m a b) (a + 1) bs

/-- Little-endian value of bytes (R159). -/
def leNat : List W8 → Nat
  | [] => 0
  | b :: bs => b.toNat + 256 * leNat bs

/-- The `n` low bytes of a value, least significant first (R159). -/
def leBytes : Nat → Nat → List W8
  | 0, _ => []
  | n + 1, v => BitVec.ofNat 8 v :: leBytes n (v / 256)

/-- Bits hi..lo of a value. -/
def bits (v hi lo : Nat) : Nat := v / 2 ^ lo % 2 ^ (hi + 1 - lo)

/-- Bit i of a value. -/
def bitOf (v i : Nat) : Bool := decide (v / 2 ^ i % 2 = 1)

def b2n (b : Bool) : Nat := if b then 1 else 0

/-- Field of a 64-bit register: bits lo and up of `w` wide, as a number. -/
def fld (r : W64) (lo w : Nat) : Nat := r.toNat / 2 ^ lo % 2 ^ w

/-- Counter of `w` bits that stops at its largest value (R336, R380, R420). -/
def satInc {w : Nat} (x : BitVec w) : BitVec w := if x.toNat + 1 = 2 ^ w then x else x + 1

def satAdd {w : Nat} (x : BitVec w) (n : Nat) : BitVec w :=
  if x.toNat + n ≥ 2 ^ w then BitVec.ofNat w (2 ^ w - 1) else BitVec.ofNat w (x.toNat + n)

/-- Bit set and bit clear in a word. -/
def setBit {w : Nat} (x : BitVec w) (i : Nat) : BitVec w := x ||| BitVec.ofNat w (2 ^ i)

def clrBit {w : Nat} (x : BitVec w) (i : Nat) : BitVec w := x &&& ~~~ BitVec.ofNat w (2 ^ i)

/-- Even parity (R46): the parity bit that makes the count of ones even. -/
def parNat : Nat → Nat → Bool
  | 0, _ => false
  | n + 1, v => xor (decide (v % 2 = 1)) (parNat n (v / 2))

/-- Bytes of a list replaced from position `i`. -/
def splice (old : List W8) (i : Nat) (new : List W8) : List W8 :=
  old.take i ++ new ++ old.drop (i + new.length)

/-- The first index of a list whose element satisfies `p`. -/
def findIdx? {α : Type} (p : α → Bool) : List α → Nat → Option Nat
  | [], _ => none
  | a :: t, i => if p a then some i else findIdx? p t (i + 1)

/-- Removes the first element that satisfies `p`. -/
def eraseFirst {α : Type} (p : α → Bool) : List α → List α
  | [] => []
  | a :: t => if p a then t else a :: eraseFirst p t

/-- Inserts a number in an ascending list without repeats. -/
def insAsc (n : Nat) : List Nat → List Nat
  | [] => [n]
  | m :: t => if n < m then n :: m :: t else if n = m then m :: t else m :: insAsc n t

/-- Applies `f` for each number of a list in turn. -/
def foldNat {σ : Type} (f : σ → Nat → σ) (s : σ) : List Nat → σ
  | [] => s
  | n :: t => foldNat f (f s n) t

/-- Replaces element `i` of a list. -/
def setAt {α : Type} : List α → Nat → α → List α
  | [], _, _ => []
  | _ :: t, 0, v => v :: t
  | a :: t, i + 1, v => a :: setAt t i v

end Sys2Proof.Machine
end

