-- ==== Sys2Proof/Machine/Ops.lean ====
section
/-! DEFINITION. The named operations over the state: one home for each register, the log, free values, the timebase ahead,
event sources, and taking a thread fault. -/

namespace Sys2Proof.Machine

/-- What a meaning answers. -/
abbrev Out := Host.Outcome State Fault Refusal

/-- A command whose event's condition `b` holds changes the state by `f`; otherwise it changes nothing (log 1). -/
def act (b : Bool) (f : State → State) (s : State) : Out := .next (if b then f s else s)

/-! ### One home for each part -/

def gThr (s : State) (k : Nat) : Thread := tget {} s.en.thr k
def mThr (s : State) (k : Nat) (f : Thread → Thread) : State :=
  { s with en := { s.en with thr := tset {} s.en.thr k (f (gThr s k)) } }

def gEng (s : State) (p : Nat) : Eng := tget {} s.en.eng p
def mEng (s : State) (p : Nat) (f : Eng → Eng) : State :=
  { s with en := { s.en with eng := tset {} s.en.eng p (f (gEng s p)) } }

def gPe (s : State) (p : Nat) : Pe := tget {} s.en.pe p
def mPe (s : State) (p : Nat) (f : Pe → Pe) : State :=
  { s with en := { s.en with pe := tset {} s.en.pe p (f (gPe s p)) } }

def gIc (s : State) (p : Nat) : Icache := tget {} s.en.ic p
def mIc (s : State) (p : Nat) (f : Icache → Icache) : State :=
  { s with en := { s.en with ic := tset {} s.en.ic p (f (gIc s p)) } }

def gCe (s : State) (ep : Nat) : Ce := tget {} s.en.ce ep
def mCe (s : State) (ep : Nat) (f : Ce → Ce) : State :=
  { s with en := { s.en with ce := tset {} s.en.ce ep (f (gCe s ep)) } }

def mCb (s : State) (f : Cb → Cb) : State := { s with en := { s.en with cb := f s.en.cb } }

def gTmr (s : State) (p n : Nat) : Tmr := tget {} (gEng s p).tmr n
def mTmr (s : State) (p n : Nat) (f : Tmr → Tmr) : State :=
  mEng s p fun e => { e with tmr := tset {} e.tmr n (f (tget {} e.tmr n)) }

def gPin (s : State) (k : Nat) : Pin := tget {} s.pin k
def mPin (s : State) (k : Nat) (f : Pin → Pin) : State := { s with pin := tset {} s.pin k (f (gPin s k)) }

def gBank (s : State) (b : Nat) : Bank := tget {} s.bank b
def mBank (s : State) (b : Nat) (f : Bank → Bank) : State := { s with bank := tset {} s.bank b (f (gBank s b)) }
def mSq (s : State) (b : Nat) (f : Sq → Sq) : State := mBank s b fun x => { x with sq := f x.sq }

def gLane (s : State) (k : Nat) : Lane := tget {} s.tr.lane k
def mLane (s : State) (k : Nat) (f : Lane → Lane) : State :=
  { s with tr := { s.tr with lane := tset {} s.tr.lane k (f (gLane s k)) } }

def gLink (s : State) (k : Nat) : Link := tget {} s.tr.link k
def mLink (s : State) (k : Nat) (f : Link → Link) : State :=
  { s with tr := { s.tr with link := tset {} s.tr.link k (f (gLink s k)) } }

def gLg (s : State) (g : Nat) : Lg := tget {} s.tr.lg g
def mLg (s : State) (g : Nat) (f : Lg → Lg) : State :=
  { s with tr := { s.tr with lg := tset {} s.tr.lg g (f (gLg s g)) } }

def mUsh (s : State) (f : Ush → Ush) : State := { s with tr := { s.tr with ush := f s.tr.ush } }
def mBox (s : State) (f : Box → Box) : State := { s with tr := { s.tr with box := f s.tr.box } }

def gDom (s : State) (n : Nat) : Dom := tget {} s.tr.ush.dom n
def mDom (s : State) (n : Nat) (f : Dom → Dom) : State :=
  mUsh s fun u => { u with dom := tset {} u.dom n (f (tget {} u.dom n)) }

def gWin (s : State) (w : Nat) : Option Pkt := tget none s.tr.ush.win w
def sWin (s : State) (w : Nat) (x : Option Pkt) : State := mUsh s fun u => { u with win := tset none u.win w x }

def gPool (s : State) (p : Nat) : Pool := tget {} s.tr.box.pool p
def mPool (s : State) (p : Nat) (f : Pool → Pool) : State :=
  mBox s fun b => { b with pool := tset {} b.pool p (f (tget {} b.pool p)) }

def gDp (s : State) (n : Nat) : Dp := tget {} s.tr.dp n
def mDp (s : State) (n : Nat) (f : Dp → Dp) : State :=
  { s with tr := { s.tr with dp := tset {} s.tr.dp n (f (gDp s n)) } }

def gDc (s : State) (c : Nat) : Dc := tget {} s.mv.dc c
def mDc (s : State) (c : Nat) (f : Dc → Dc) : State :=
  { s with mv := { s.mv with dc := tset {} s.mv.dc c (f (gDc s c)) } }

def gAu (s : State) (u : Nat) : Au := tget {} s.mv.au u
def mAu (s : State) (u : Nat) (f : Au → Au) : State :=
  { s with mv := { s.mv with au := tset {} s.mv.au u (f (gAu s u)) } }

def mHcas (s : State) (f : Hcas → Hcas) : State := { s with mv := { s.mv with hcas := f s.mv.hcas } }

def gMp (s : State) (m : Nat) : Mp := tget {} s.ms.mp m
def mMp (s : State) (m : Nat) (f : Mp → Mp) : State :=
  { s with ms := { s.ms with mp := tset {} s.ms.mp m (f (gMp s m)) } }

def mLog (s : State) (f : LogSt → LogSt) : State := { s with mg := { s.mg with log := f s.mg.log } }
def mMram (s : State) (f : Mram → Mram) : State := { s with mg := { s.mg with mram := f s.mg.mram } }
def mSm (s : State) (f : Sm → Sm) : State := { s with mg := { s.mg with sm := f s.mg.sm } }
def mLock (s : State) (f : DbgLock → DbgLock) : State := { s with mg := { s.mg with lock := f s.mg.lock } }
def mTap (s : State) (f : Tap → Tap) : State := { s with mg := { s.mg with tap := f s.mg.tap } }
def gBp (s : State) (i : Nat) : Bp := tget {} s.mg.bp i
def gOp (s : State) (i : Nat) : OpSlot := tget {} s.mg.sm.ops i
def mOp (s : State) (i : Nat) (f : OpSlot → OpSlot) : State :=
  mSm s fun m => { m with ops := tset {} m.ops i (f (tget {} m.ops i)) }

def mAon (s : State) (f : Aon → Aon) : State := { s with aon := f s.aon }
def mBlk (s : State) (f : Blk → Blk) : State := { s with blk := f s.blk }
def mClk (s : State) (f : Clk → Clk) : State := { s with clk := f s.clk }
def mHp (s : State) (f : Hp → Hp) : State := { s with hp := f s.hp }
def mTb (s : State) (f : Tb → Tb) : State := { s with tb := f s.tb }
def mRam (s : State) (f : Rams → Rams) : State := { s with ram := f s.ram }

/-! ### The block as a whole -/

/-- The block is out from behind the curtain (R74): its inputs act. -/
def up (s : State) : Bool := decide (s.aon.reason = 0)

/-- `BLK_STAT.UNMAPPED` := 1 (R28). -/
def unmappedHit (s : State) : State := mBlk s fun b => { b with unmapped := true }

/-- Adds a record to those T1 holds. Events that carry the same timebase value take SEQ in ascending code (R483). -/
def logInsert (r : LogRec) : List LogRec → List LogRec
  | [] => [r]
  | x :: t => if x.tb = r.tb && decide (r.code.toNat < x.code.toNat) then
                { r with seq := x.seq } :: shift (x :: t) else x :: logInsert r t
where
  shift : List LogRec → List LogRec
    | [] => []
    | y :: t => { y with seq := y.seq + 1 } :: shift t

/-- Logs an event (R115, R427): before the end of step 4 it is held without a timebase value. -/
def logEv (s : State) (code : W16) (data : List Nat) : State :=
  if s.mg.log.opened then
    mLog s fun l => { l with
      buf := logInsert { tb := s.tb.now, seq := l.seq, code := code, data := data } l.buf, seq := l.seq + 1 }
  else mLog s fun l => { l with early := l.early ++ [(code, data)] }

/-- A fresh value that the manual leaves open (log 4). -/
def freeVal (s : State) : W64 := Config.free64 s.fresh
def freeBit (s : State) : Bool := Config.freeBool s.fresh
def useFree (s : State) : State := { s with fresh := s.fresh + 1 }

/-- n 64-bit free values as bytes. -/
def freeBytes (s : State) : Nat → List W8
  | 0 => []
  | n + 1 => freeBytes s n ++ leBytes 8 (Config.free64 (s.fresh + n)).toNat

/-! ### The timebase (R249, R250) -/

/-- INC in units of 2^-32 tick: 16 ticks and the signed rate correction. -/
def tbInc (t : Tb) : Nat := (16 * 2 ^ 32 + t.corrLive.toInt).toNat

/-- TB_e+n, the timebase value n ec ahead, with the present INC. -/
def tbAt (s : State) (n : Nat) : W64 :=
  BitVec.ofNat 64 ((s.tb.now.toNat * 2 ^ 32 + s.tb.sub.toNat + n * tbInc s.tb) / 2 ^ 32)

/-- The block's count of laps: one more at each position 0 since the lap origin (R129). -/
def lapCount (s : State) : Nat := if s.tb.running then s.lap + 1 else 0

/-! ### Engines and threads -/

/-- Physical engine of logical engine e; 0x7F: none (R106). -/
def physOf (s : State) (e : Nat) : Nat := tget 0x7F s.en.emap e

def isMapped (s : State) (e : Nat) : Bool := decide (physOf s e ≠ 0x7F)

/-- Key of logical global thread g: physical engine × 32 + thread. -/
def thrKey (s : State) (g : Nat) : Nat := physOf s (g / 32) * 32 + g % 32

/-- Logical engine that runs on physical engine p. -/
def logicalOf (s : State) (p : Nat) : Option Nat :=
  (s.en.emap.find? fun e => decide (e.2 = p)).map Prod.fst

/-- Logical global thread number of the thread with key k; threads of an engine that is not mapped count from 2048. -/
def gOf (s : State) (k : Nat) : Nat :=
  match logicalOf s (k / 32) with
  | some e => e * 32 + k % 32
  | none => 2048 + k

/-- A physical engine whose local memory answers (R29, R31, R101). -/
def peOn (s : State) (p : Nat) : Bool := decide ((gPe s p).st = .on)

/-- A supervisor thread (R169). -/
def isSupv (s : State) (k : Nat) : Bool := decide (k % 32 = 0) || (gThr s k).supv

/-- Live bill position n names thread t (R116, R121, R127). -/
def billByte (tab : Tab (Option W8)) (n : Nat) : W8 :=
  match tget none tab n with
  | some b => b
  | none => BitVec.ofNat 8 (n % 32)

/-- A bill byte as it is kept: a byte equal to the reset bill's is not listed. -/
def billSet (t : Tab (Option W8)) (n : Nat) (b : W8) : Tab (Option W8) :=
  if b = BitVec.ofNat 8 (n % 32) then tdel t n else tset none t n (some b)

def posThread (tab : Tab (Option W8)) (n : Nat) : Option Nat :=
  if bitOf (billByte tab n).toNat 7 then none else some ((billByte tab n).toNat % 32)

/-- Thread t owns a position of the live bill. -/
def ownsPos (e : Eng) (t : Nat) : Bool := (List.range 64).any fun n => decide (posThread e.live n = some t)

def isFixed (e : Eng) (t : Nat) : Bool := bitOf e.modeLive.toNat t

/-! ### Event sources (R215) -/

/-- Makes latched source `bit` pending at the thread with key k; sources 1 and 2 only at a prompter. -/
def latchEv (s : State) (k bit : Nat) : State :=
  if (bit = 1 || bit = 2) && k % 32 ≠ 0 then s else mThr s k fun t => { t with pend := setBit t.pend bit }

/-- Makes `bit` pending at logical thread g, when its engine is mapped. -/
def latchG (s : State) (g bit : Nat) : State :=
  if g < 2048 && isMapped s (g / 32) then latchEv s (thrKey s g) bit else s

/-- The receive side of an endpoint holds a word or an ABORT. -/
def rxReady (c : Ce) : Bool := !c.rxBuf.isEmpty || c.rxAbt.isSome

/-- All pending sources of the thread with key k, level sources included (R215). -/
def pendNow (s : State) (k : Nat) : W16 :=
  let t := gThr s k
  let e := gEng s (k / 32)
  let g := gOf s k
  let lvl (b : Bool) (i : Nat) (x : W16) : W16 := if b then setBit x i else x
  lvl (k % 32 = 0 && decide (e.fltmap.toNat / 2 ≠ 0)) 0 <|
  lvl ((gPin s t.evPin.toNat).capQ.any fun c => decide (c.vis ≤ s.ec + 1)) 3 <|
  lvl (rxReady (gCe s (g * 4))) 8 <|
  lvl (rxReady (gCe s (g * 4 + 1))) 9 <|
  lvl (rxReady (gCe s (g * 4 + 2))) 10 <|
  lvl (rxReady (gCe s (g * 4 + 3))) 11 <|
  lvl (!e.dq.isEmpty) 15 t.pend

/-! ### Abandoning work and taking a fault (R147, R150, R210, R211) -/

/-- A memory request of job j no longer has a master that waits for its answer (R147). -/
def dropJob (s : State) (j : Nat) : State :=
  let f (r : MpReq) : MpReq := if r.job = j then { r with job := 0 } else r
  { s with ms := { s.ms with
      mp := s.ms.mp.map fun e => (e.1, { e.2 with
        stage := e.2.stage.map f, wait := e.2.wait.map f, out := e.2.out.map fun o => (o.1, o.2.map f) })
      fin := s.ms.fin.filter fun a => decide (a.job ≠ j) } }

/-- A thread that takes a fault. -/
def faultThr (code : W8) (pc : W48) (t : Thread) : Thread :=
  { t with
    st := .faulted, waitK := none, curtain := false, fcode := code, r := { t.r with pc := pc }
    dbg := { t.dbg with stepping := false } }

/-- A fault in T1–T31 or in a prompter: FAULTED with its code and PC, the fault map, the log, and for a prompter the report
to the stage manager (R150, R210, R211). -/
def faultReport (s : State) (k : Nat) (code : W8) (pc : W48) : State :=
  let s1 := mThr s k (faultThr code pc)
  let s2 := mEng s1 (k / 32) fun e => { e with fltmap := setBit e.fltmap (k % 32) }
  if k % 32 = 0 then
    logEv (mSm s2 fun m => { m with engRpt := true }) 0x6002 [gOf s k / 32, code.toNat, pc.toNat]
  else logEv s2 0x6001 [gOf s k, code.toNat, pc.toNat]

/-- Waiting TAKEs of physical engine p receive packets in the order in which they wait (R347). The fuel is their number. -/
def serveTakers (p : Nat) : Nat → State → State
  | 0, s => s
  | n + 1, s =>
    match (gEng s p).takers, (gEng s p).dq with
    | t :: ts, w :: ws =>
      serveTakers p n (mThr (mEng s p fun e => { e with takers := ts, dq := ws }) (p * 32 + t) fun x => { x with
        held := match x.held with
          | some { op := .take r1 tr _, writes := wr } => some { op := .take r1 tr (some w), writes := wr }
          | h => h })
    | _, _ => s

def serveEng (s : State) (p : Nat) : State := serveTakers p (gEng s p).takers.length s

/-- A thread with nothing under way. -/
def idleThr (t : Thread) : Thread :=
  { t with held := none, park := none, loaded := [], owe := 0, long := none, entering := none }

/-- What the thread has under way is abandoned (R147): a held access, a long operation, dead slots, a park. A TAKE leaves the waiting order,
and a packet already handed to it goes back to the front of the dispatch queue (R347). -/
def abandon (s : State) (k : Nat) : State :=
  let s1 := match (gThr s k).held with
    | some h => match h.op with
      | .loadExt j _ _ _ => dropJob s j
      | .ctlLoad _ _ _ (some j) => dropJob s j
      | .atom _ _ _ _ _ j => { s with mv := { s.mv with auFin := s.mv.auFin.filter fun a => decide (a.job ≠ j) } }
      | .take _ _ (some w) =>
        serveEng (mThr (mEng s (k / 32) fun e => { e with dq := w :: e.dq }) k fun t => { t with held := none }) (k / 32)
      | .take _ _ none => mEng s (k / 32) fun e => { e with takers := e.takers.filter fun t => decide (t ≠ k % 32) }
      | _ => s
    | none => s
  mThr s1 k idleThr

/-- Taking a thread fault: the faulting word changes nothing, what is under way is abandoned, and the fault is reported. -/
def takeFault (s : State) (k : Nat) (code : W8) (pc : W48) : State := faultReport (abandon s k) k code pc

/-- A fault that arrives on the response of a posted access (R151, R203, R498). -/
def postedFault (s : State) (k : Nat) (code : W8) (pc : W48) : State :=
  match (gThr s k).st with
  | .run => takeFault s k code pc
  | .wait => takeFault s k code pc
  | _ => match (gThr s k).pendFault with
    | none => mThr s k fun t => { t with pendFault := some (code, pc) }
    | some _ => logEv s 0x6001 [gOf s k, code.toNat, pc.toNat]

/-- Return from HALT or FAULTED: a pending fault is taken before the first word issues (R203, R498). -/
def leaveHalt (s : State) (k : Nat) : State :=
  match (gThr s k).pendFault with
  | some (c, pc) => faultReport (mThr s k fun t => { t with pendFault := none }) k c pc
  | none => mThr s k fun t =>
      if t.curtain then { t with st := .wait, waitK := some .curtain } else { t with st := .run, waitK := none }

end Sys2Proof.Machine
end

