-- ==== Sys2Proof/Machine/Memory.lean ====
section
/-! DEFINITION. The memory system below the engine view (spec/01 R30, spec/02 R51–R59, spec/11): where an address leads, the
on-chip memories, requests to the memory ports, and the coherence of the atomic units' lines. -/

namespace Sys2Proof.Machine

/-- The ranges of the engine view (R30). -/
inductive Space where
  | own
  | mesh (p off : Nat)
  | wings (off : Nat)
  | ctl (off : Nat)
  | ext (off : Nat)
  | unmapped
  deriving DecidableEq, Repr

/-- Where an engine-view address leads (R30). -/
def spaceOf (a : Nat) : Space :=
  if a < 0x40000 then .own
  else if 0x10000000 ≤ a ∧ a < 0x11100000 then .mesh ((a - 0x10000000) / 0x40000) ((a - 0x10000000) % 0x40000)
  else if 0x20000000 ≤ a ∧ a < 0x22000000 then .wings (a - 0x20000000)
  else if 0x30000000 ≤ a ∧ a < 0x38000000 then .ctl (a - 0x30000000)
  else if 0x4000000000 ≤ a ∧ a < 0x8000000000 then .ext (a - 0x4000000000)
  else .unmapped

/-- Memory port of an offset of external memory (R51). -/
def portOf (off : Nat) : Nat := off / 256 % 8

/-- Port-local address of an offset of external memory (R51). -/
def localAddr (off : Nat) : Nat := off / 2048 * 256 + off % 256

/-- Atomic unit that serves an engine-view address: 0–7 external memory, 8 the wings (R407). -/
def auOf (a : Nat) : Nat :=
  match spaceOf a with
  | .ext off => portOf off
  | _ => 8

/-! ### ECC words (R391) -/

/-- Some word of [a, a+n) is in uncorrectable error. -/
def badHit (bad : List Nat) (a n : Nat) : Bool := bad.any fun w => decide (w * 8 < a + n ∧ a < w * 8 + 8)

/-- Words written in full leave their error. -/
def badClear (bad : List Nat) (a n : Nat) : List Nat := bad.filter fun w => !decide (a ≤ w * 8 ∧ w * 8 + 8 ≤ a + n)

/-! ### Local memory, wings -/

/-- What the other port of local memory has done in the present ec to the byte at a: the value before it (R33). -/
def lmOther (s : State) (pipe : Bool) (a : Nat) : Option W8 :=
  (s.ram.lmEc.find? fun e => decide (e.addr = a) && (e.pipe != pipe)).map LmByte.old

/-- The bytes as a port reads them: one that the other port has written in the present ec reads as it was before (R33). -/
def lmSeen (s : State) (pipe : Bool) (a : Nat) : List W8 → List W8
  | [] => []
  | b :: bs => (lmOther s pipe a).getD b :: lmSeen s pipe (a + 1) bs

/-- Reads local memory of physical engine p through the pipeline's port or the shared one; none: uncorrectable error. -/
def lmRead (s : State) (pipe : Bool) (p off n : Nat) : Option (List W8) :=
  if badHit s.ram.lmBad (p * 0x40000 + off) n then none
  else some (lmSeen s pipe (p * 0x40000 + off) (mread s.ram.lm (p * 0x40000 + off) n))

/-- The pipeline has written the word of the byte at a in the present ec, so its write remains (R33). -/
def lmKept (s : State) (a : Nat) : Bool := s.ram.lmEc.any fun e => e.pipe && decide (e.addr / 4 = a / 4)

/-- The record of the present ec with a write of the byte at a; the value before the ec stays. -/
def lmNote (pipe : Bool) (a : Nat) (old : W8) (l : List LmByte) : List LmByte :=
  match l.find? fun e => decide (e.addr = a) with
  | some e => { e with pipe := pipe } :: l.filter fun e => decide (e.addr ≠ a)
  | none => { addr := a, old := old, pipe := pipe } :: l

/-- One byte written through a port. -/
def lmByte (s : State) (pipe : Bool) (a : Nat) (b : W8) : State :=
  if !pipe && lmKept s a then s
  else mRam s fun r => { r with lm := mset r.lm a b, lmEc := lmNote pipe a (mget r.lm a) r.lmEc }

/-- Bytes written through a port, from address a up. -/
def lmBytes (s : State) (pipe : Bool) (a : Nat) : List W8 → State
  | [] => s
  | b :: bs => lmBytes (lmByte s pipe a b) pipe (a + 1) bs

/-- Writes local memory of physical engine p through the pipeline's port or the shared one (R33). -/
def lmWrite (s : State) (pipe : Bool) (p off : Nat) (bs : List W8) : State :=
  mRam (lmBytes s pipe (p * 0x40000 + off) bs) fun r => { r with
    lmBad := badClear r.lmBad (p * 0x40000 + off) bs.length }

/-- Byte of engine-view address a in a line that atomic unit u holds (R410). -/
def auByte (s : State) (u a : Nat) : Option W8 :=
  match tget none (gAu s u).lines (a / 64) with
  | some l => l.data[a % 64]?
  | none => none

/-- Every byte of [a, a+n) as the atomic unit's copies show it, where they hold the line. -/
def auOverlay (s : State) (u a : Nat) : List W8 → List W8
  | [] => []
  | b :: bs => (auByte s u a).getD b :: auOverlay s u (a + 1) bs

/-- A block master's write merged into the lines that unit u holds (R410). -/
def auMerge (s : State) (u a : Nat) : List W8 → State
  | [] => s
  | b :: bs =>
    let s1 := match tget none (gAu s u).lines (a / 64) with
      | some l => mAu s u fun x => { x with
          lines := tset none x.lines (a / 64) (some { l with data := setAt l.data (a % 64) b, dirty := true }) }
      | none => s
    auMerge s1 u (a + 1) bs

/-- The same under byte enables (R393). -/
def auMergeMask (s : State) (u a : Nat) : List W8 → List Bool → State
  | b :: bs, m :: ms => auMergeMask (if m then auMerge s u a [b] else s) u (a + 1) bs ms
  | _, _ => s

/-- Fires the watches of unit u on the words that [a, a+n) touches: each entry is removed and LOCKFREE becomes pending at
its thread (R417). -/
def fireWatches (s : State) (u a n : Nat) : State :=
  let hit (w : Nat × Nat) : Bool := decide (w.1 < a + n ∧ a < w.1 + 8)
  let ws := (gAu s u).watches.filter hit
  let s1 := mAu s u fun x => { x with watches := x.watches.filter fun w => !hit w }
  ws.foldl (fun acc w => latchG acc w.2 14) s1

def wingsBase : Nat := 0x20000000

/-- Bank of the wings that holds an offset (R388). -/
def wingsBank (off : Nat) : Nat := off / 64 % 16

/-- Words of the wings in uncorrectable error, without those of lines that the atomic unit holds (R391, R410). -/
def wingsBadSeen (s : State) : List Nat := s.ram.wingsBad.filter fun w => (auByte s 8 (wingsBase + w * 8)).isNone

/-- Reads the wings; none: uncorrectable error. -/
def wingsRead (s : State) (off n : Nat) : Option (List W8) :=
  if badHit (wingsBadSeen s) off n then none
  else some (auOverlay s 8 (wingsBase + off) (mread s.ram.wings off n))

def wingsWrite (s : State) (off : Nat) (bs : List W8) : State :=
  let s1 := mRam s fun r => { r with
    wings := mwrite r.wings off bs, wingsBad := badClear r.wingsBad off bs.length }
  fireWatches (auMerge s1 8 (wingsBase + off) bs) 8 (wingsBase + off) bs.length

/-- The repertory store, 32-bit word at byte address a; none: uncorrectable error (R391, R392). -/
def repWord (s : State) (a : Nat) : Option W32 :=
  if badHit s.ram.repBad a 4 then none else some (BitVec.ofNat 32 (leNat (mread s.ram.rep a 4)))

def repWrite (s : State) (a : Nat) (bs : List W8) : State :=
  mRam s fun r => { r with rep := mwrite r.rep a bs, repBad := badClear r.repBad a bs.length }

/-- Write protection of a repertory address, per 4 KiB page (R392). -/
def repProtected (s : State) (a : Nat) : Bool :=
  bitOf (tget 0 s.ram.rsWp (a / 4096 / 64)).toNat (a / 4096 % 64)

/-! ### Memory ports (R51–R59) -/

/-- 64-byte beats of a request (R52). -/
def mpBeats (r : MpReq) : Nat := (r.off % 64 + r.n + 63) / 64

/-- The fields driven with a request under a tag (R51, R52). What `mp_req_par` covers, the manual does not say (log 4). -/
def mpPins (par : Bool) (tag : Nat) (r : MpReq) : MpPins :=
  { addr := BitVec.ofNat 48 (localAddr r.off / 64 * 64), len := BitVec.ofNat 6 (mpBeats r - 1)
    op := if r.write then 1 else 0, src := r.src, tag := BitVec.ofNat 11 tag, qos := r.qos, par := par }

/-- The request writes the byte at offset `a` of external memory. -/
def wdEnabled (r : MpReq) (a : Nat) : Bool :=
  decide (r.off ≤ a ∧ a < r.off + r.n) && (r.mask.isEmpty || r.mask.getD (a - r.off) false)

/-- Even parity over each 64 bits of a beat (R53). -/
def wdPar (data : List W8) : W8 :=
  BitVec.ofNat 8 (foldNat (fun v i => v + b2n (parNat 64 (leNat ((data.drop (8 * i)).take 8))) * 2 ^ i) 0 (List.range 8))

/-- Data beat j of a write (R53). A byte that is not enabled shows a byte of `x`, which the manual leaves open (log 4). -/
def wdBeat (x : W64) (r : MpReq) (j : Nat) : MpWd :=
  let base := r.off / 64 * 64 + 64 * j
  let data := (List.range 64).map fun i =>
    if wdEnabled r (base + i) then r.data.getD (base + i - r.off) 0 else x.extractLsb' (8 * (i % 8)) 8
  { data := data
    be := BitVec.ofNat 64 (foldNat (fun v i => v + b2n (wdEnabled r (base + i)) * 2 ^ i) 0 (List.range 64))
    last := decide (j + 1 = mpBeats r), par := wdPar data }

/-- The port accepts a request under a tag: its fields, and a write's data beats, are driven (R52, R53). -/
def mpDrive (x : W64) (par : Bool) (tag : Nat) (r : MpReq) (p : Mp) : Mp :=
  { p with
    reqs := satInc p.reqs, last := some (mpPins par tag r)
    wd := if r.write then (List.range (mpBeats r)).map (wdBeat x r) else p.wd
    wdTag := if r.write then some tag else p.wdTag }

/-- The write whose data went out last has its response. -/
def wdDone (tag : Nat) (p : Mp) : Mp := if p.wdTag = some tag then { p with wdTag := none } else p

/-- A new access number. -/
def newJob (s : State) : State := { s with ms := { s.ms with nextJob := s.ms.nextJob + 1 } }

/-- `mp_panic` follows the staging occupancy (R59). -/
def panicUpd (m : Mp) : Mp :=
  if m.stage.length > 384 then { m with panic := true }
  else if m.stage.length ≤ 256 then { m with panic := false } else m

/-- A request enters the port's staging, or waits for room in it (R59, R390). -/
def stageReq (s : State) (r : MpReq) : State :=
  mMp s (portOf r.off) fun m =>
    if m.stage.length < 512 && m.wait.isEmpty then panicUpd { m with stage := m.stage ++ [r] }
    else { m with wait := m.wait ++ [r] }

/-- Requests that wait enter staging as room appears. -/
def stageRefill (m : Mp) : Mp :=
  panicUpd { m with
    stage := m.stage ++ m.wait.take (512 - m.stage.length), wait := m.wait.drop (512 - m.stage.length) }

/-- An answer waits for its master; access 0 has none. -/
def finish (s : State) (a : MpAns) : State :=
  if a.job = 0 then s else { s with ms := { s.ms with fin := s.ms.fin ++ [a] } }

/-- All lines of [a, a+n) are held by their atomic unit. -/
def auHolds (s : State) (u a n : Nat) : Bool :=
  (List.range (n + 1)).all fun i => decide (i = n) || (auByte s u (a + i)).isSome

/-- The engine-view address of an offset of external memory. -/
def extBase : Nat := 0x4000000000

/-- One request, which stays inside a 256-byte piece. A line that an atomic unit holds answers it (R410); requests of the
atomic units themselves (stream 0xF) go to memory. -/
def mpOne (s : State) (r : MpReq) : State :=
  if r.src.toNat / 4096 = 15 then stageReq s r
  else
    let u := portOf r.off
    let a := extBase + r.off
    if r.write then
      let s1 := if r.mask.isEmpty then fireWatches (auMerge s u a r.data) u a r.n
        else if r.mask.any id then fireWatches (auMergeMask s u a r.data r.mask) u a r.n else s
      if auHolds s u a r.n then finish s1 { job := r.job, off := r.off, n := r.n, st := .okay, data := [] }
      else stageReq s1 r
    else if auHolds s u a r.n then
      finish s { job := r.job, off := r.off, n := r.n, st := .okay
                 data := auOverlay s u a (List.replicate r.n 0) }
    else stageReq s r

/-- A range of external memory as requests of at most one 256-byte piece each (R51, R394), all with one access number.
The fuel `k` is at least the number of pieces. -/
def mpRange (s : State) (write : Bool) (off n : Nat) (data : List W8) (src : W16) (qos : BitVec 2) (job : Nat) :
    Nat → State
  | 0 => s
  | k + 1 =>
    if n = 0 then s
    else
      let m := min n (256 - off % 256)
      let s1 := mpOne s { write := write, off := off, n := m, data := data.take m, mask := [], src := src
                          qos := qos, job := job }
      mpRange s1 write (off + m) (n - m) (data.drop m) src qos job k

/-- Reads or writes a range of external memory under a new access number, which `newJob` has made `s.ms.nextJob - 1`. -/
def mpRead (s : State) (off n : Nat) (src : W16) (qos : BitVec 2) (job : Nat) : State :=
  mpRange s false off n [] src qos job (n / 256 + 2)

def mpWrite (s : State) (off : Nat) (data : List W8) (src : W16) (qos : BitVec 2) (job : Nat) : State :=
  mpRange s true off data.length data src qos job (data.length / 256 + 2)

/-- Some request of the access is still staged or outstanding. -/
def jobOpen (s : State) (job : Nat) : Bool :=
  s.ms.mp.any fun e => e.2.stage.any (fun r => decide (r.job = job)) || e.2.wait.any (fun r => decide (r.job = job)) ||
    e.2.out.any fun o => match o.2 with
      | some r => decide (r.job = job)
      | none => false

/-- The answers of an access. -/
def jobAns (s : State) (job : Nat) : List MpAns := s.ms.fin.filter fun a => decide (a.job = job)

/-- The access has ended: none of its requests is open and its answers have come. -/
def jobDone (s : State) (job : Nat) : Bool := !jobOpen s job && !(jobAns s job).isEmpty

/-- How the whole access ended: the worst of its requests (R54), in the order of log 32 (DESIGN CHOICE). -/
def worst : List MpAns → MpSt
  | [] => .okay
  | a :: t => match a.st, worst t with
    | .timeout, _ => .timeout
    | _, .timeout => .timeout
    | .decErr, _ => .decErr
    | _, .decErr => .decErr
    | .dataErr, _ => .dataErr
    | _, x => x

/-- The data of an access in address order. -/
def insAns (a : MpAns) : List MpAns → List MpAns
  | [] => [a]
  | b :: t => if a.off ≤ b.off then a :: b :: t else b :: insAns a t

def jobData (l : List MpAns) : List W8 := ((l.foldr insAns []).map MpAns.data).flatten

/-- Takes the answers of an access away. -/
def takeJob (s : State) (job : Nat) : State :=
  { s with ms := { s.ms with fin := s.ms.fin.filter fun a => decide (a.job ≠ job) } }

/-- Thread fault of a memory outcome (R55, R57). -/
def stFault : MpSt → Option W8
  | .okay => none
  | .dataErr => some 0x06
  | .decErr => some 0x05
  | .timeout => some 0x05

/-- Source ID: stream and master (R37). -/
def srcId (stream master : Nat) : W16 := BitVec.ofNat 16 (stream * 4096 + master)

end Sys2Proof.Machine
end

