-- ==== Sys2Proof/Machine/Flags.lean ====
section
/-! DEFINITION. Flag computations (R173, R290) and the word functions of the instruction sets: shifts, carry-less products,
counts. -/

namespace Sys2Proof.Machine

/-- Signed value outside 32 bits. -/
def ovf32 (x : Int) : Bool := decide (x < -(2 ^ 31 : Int) ∨ (2 ^ 31 : Int) ≤ x)

/-- Class A of an addition x + y + cin (R173): the result and its Z, N, C, V. -/
def addA (x y : W32) (cin : Bool) : W32 × RWr :=
  let r := BitVec.ofNat 32 (x.toNat + y.toNat + b2n cin)
  (r, .znvc (decide (r = 0)) r.msb (decide (2 ^ 32 ≤ x.toNat + y.toNat + b2n cin)) (ovf32 (x.toInt + y.toInt + b2n cin)))

/-- Class A of a subtraction x - y - bin; C is the unsigned borrow (R173). -/
def subA (x y : W32) (bin : Bool) : W32 × RWr :=
  let r := BitVec.ofInt 32 ((x.toNat : Int) - y.toNat - b2n bin)
  (r, .znvc (decide (r = 0)) r.msb (decide (x.toNat < y.toNat + b2n bin)) (ovf32 (x.toInt - y.toInt - b2n bin)))

/-- Class L: Z and N from the result, C and V 0. -/
def flagL (r : W32) : RWr := .znvc (decide (r = 0)) r.msb false false

/-- Class S: Z and N from the result, C the last bit out, V 0. -/
def flagS (r : W32) (c : Bool) : RWr := .znvc (decide (r = 0)) r.msb c false

/-- Shifts by n (0–31): the result and the last bit shifted or rotated out, 0 when n is 0 (R173, R174). -/
def shlS (x : W32) (n : Nat) : W32 × Bool := (x <<< n, decide (n ≠ 0) && x.getLsbD (32 - n))
def shrS (x : W32) (n : Nat) : W32 × Bool := (x >>> n, decide (n ≠ 0) && x.getLsbD (n - 1))
def sarS (x : W32) (n : Nat) : W32 × Bool := (x.sshiftRight n, decide (n ≠ 0) && x.getLsbD (n - 1))
def rorS (x : W32) (n : Nat) : W32 × Bool := (x.rotateRight n, decide (n ≠ 0) && (x.rotateRight n).msb)

/-- Leading zeros, ones, bit reversal, byte reversal (R174). -/
def clz32 (x : W32) : W32 := BitVec.ofNat 32 (if x = 0 then 32 else 31 - Nat.log2 x.toNat)
def popc32 (x : W32) : W32 := BitVec.ofNat 32 ((List.range 32).filter fun i => x.getLsbD i).length
def brev32 (x : W32) : W32 :=
  BitVec.ofNat 32 (foldNat (fun acc i => acc + (if x.getLsbD i then 2 ^ (31 - i) else 0)) 0 (List.range 32))
def bswap32 (x : W32) : W32 := BitVec.ofNat 32 (leNat (leBytes 4 x.toNat).reverse)

/-- Carry-less product of two 32-bit values. -/
def clmul (x y : W32) : Nat :=
  foldNat (fun acc i => if y.getLsbD i then Nat.xor acc (x.toNat * 2 ^ i) else acc) 0 (List.range 32)

/-- Residue of a 64-bit polynomial modulo x^32 + p over GF(2) (R184). -/
def clResidue (v : Nat) (p : W32) : W32 :=
  BitVec.ofNat 32 (foldNat (fun acc i =>
    if bitOf acc (63 - i) then Nat.xor acc ((2 ^ 32 + p.toNat) * 2 ^ (31 - i)) else acc) (v % 2 ^ 64) (List.range 32))

/-- CRC of R322 over bytes: bits least significant first, register starting at ones, result complemented. `p` is the
polynomial with its bits reversed. -/
def crcByte (p : Nat) (crc : Nat) (b : W8) : Nat :=
  foldNat (fun c _ => if bitOf c 0 then Nat.xor (c / 2) p else c / 2) (Nat.xor crc b.toNat) (List.range 8)

def crc32Of (p : Nat) (bs : List W8) : W32 :=
  ~~~ BitVec.ofNat 32 (bs.foldl (crcByte p) 0xFFFFFFFF)

/-- Reflected polynomials of CRC-32 and CRC-32C (R322). -/
def polyCrc32 : Nat := 0xEDB88320
def polyCrc32c : Nat := 0x82F63B78

/-- Class A of KP's 16-bit addition and subtraction (R290): result, Z, C. -/
def kpAddF (x y : W16) : W16 × Bool × Bool :=
  (x + y, decide (x + y = 0), decide (2 ^ 16 ≤ x.toNat + y.toNat))
def kpSubF (x y : W16) : W16 × Bool × Bool := (x - y, decide (x - y = 0), decide (x.toNat < y.toNat))

end Sys2Proof.Machine
end

