-- ==== Sys2Proof/Machine/Uses.lean ====
section
/-! DEFINITION. What a KE word reads of the registers that a load can have written, for the load-use rule (spec/04 R130,
R137, R497). -/

namespace Sys2Proof.Machine

/-- Registers an address of a full load or store reads (R162). -/
def eaUses (a : Nat) (mode : BitVec 2) (imm : W16) : List LReg :=
  if mode = 3 then [.a a, .d (imm.toNat % 16)] else [.a a]

/-- Flags that a condition reads (R186). -/
def condUses (c : Nat) : List LReg :=
  if 2 ≤ c ∧ c ≤ 5 ∨ c = 10 ∨ c = 11 then [.v] else if c = 12 ∨ c = 13 then [.t] else []

/-- Registers a short operation reads (R199). -/
def shortUses : ShortOp → List LReg
  | .snop => []
  | .sadd _ s t => [.d s, .d t]
  | .ssub _ s t => [.d s, .d t]
  | .sand _ s t => [.d s, .d t]
  | .sor _ s t => [.d s, .d t]
  | .sxor _ s t => [.d s, .d t]
  | .smov _ s => [.d s]
  | .snot _ s => [.d s]
  | .sneg _ s => [.d s]
  | .sselt _ s t => [.d s, .d t, .t]
  | .scmp s t => [.d s, .d t]
  | .steq s t => [.d s, .d t]
  | .stlt s t => [.d s, .d t]
  | .saddi d _ => [.d d]
  | .smovi _ _ => []
  | .sshli d _ => [.d d]
  | .sshri d _ => [.d d]
  | .ssari d _ => [.d d]
  | .sldw _ a _ => [.a a]
  | .sldhu _ a _ => [.a a]
  | .sldbu _ a _ => [.a a]
  | .sstw d a _ => [.d d, .a a]
  | .ssth d a _ => [.d d, .a a]
  | .sstb d a _ => [.d d, .a a]
  | .saadd a s => [.a a, .d s]
  | .saaddi a _ => [.a a]
  | .smacx _ ax ay _ _ => [.a ax, .a ay]
  | .sclmacx _ ax ay _ => [.a ax, .a ay]

/-- A D or A register named by the 5-bit field of MTS (R158). -/
def mtsReg (reg : BitVec 5) : LReg := if reg.toNat < 16 then .d reg.toNat else .a (reg.toNat - 16)

/-- The release word's registers: with r2 even also D[r2+1] (R195). -/
def releaseUses (r1 r2 : Nat) : List LReg := if r2 % 2 = 0 then [.d r1, .d r2, .d (r2 + 1)] else [.d r1, .d r2]

/-- Registers and flags that a KE word reads and a load can have written; a command that is no such word reads none (R497). -/
def keUses : Instr → List LReg
  | .add _ _ s t => [.d s, .d t]
  | .addc _ _ s t => [.d s, .d t]
  | .sub _ _ s t => [.d s, .d t]
  | .subc _ _ s t => [.d s, .d t]
  | .and _ _ s t => [.d s, .d t]
  | .or _ _ s t => [.d s, .d t]
  | .xor _ _ s t => [.d s, .d t]
  | .andn _ _ s t => [.d s, .d t]
  | .shl _ _ s t => [.d s, .d t]
  | .shr _ _ s t => [.d s, .d t]
  | .sar _ _ s t => [.d s, .d t]
  | .ror _ _ s t => [.d s, .d t]
  | .mul _ _ s t => [.d s, .d t]
  | .mulhs _ _ s t => [.d s, .d t]
  | .mulhu _ _ s t => [.d s, .d t]
  | .cmp _ s t => [.d s, .d t]
  | .min _ _ s t => [.d s, .d t]
  | .max _ _ s t => [.d s, .d t]
  | .minu _ _ s t => [.d s, .d t]
  | .maxu _ _ s t => [.d s, .d t]
  | .clz _ _ s => [.d s]
  | .popc _ _ s => [.d s]
  | .brev _ _ s => [.d s]
  | .bswap _ _ s => [.d s]
  | .sextb _ _ s => [.d s]
  | .sexth _ _ s => [.d s]
  | .selt _ _ s t => [.d s, .d t, .t]
  | .teq _ s t => [.d s, .d t]
  | .tlt _ s t => [.d s, .d t]
  | .tltu _ s t => [.d s, .d t]
  | .tbit _ s t => [.d s, .d t]
  | .addi _ _ s _ => [.d s]
  | .andi _ _ s _ => [.d s]
  | .ori _ _ s _ => [.d s]
  | .xori _ _ s _ => [.d s]
  | .shi _ _ s _ => [.d s]
  | .cmpi _ s _ => [.d s]
  | .tsti _ _ s _ => [.d s]
  | .movi _ d h _ => if h then [.d d] else []
  | .div _ _ s t => [.d s, .d t]
  | .divu _ _ s t => [.d s, .d t]
  | .rems _ _ s t => [.d s, .d t]
  | .remu _ _ s t => [.d s, .d t]
  | .aaddi _ _ a _ => [.a a]
  | .aadd _ _ a t => [.a a, .d t]
  | .asub _ _ a t => [.a a, .d t]
  | .amov _ _ a => [.a a]
  | .alo _ _ a t => [.a a, .d t]
  | .ahi _ _ a t => [.a a, .d t]
  | .atod _ a _ => [.a a]
  | .atodh _ a _ => [.a a]
  | .taeq _ x a => [.a x, .a a]
  | .taltu _ x a => [.a x, .a a]
  | .amovi _ a h _ => if h = 0 then [] else [.a a]
  | .mts _ reg _ => [mtsReg reg]
  | .mfs _ _ num => if num = 0x12 then [.t, .v] else []
  | .ldb _ _ a m i => eaUses a m i
  | .ldbu _ _ a m i => eaUses a m i
  | .ldh _ _ a m i => eaUses a m i
  | .ldhu _ _ a m i => eaUses a m i
  | .ldw _ _ a m i => eaUses a m i
  | .ldd _ _ a m i => eaUses a m i
  | .lda _ _ a m i => eaUses a m i
  | .stb _ r a m i => .d r :: eaUses a m i
  | .sth _ r a m i => .d r :: eaUses a m i
  | .stw _ r a m i => .d r :: eaUses a m i
  | .std _ r a m i => .d r :: .d (r.val + 1) :: eaUses a m i
  | .sta _ r a m i => .a r :: eaUses a m i
  | .sti _ r a m i => .d r :: eaUses a m i
  | .macx _ _ x y _ _ _ _ => [.a x, .a y]
  | .clmacx _ _ x y _ _ => [.a x, .a y]
  | .mac _ _ s t _ _ => [.d s, .d t]
  | .mtac _ _ d _ => [.d d]
  | .clred _ _ _ p => [.d p.toNat]
  | .bcrc _ _ x y _ _ n => [.a x, .a y, .d n]
  | .br _ c _ => condUses c.toNat
  | .dbnz _ d _ => [.d d]
  | .jr _ a => [.a a]
  | .callr _ a => [.a a]
  | .cue _ s p _ => [.d s, .d (s.val + 1), .d p]
  | .caprd _ _ p _ => [.d p]
  | .tmrWrite _ d _ _ => [.d d]
  | .chopen _ _ d _ => [.d d]
  | .chw _ _ d _ => [.d d]
  | .release _ r1 r2 => releaseUses r1 r2
  | .casw _ a d t => [.a a, .d d, .d t]
  | .casd _ a d t => [.a a, .d d, .d (d.val + 1), .d t, .d (t.val + 1)]
  | .acq _ a _ t => [.a a, .d t, .d (t.val + 1)]
  | .rel _ a => [.a a]
  | .lwatch _ a => [.a a]
  | .lunwatch _ a => [.a a]
  | .pair _ a b => shortUses a ++ shortUses b
  | _ => []

end Sys2Proof.Machine
end

