-- ==== Sys2Proof/Machine/Operands.lean ====
section
/-! DEFINITION. Operand forms of the engine instruction set: registers, special registers, the addressing modes (R162–R164),
the return stack (R188), and how a word issues and ends (R120, R130, R166, R167). -/

namespace Sys2Proof.Machine

def rD (r : Regs) (n : Nat) : W32 := tget 0 r.d n
def rA (r : Regs) (n : Nat) : W48 := tget 0 r.a n
def rAc (r : Regs) (n : Nat) : W80 := tget 0 r.ac n
def rMb (r : Regs) (n : Nat) : W48 := tget 0 r.mb n
def rMl (r : Regs) (n : Nat) : BitVec 24 := tget 0 r.ml n

/-- {D[n+1], D[n]}. -/
def rPair (r : Regs) (n : Nat) : W64 := (rD r (n + 1)) ++ (rD r n)

/-- Writes of a 64-bit value to D[n], D[n+1]. -/
def wPair (n : Nat) (x : W64) : List RWr := [.d n (x.extractLsb' 0 32), .d (n + 1) (x.extractLsb' 32 32)]

/-- One register write. -/
def applyWr (r : Regs) : RWr → Regs
  | .d n x => { r with d := tset 0 r.d n x }
  | .a n x => { r with a := tset 0 r.a n x }
  | .ac n x => { r with ac := tset 0 r.ac n x }
  | .znvc z n c v => { r with fl := { r.fl with z := z, n := n, c := c, v := v } }
  | .v b => { r with fl := { r.fl with v := b } }
  | .t b => { r with fl := { r.fl with t := b } }

def applyWrs (r : Regs) (ws : List RWr) : Regs := ws.foldl applyWr r

/-- FLAGS as a word (R156). -/
def flagsWord (f : Flags) : W32 := BitVec.ofNat 32 (b2n f.z + 2 * b2n f.n + 4 * b2n f.c + 8 * b2n f.v + 16 * b2n f.t)

def wordFlags (x : W32) : Flags :=
  { z := x.getLsbD 0, n := x.getLsbD 1, c := x.getLsbD 2, v := x.getLsbD 3, t := x.getLsbD 4 }

/-- Step of an address register in modulo addressing: it wraps at most once (R163). -/
def modstep (a mb : W48) (ml : BitVec 24) (delta : W48) : W48 :=
  let n := a + delta
  if ml = 0 then n
  else if mb.toNat + ml.toNat ≤ n.toNat then n - ml.setWidth 48
  else if n.toNat < mb.toNat then n + ml.setWidth 48
  else n

/-- modstep of address register `a`. -/
def stepMod (r : Regs) (a : Nat) (delta : W48) : W48 := modstep (rA r a) (rMb r a) (rMl r a) delta

/-- Address of a full load or store and its address-register step (R162). -/
def ea (r : Regs) (a : Nat) (mode : BitVec 2) (imm : W16) : W48 × List RWr :=
  let d := imm.signExtend 48
  match mode.toNat with
  | 0 => (rA r a + d, [])
  | 1 => (rA r a, [.a a (rA r a + d)])
  | 2 => (rA r a, [.a a (stepMod r a d)])
  | _ => (rA r a + (rD r (imm.toNat % 16)).signExtend 48, [])

/-- Mode 11 asks imm16[15:4] = 0 (R162, R171). -/
def eaBad (mode : BitVec 2) (imm : W16) : Bool := decide (mode = 3 ∧ 16 ≤ imm.toNat)

/-- Step of a MACX pointer: 0 none, 1 +4, 2 +4 modulo, 3 -4 modulo (R180). -/
def macStep (r : Regs) (a : Nat) (m : BitVec 2) : List RWr :=
  match m.toNat with
  | 0 => []
  | 1 => [.a a (rA r a + 4)]
  | 2 => [.a a (stepMod r a 4)]
  | _ => [.a a (stepMod r a (-4))]

/-- push and pop of the return stack (R188); none: overflow trap or underflow. -/
def rsPush (r : Regs) (trap : Bool) (v : W48) : Option Regs :=
  if r.rsd = 8 && trap then none
  else some { r with rs := tset 0 r.rs r.rsp v, rsp := (r.rsp + 1) % 8, rsd := if r.rsd < 8 then r.rsd + 1 else r.rsd }

def rsPop (r : Regs) : Option (W48 × Regs) :=
  if r.rsd = 0 then none
  else some (tget 0 r.rs ((r.rsp + 7) % 8), { r with rsp := (r.rsp + 7) % 8, rsd := r.rsd - 1 })

/-! ### Issue -/

/-- A thread is at a message boundary when none of its send sides is OPENING or OPEN (R238). -/
def atBoundary (s : State) (g : Nat) : Bool :=
  (List.range 4).all fun n => decide ((gCe s (g * 4 + n)).txst ≠ .opening ∧ (gCe s (g * 4 + n)).txst ≠ .opn)

/-- The thread is in event entry (R146). -/
def inEntry (s : State) (k : Nat) : Bool := (gThr s k).entering.isSome || decide (s.ec < (gThr s k).entryEnd)

/-- A requested halt takes effect before the thread's next word issues, without being forced (R238); one that is requested during
entry does so after entry (R239). -/
def haltNow (s : State) (g : Nat) : Bool :=
  let k := thrKey s g
  let e := gEng s (k / 32)
  (gThr s k).dbg.pending && !inEntry s k && (atBoundary s g || e.noDefer || decide (e.haltLimit = 0) || !ownsPos e (k % 32))

/-- Deferral has run out (R238, R239). -/
def haltForced (s : State) (g : Nat) : Bool :=
  let k := thrKey s g
  (gThr s k).dbg.pending && !inEntry s k && decide ((gEng s (k / 32)).haltLimit.toNat ≤ (gThr s k).dbg.deferred)

/-- An enabled address breakpoint stands on the thread's next word (R479). -/
def bpMatch (s : State) (g : Nat) : Bool :=
  let t := gThr s (thrKey s g)
  !t.dbg.bpPass && (List.range 4).any fun n =>
    let b := gBp s (g / 32 * 4 + n)
    b.en && decide (b.addr = t.r.pc) && (b.any || decide (b.thread.toNat = g % 32))

/-! ### The word at the PC (R138, R139, R141, R143, R160) -/

/-- Instruction space has something at the address (R160). -/
def fetchable (a : Nat) : Bool := decide (a < 0x1000000) || decide (0x4000000000 ≤ a ∧ a < 0x8000000000)

/-- The line as a fetch by engine p finds it: in the line buffer, or in a good way of the cache array (R138). -/
def lineIn (s : State) (p line : Nat) : Option IcLine :=
  match (gIc s p).lb.find? fun l => decide (l.line = line) with
  | some l => some l
  | none => (tget [] (gIc s p).sets (line % 128)).find? fun l => decide (l.line = line) && decide (l.ecc ≠ 2)

/-- The line is pinned in engine p's cache, or is on its way back into its pinned way (R141, R152). -/
def linePinned (s : State) (p line : Nat) : Bool :=
  ((tget [] (gIc s p).sets (line % 128)).any fun l => decide (l.line = line) && l.pinned) ||
    (gIc s p).fills.any fun f => decide (f.line = line) && f.pin

/-- The word at instruction address a, when its line is present. -/
def wordIn (s : State) (p a : Nat) : Option W32 := (lineIn s p (a / 64)).map fun l => tget 0 l.words (a % 64 / 4)

/-- The word at thread k's PC: an STI's successor issues from its copy (R143). -/
def nextWord (s : State) (k : Nat) : Option W32 :=
  match (gThr s k).succ with
  | some w => some w
  | none => wordIn s (k / 32) (gThr s k).r.pc.toNat

/-- The instruction that thread k of the block issues next (R171); `g` is its logical number. -/
def nextInstr (s : State) (g : Fin 2048) : Option Instr := (nextWord s (thrKey s g.val)).map (keDecode g)

/-- The word is an STI (R172). -/
def isStiWord (w : W32) : Bool := decide (w.toNat / 2 ^ 25 = 0x1D)

/-- Thread k may fetch from the line at a: a FIXED thread from pinned lines only (R141). -/
def mayFetch (s : State) (k a : Nat) : Bool :=
  fetchable a && (!isFixed (gEng s (k / 32)) (k % 32) || linePinned s (k / 32) (a / 64))

/-- The thread's next word is present, and for an STI its successor too (R120, R139, R143). -/
def present (s : State) (k : Nat) : Bool :=
  let pc := (gThr s k).r.pc
  ((gThr s k).succ.isSome || mayFetch s k pc.toNat) && match nextWord s k with
    | none => false
    | some w => !isStiWord w || (mayFetch s k (pc + 4).toNat && (wordIn s (k / 32) (pc + 4).toNat).isSome)

/-! ### Slots (R118–R120, R124, R130–R132) -/

/-- Thread k's next word reads a loaded value of the word in its previous slot (R130, R497). -/
def loadUse (s : State) (k : Nat) : Bool :=
  !(gThr s k).loaded.isEmpty && match nextWord s k with
    | none => false
    | some w => (keUses (keDecode 0 w)).any fun u => (gThr s k).loaded.any fun l => decide (u = l)

/-- The thread owes a dead slot or a long-operation iteration (R120, R131). -/
def owes (s : State) (k : Nat) : Bool :=
  decide ((gThr s k).owe ≠ 0) || (gThr s k).long.isSome || (present s k && loadUse s k)

/-- Thread k would be ready if its next word were present (R120): no halt comes first (R238). -/
def wakeful (s : State) (k : Nat) : Bool :=
  let t := gThr s k
  decide (t.st = .run) && t.held.isNone && t.park.isNone && t.entering.isNone && decide (t.readyAt ≤ s.ec) &&
    decide ((gEng s (k / 32)).prev ≠ some (k % 32)) && !haltNow s (gOf s k) && !haltForced s (gOf s k)

/-- Thread k is ready in the present ec (R120). -/
def ready (s : State) (k : Nat) : Bool := wakeful s k && (owes s k || present s k)

/-- The thread that an understudy slot of engine p goes to (R119): a thread that resumes from WAITT takes none (R22). -/
def understudy (s : State) (p : Nat) : Option Nat :=
  ((List.range 32).map fun i => ((gEng s p).rr + 1 + i) % 32).find? fun t =>
    !isFixed (gEng s p) t && !((gThr s (p * 32 + t)).ownFirst && ownsPos (gEng s p) t) && ready s (p * 32 + t)

/-- The thread that the present position of engine p's live bill names, when it is ready. -/
def owner (s : State) (p : Nat) : Option Nat :=
  match posThread (gEng s p).live (s.ec % 64) with
  | some t => if ready s (p * 32 + t) then some t else none
  | none => none

/-- The thread that issues in the present ec at engine p (R119); none after one has. -/
def issuer (s : State) (p : Nat) : Option Nat :=
  if (gEng s p).slot.isSome then none
  else match owner s p with
    | some t => some t
    | none => understudy s p

/-- Thread t of engine p has the present slot; the round-robin pointer follows a granted understudy slot (R119). -/
def takeSlot (s : State) (p t : Nat) : State :=
  mEng s p fun e => { e with slot := some t, rr := if (owner s p).isSome then e.rr else t }

/-- Engine of logical thread g runs and nothing freezes it (R74, R101, R461). -/
def engRuns (s : State) (g : Nat) : Bool :=
  up s && !s.mg.sm.frozen && isMapped s (g / 32) && peOn s (physOf s (g / 32))

/-- Logical thread g is the issuer of R119 in the present ec, and owes nothing: its next word is fetched. -/
def fetches (s : State) (g : Nat) : Bool :=
  let k := thrKey s g
  engRuns s g && decide (issuer s (k / 32) = some (k % 32)) && !owes s k

/-- Logical thread g issues a word in the present ec: no breakpoint stands before it (R479). -/
def canIssue (s : State) (g : Nat) : Bool := fetches s g && !bpMatch s g

/-- What reading a word does to the instruction cache of engine p (R138): a line of the line buffer becomes its most recently
used entry; otherwise the line is read from the cache array, whose way becomes the most recently used, and is copied into the
line buffer, where it replaces the least recently used of 8 entries. A correctable error is corrected in place and logged
(R152). A line that is in neither changes nothing. -/
def fetchLine (s : State) (p line : Nat) : State :=
  let here (l : IcLine) : Bool := decide (l.line = line)
  match (gIc s p).lb.find? here with
  | some l => mIc s p fun c => { c with lb := l :: c.lb.filter fun x => !here x }
  | none => match (tget [] (gIc s p).sets (line % 128)).find? here with
    | some l =>
      let good : IcLine := { l with ecc := 0 }
      let s1 := mIc s p fun c => { c with
        lb := (good :: c.lb).take 8
        sets := tset [] c.sets (line % 128) (good :: (tget [] c.sets (line % 128)).filter fun x => !here x) }
      if l.ecc = 1 then logEv s1 0x6020 [p, line % 128, l.way] else s1
    | none => s

/-- The fetch of the word that issues (R138); the successor of an STI issues from its copy (R143). -/
def fetchTouch (s : State) (k : Nat) : State :=
  if (gThr s k).succ.isSome then s else fetchLine s (k / 32) ((gThr s k).r.pc.toNat / 64)

/-- Thread k's word issues: it has the slot, and the word is fetched. -/
def issued (s : State) (k : Nat) : State :=
  let s1 := fetchTouch (takeSlot s (k / 32) (k % 32)) k
  mThr s1 k fun t => { t with ownFirst := false }

/-- A KE command: when its thread issues in the present ec and `i` is the word at its PC, the word has its effect `f`;
otherwise nothing changes (log 1). -/
def keIssue (i : Instr) (g : Fin 2048) (f : State → State) (s : State) : Out :=
  .next (if canIssue s g.val && decide (nextInstr s g = some i) then f (issued s (thrKey s g.val)) else s)

/-- The debugger's record of a halt that the thread's own word has brought: a halt that was still asked for is in effect with it
(R238, R476). -/
def dbgHalted (d : ThrDbg) (reason : BitVec 3) : ThrDbg :=
  { d with halted := true, pending := false, deferred := 0, reason := reason, stepping := false }

/-- A stepped word has ended and its slots are paid: the thread halts again with REASON 5 (R478). -/
def endStep (t : Thread) : Thread :=
  if t.dbg.stepping && (decide (t.st = .run) || t.curtain) && decide (t.owe = 0) then
    { t with st := .halt, waitK := none, dbg := dbgHalted t.dbg 5 }
  else t

/-- The word ends: the thread's registers, the slots its cost still takes, the next PC (R130, R150). -/
def ended (t : Thread) (loads : List LReg) (r : Regs) (cost : Nat) (pc : W48) : Thread :=
  { t with
    r := { r with pc := pc }, owe := cost - 1, long := none, loaded := loads
    held := none, succ := none, dbg := { t.dbg with bpPass := false } }

/-- The word ends with the writes `ws`. -/
def retire (s : State) (k : Nat) (loads : List LReg) (ws : List RWr) (cost : Nat) (pc : W48) : State :=
  mThr s k fun t => endStep (ended t loads (applyWrs t.r ws) cost pc)

/-- The word ends and the next word follows it. -/
def retireNext (s : State) (k : Nat) (loads : List LReg) (ws : List RWr) : State :=
  retire s k loads ws 1 ((gThr s k).r.pc + 4)

/-- The word's access holds the thread (R166). -/
def hold (s : State) (k : Nat) (op : HeldOp) (ws : List RWr) : State :=
  mThr s k fun t => { t with
    held := some { op := op, writes := ws }, loaded := [], dbg := { t.dbg with bpPass := false } }

/-- The response of a held access has come: its destinations and its address step are written together (R164, R166). The
writes of the access stand before those of its data, so that a loaded address register keeps the loaded value. -/
def finishHeld (s : State) (k : Nat) (ws : List RWr) : State :=
  mThr s k fun t => endStep { t with
    r := { applyWrs t.r ((match t.held with | some h => h.writes | none => []) ++ ws) with pc := t.r.pc + 4 }
    held := none, succ := none, loaded := [] }

/-- A control-space access joins those of its engine (R48). -/
def ctlQueue (s : State) (k : Nat) : State :=
  mEng s (k / 32) fun e => { e with ctlQ := e.ctlQ.filter (fun t => decide (t ≠ k % 32)) ++ [k % 32] }

/-- The thread's control-space access has not been presented to the register network yet. -/
def ctlWaits (s : State) (k : Nat) : Bool :=
  match (gThr s k).held with
  | some h => match h.op with
    | .ctlLoad _ _ _ none => true
    | .ctlStore _ _ _ => true
    | _ => false
  | none => false

/-- The thread's control-space access is the first that its engine has queued, or has been presented (R48). -/
def ctlTurn (s : State) (k : Nat) : Bool :=
  !ctlWaits s k || decide (((gEng s (k / 32)).ctlQ.find? fun t => ctlWaits s (k / 32 * 32 + t)) = some (k % 32))

/-- A held access ends with a fault; no step and no destination is written (R164). -/
def heldFault (s : State) (k : Nat) (code : W8) : State := takeFault s k code (gThr s k).r.pc

/-- A posted access joins those outstanding (R167). -/
def post (s : State) (k : Nat) (p : Posted) : State := mThr s k fun t => { t with posted := t.posted ++ [p] }

/-- What a KE instruction forms from the registers: a fault, or its writes (R150). -/
abbrev KRes := Except W8 (List RWr)

/-- A KE instruction `i` that works on registers only and costs `cost` slots: it takes its fault or makes its writes and the
next word follows (R130, R150). -/
def keReg (i : Instr) (g : Fin 2048) (loads : List LReg) (cost : Nat) (f : Regs → KRes) (s : State) : Out :=
  let k := thrKey s g.val
  keIssue i g (fun s =>
    match f (gThr s k).r with
    | .error c => takeFault s k c (gThr s k).r.pc
    | .ok ws => retire s k loads ws cost ((gThr s k).r.pc + 4)) s

/-- The same for an instruction that also sets the next PC or changes registers other than those of `RWr`: `f` gives the
new registers, the cost and the next PC. -/
def keCtl (i : Instr) (g : Fin 2048) (f : Thread → Except W8 (Regs × Nat × W48)) (s : State) : Out :=
  let k := thrKey s g.val
  keIssue i g (fun s =>
    match f (gThr s k) with
    | .error c => takeFault s k c (gThr s k).r.pc
    | .ok (r, cost, pc) => mThr s k fun t => endStep (ended t [] r cost pc)) s

/-- A long operation starts: its first iteration runs in the slot in which it issues, and the thread's next `n - 1` slots run
the others (R130, R132). Its PC stays at it until the last one. -/
def startLong (s : State) (k n : Nat) (ws : List RWr) : State :=
  mThr s k fun t => { t with
    long := some { left := n - 1, writes := ws, crc := none }, loaded := [], dbg := { t.dbg with bpPass := false } }

/-! ### Event entry (R146–R148, R216–R220) -/

/-- The lowest pending source of `mask` (R217). -/
def lowest (x : W16) : Option Nat := (List.range 16).find? fun i => x.getLsbD i

/-- The mask of the WAITE in which a thread waits, or which has just found its source pending (R203). -/
def waitMask (t : Thread) : W16 :=
  match t.waitK with
  | some (.waite m) => m
  | _ => 0

/-- The source that is recognized at the thread with key k (R216, R217, R220), if any. -/
def recognized (s : State) (k : Nat) : Option Nat :=
  let t := gThr s k
  if decide (t.st = .run) || (decide (t.st = .wait) && !t.curtain) then
    lowest (pendNow s k &&& (if t.save.isSome then waitMask t else t.evEn ||| waitMask t))
  else none

/-- Clears a latched source (R218); level sources have no bit of their own. -/
def unlatch (x : W16) (bit : Nat) : W16 := clrBit x bit

/-- A thread whose wait ends goes on at the word after it (R219, R220). -/
def wakeNext (t : Thread) : Thread :=
  endStep { t with st := .run, waitK := none, succ := none, r := { t.r with pc := t.r.pc + 4 } }

/-- Entry for source `bit` in its first ec (R218, R219): the work under way is abandoned, the return state is saved, and the
thread goes on at the vector after the 3 ec of entry (R146). With INH at 1 the thread only wakes (R220). -/
def enterEvent (s : State) (k bit : Nat) : State :=
  let t := gThr s k
  let at' (t : Thread) : Thread := { t with entering := none, readyAt := s.ec + 3, entryEnd := s.ec + 3 }
  if t.save.isSome then mThr s k fun t => at' (wakeNext t)
  else
    let ret := if (waitMask t).getLsbD bit then t.r.pc + 4 else t.r.pc
    mThr (abandon s k) k fun t => endStep (at' { t with
      st := .run, waitK := none, save := some { pc := ret, fl := t.r.fl, succ := t.succ }, succ := none
      pend := unlatch t.pend bit, r := { t.r with pc := t.vbase + BitVec.ofNat 48 (16 * bit) }
      dbg := { t.dbg with bpPass := false } })

/-- The thread with key k waits (R190, R203, R213). -/
def enterWait (s : State) (k : Nat) (w : WaitK) : State :=
  mThr s k fun t => { t with
    st := .wait, waitK := some w, curtain := false, wdCount := 0, loaded := [], dbg := { t.dbg with bpPass := false } }

/-! ### A debug halt (R238, R239) -/

/-- A debug halt takes effect: what is under way is abandoned, and the PC stays at the oldest abandoned word. -/
def haltTake (s : State) (k : Nat) (reason : BitVec 3) : State :=
  mThr (abandon s k) k fun t => { t with
    st := .halt, waitK := none
    dbg := { t.dbg with halted := true, pending := false, reason := reason, stepping := false, deferred := 0 } }

end Sys2Proof.Machine
end

