-- ==== Sys2Proof/Machine/Atomics.lean ====
section
/-! DEFINITION. The atomic units (spec/11 R407–R419): the line store, the operations, locks, watches and the walk. -/

namespace Sys2Proof.Machine

/-- QoS of a master (R52). -/
def qosOf (master : Nat) : BitVec 2 :=
  if master < 0x800 then 1
  else if master = 0x900 then 3
  else if 0xA00 ≤ master ∧ master < 0xB00 then 3
  else if master = 0xB00 then 2
  else if 0x880 ≤ master ∧ master < 0x890 then 2
  else 0

/-- Words of a line as numbers. -/
def lineWord (data : List W8) (off n : Nat) : Nat := leNat ((data.drop off).take n)

/-- Fields of a lock word (R412). -/
def lkOwner (w : Nat) : Nat := w / 2 ^ 52 % 4096
def lkBroken (w : Nat) : Bool := bitOf w 51
def lkSw (w : Nat) : Nat := w % 2 ^ 51

/-- What an operation does to its word: the new bytes, if it writes; T; the fault of its response; whether the unit's
counter of failures counts it. -/
structure AuEff where
  new   : Option Nat := none
  t     : Bool := false
  fault : Option W8 := none

/-- Word address of an operation. -/
def auWord (a : W48) : Nat := a.toNat / 8 * 8

/-- Effect on the word alone (R196, R413, R414, R416, R417); `room` says that the holdings table has room. -/
def auEffect (op : AuOp) (old : Nat) (room watches wfull : Bool) : AuEff :=
  match op.fn with
  | 0 => if old = op.x.toNat % 2 ^ 32 then { new := some (op.y.toNat % 2 ^ 32), t := true } else {}
  | 1 => if old = op.x.toNat then { new := some op.y.toNat, t := true } else {}
  | 2 => if lkOwner old = 0xFFF && room then
      { new := some (op.master * 2 ^ 52 + op.y.toNat % 2 ^ 51), t := true } else {}
  | 3 => if lkOwner old = op.master && !lkBroken old then { new := some (0xFFF * 2 ^ 52 + lkSw old) }
      else { fault := some 0x0C }
  | 4 => if lkOwner old = 0xFFF || lkBroken old then {} else if watches then { t := true } else { t := !wfull }
  | 8 => if lkOwner old = op.x.toNat && !lkBroken old then { new := some (old + 2 ^ 51) } else {}
  | _ => {}

/-- Size of an operation's word. -/
def auSize (fn : Nat) : Nat := if fn = 0 then 4 else 8

/-- The holdings table after an operation (R413–R416). -/
def auHold (op : AuOp) (e : AuEff) (old64 new64 : Nat) (h : List (Nat × Nat)) : List (Nat × Nat) :=
  let w := auWord op.addr
  let gone := h.filter fun x => decide (x.1 ≠ w)
  match op.fn with
  | 0 => if e.t && decide (lkOwner old64 ≠ lkOwner new64) then gone else h
  | 1 => if e.t && decide (lkOwner old64 ≠ lkOwner new64) then gone else h
  | 2 => if e.t then h ++ [(w, op.master)] else h
  | 3 => if e.new.isSome then gone else h
  | 8 => h.erase (w, op.x.toNat)
  | _ => h

/-- The watch table after LWATCH and LUNWATCH (R417). -/
def auWatch (op : AuOp) (e : AuEff) (ws : List (Nat × Nat)) : List (Nat × Nat) :=
  let x := (auWord op.addr, op.master)
  match op.fn with
  | 4 => if e.t && !ws.contains x then ws ++ [x] else ws
  | 5 => ws.filter fun y => decide (y ≠ x)
  | _ => ws

/-- The thread's held access is atomic number j; an answer that no access waits for is discarded (R147). -/
def awaitsAtom (s : State) (g j : Nat) : Bool :=
  match (gThr s (thrKey s g)).held with
  | some h => match h.op with
    | .atom _ _ _ _ _ j' => decide (j = j')
    | _ => false
  | none => false

/-- The answer reaches its master: a thread takes it when its held access completes, the host interface at once (R419). -/
def auAnswer (s : State) (op : AuOp) (old : Nat) (t : Bool) (fault : Option W8) : State :=
  if op.fn = 8 then s
  else if op.master = 0xF00 then
    mHcas s fun h => match fault with
      | none => { h with busy := false, t := t, old := BitVec.ofNat 64 old }
      | some c => { h with busy := false, err := true, code := c }
  else if !awaitsAtom s op.master op.job then s
  else { s with mv := { s.mv with
    auFin := s.mv.auFin ++ [{ job := op.job, old := BitVec.ofNat 64 old, t := t, fault := fault }] } }

/-- Performs one operation on the held line. -/
def auPerform (s : State) (u : Nat) (op : AuOp) (l : AuLine) : State :=
  let a := gAu s u
  let off := op.addr.toNat % 64
  let n := auSize op.fn
  let old := lineWord l.data off n
  let o8 := op.addr.toNat % 64 / 8 * 8
  let old64 := lineWord l.data o8 8
  let watched := a.watches.contains (auWord op.addr, op.master)
  let e := auEffect op old (decide (a.holdings.length < 4096)) watched (decide (4096 ≤ a.watches.length))
  let data := match e.new with
    | some v => splice l.data off (leBytes n v)
    | none => l.data
  let hfull := decide (op.fn = 2) && decide (lkOwner old = 0xFFF) && !e.t
  let wfull := decide (op.fn = 4) && !e.t && !(decide (lkOwner old = 0xFFF) || lkBroken old)
  let skip := decide (op.fn = 8) && e.new.isNone
  let s1 := mAu s u fun x => { x with
    lines := tset none x.lines (op.addr.toNat / 64)
      (some { data := data, dirty := l.dirty || e.new.isSome, last := op.master })
    holdings := auHold op e old64 (lineWord data o8 8) x.holdings
    watches := auWatch op e x.watches
    hfull := x.hfull || hfull, wfull := x.wfull || wfull, walkSkip := x.walkSkip || skip
    ops := satInc x.ops
    fails := if op.fn ≤ 2 && !e.t then satInc x.fails else x.fails }
  let s2 := if e.new.isSome then fireWatches s1 u op.addr.toNat n else s1
  let s3 := if hfull && !a.hfull then logEv s2 0x2302 [u, op.addr.toNat, op.master] else s2
  let s4 := if wfull && !a.wfull then logEv s3 0x2303 [u, op.addr.toNat, op.master] else s3
  let s5 := if op.fn = 8 then
      if skip then logEv s4 0x2304 [u, op.addr.toNat, op.x.toNat, old]
      else logEv s4 0x2301 [u, op.addr.toNat, op.x.toNat]
    else s4
  auAnswer s5 op old e.t e.fault

/-- Performs the operations whose line is held, in queue order; the others stay queued (R407). `ops` are those still to be
looked at, `left` those passed over. -/
def auServe (u : Nat) : List AuOp → List AuOp → State → State
  | [], left, s => mAu s u fun a => { a with q := left }
  | op :: t, left, s =>
    match tget none (gAu s u).lines (op.addr.toNat / 64) with
    | some l => auServe u t left (auPerform s u op l)
    | none => auServe u t (left ++ [op]) s

/-- Sends the fill of a line (R409): units 0–7 through their port on stream 0xF, unit 8 at the wings. -/
def auFillSend (s : State) (u line master : Nat) : State :=
  let j := s.ms.nextJob
  let s1 := mAu (newJob s) u fun a => { a with fills := a.fills ++ [(line, j)] }
  if u = 8 then s1 else mpRead s1 (line * 64 - extBase) 64 (srcId 15 master) (qosOf master) j

/-- A line is neither held, nor on its way, nor awaiting the acknowledgement of its write-back. -/
def auAbsent (a : Au) (line : Nat) : Bool :=
  (tget none a.lines line).isNone && a.fills.all (fun f => decide (f.1 ≠ line)) && a.wbs.all fun f => decide (f.1 ≠ line)

/-- Starts the fills that queued operations need, while the line store has room (R409). -/
def auFills (u : Nat) : List AuOp → State → State
  | [], s => s
  | op :: t, s =>
    let line := op.addr.toNat / 64
    let a := gAu s u
    auFills u t (if auAbsent a line && decide (a.lines.length + a.fills.length < 64) then
      auFillSend s u line op.master else s)

/-- The unit goes on: operations on held lines run, and needed lines are filled. -/
def auRun (s : State) (u : Nat) : State :=
  let s1 := auServe u (gAu s u).q [] s
  auFills u (gAu s1 u).q s1

/-- An operation arrives at its unit. -/
def auSend (s : State) (op : AuOp) : State :=
  let u := auOf op.addr.toNat
  auRun (mAu s u fun a => { a with q := a.q ++ [op] }) u

/-- Every operation on a line completes with a fault (R411). A walk's operation leaves no entry behind (R416, log 29). -/
def auFailLine (s : State) (u line : Nat) (c : W8) : State :=
  let hit (op : AuOp) : Bool := decide (op.addr.toNat / 64 = line)
  let ops := (gAu s u).q.filter hit
  let s1 := mAu s u fun a => { a with
    q := a.q.filter fun op => !hit op
    holdings := a.holdings.filter fun h => !ops.any fun op => decide (op.fn = 8 ∧ h = (auWord op.addr, op.x.toNat)) }
  ops.foldl (fun acc op => auAnswer acc op 0 false (some c)) s1

/-- The fill has ended: the line is held and its operations run, or they fail. -/
def auFilled (s : State) (u line : Nat) (r : Except W8 (List W8)) : State :=
  let s1 := mAu s u fun a => { a with fills := a.fills.filter fun f => decide (f.1 ≠ line) }
  match r with
  | .ok data => auRun (mAu s1 u fun a => { a with
      lines := tset none a.lines line (some { data := data, dirty := false, last := 0 }) }) u
  | .error c => auRun (auFailLine s1 u line c) u

/-- R409, R411 AU_LINE_FILL: the read of a line has been answered. -/
def execAuLineFill (u : Fin 9) (line : W48) (s : State) : Out :=
  match (gAu s u.val).fills.find? fun f => decide (f.1 = line.toNat) with
  | none => .next s
  | some (_, j) =>
    if u.val = 8 then
      act (up s) (fun s =>
        let off := line.toNat * 64 - wingsBase
        auFilled s 8 line.toNat
          (if badHit s.ram.wingsBad off 64 then .error 0x06 else .ok (mread s.ram.wings off 64))) s
    else
      act (up s && jobDone s j) (fun s =>
        let ans := jobAns s j
        auFilled (takeJob s j) u.val line.toNat (match stFault (worst ans) with
          | none => .ok (jobData ans)
          | some c => .error c)) s

/-- R409, R411 AU_LINE_WRITEBACK: a line that no queued operation needs is written back if it changed, and released; or the
write-back of a released line has been answered. -/
def execAuLineWriteback (u : Fin 9) (line : W48) (s : State) : Out :=
  let a := gAu s u.val
  match tget none a.lines line.toNat, a.wbs.find? (fun f => decide (f.1 = line.toNat)) with
  | some l, _ =>
    act (up s && a.q.all fun op => decide (op.addr.toNat / 64 ≠ line.toNat)) (fun s =>
      let s1 := mAu s u.val fun a => { a with lines := tdel a.lines line.toNat }
      if !l.dirty then auRun s1 u.val
      else if u.val = 8 then
        auRun (mRam s1 fun r => { r with
          wings := mwrite r.wings (line.toNat * 64 - wingsBase) l.data
          wingsBad := badClear r.wingsBad (line.toNat * 64 - wingsBase) 64 }) 8
      else
        let j := s.ms.nextJob
        let s2 := mAu (newJob s1) u.val fun a => { a with wbs := a.wbs ++ [(line.toNat, j)] }
        auRun (mpWrite s2 (line.toNat * 64 - extBase) l.data (srcId 15 l.last) (qosOf l.last) j) u.val) s
  | none, some (_, j) =>
    act (up s && jobDone s j) (fun s =>
      let bad := decide (worst (jobAns s j) ≠ .okay)
      let s1 := mAu (takeJob s j) u.val fun a => { a with wbs := a.wbs.filter fun f => decide (f.1 ≠ line.toNat) }
      auRun (if bad then logEv s1 0x2105 [u.val, line.toNat * 64] else s1) u.val) s
  | none, none => .next s

/-- The walk's operation for an entry: word and recorded owner. -/
def walkAuOp (e : Nat × Nat) : AuOp :=
  { master := e.2, fn := 8, addr := BitVec.ofNat 48 e.1, x := BitVec.ofNat 64 e.2, y := 0, job := 0 }

/-- The walk of R416 over the entries of one unit whose owner satisfies `p`: each entry queues as an operation. -/
def auWalkUnit (p : Nat → Bool) (s : State) (u : Nat) : State :=
  let es := (gAu s u).holdings.filter fun e => p e.2
  mAu s u fun a => { a with q := a.q ++ es.map walkAuOp }

def auWalk (s : State) (p : Nat → Bool) : State :=
  foldNat auRun (foldNat (auWalkUnit p) s (List.range 9)) (List.range 9)

/-- R419 GO: the host's compare-and-swap starts. -/
def hcasGo (s : State) : State :=
  let h := s.mv.hcas
  let fail (c : W8) : State := mHcas s fun h => { h with err := true, code := c }
  if h.busy then s
  else if h.addr.toNat % 8 ≠ 0 then fail 0x04
  else match spaceOf h.addr.toNat with
    | .ext _ => start s
    | .wings _ => start s
    | _ => fail 0x05
where
  /-- The operation goes to its unit with master ID 0xF00. -/
  start (s : State) : State :=
    let j := s.ms.nextJob
    auSend (mHcas (newJob s) fun h => { h with busy := true })
      { master := 0xF00, fn := 1, addr := s.mv.hcas.addr, x := s.mv.hcas.cmp, y := s.mv.hcas.new, job := j }

/-- R419 GO. -/
def execGo (s : State) : Out := act (up s) hcasGo s

end Sys2Proof.Machine
end

