-- ==== Sys2Proof/Machine/Timers.lean ====
section
/-! DEFINITION. Engine timers (spec/07 R257–R270): the step, compares, period and count writes, triggers, capture, and the
register accesses of TMR and of the engine control page. Timers are numbered by physical engine and timer. -/

namespace Sys2Proof.Machine

/-! ### Configuration fields (R270) -/

def tcWidth (c : W32) : Nat := bits c.toNat 1 0
def tcClk (c : W32) : Nat := bits c.toNat 3 2
def tcK (c : W32) : Nat := bits c.toNat 7 4
def tcMsel (c : W32) : Nat := bits c.toNat 9 8
def tcMtrg (c : W32) : Nat := bits c.toNat 12 10
def tcSlv (c : W32) : Nat := bits c.toNat 14 13
def tcCapsrc (c : W32) : Nat := bits c.toNat 27 26

/-- The timer is the high half of a chained pair (R260). -/
def tmrIsHigh (s : State) (p n : Nat) : Bool := decide (n % 2 = 1) && decide (tcWidth (gTmr s p (n - 1)).cfg = 2)

/-- A value of a timer or pair: its halves joined (R260). -/
def tmrJoin (s : State) (p n : Nat) (f : Tmr → W32) : Nat :=
  match tcWidth (gTmr s p n).cfg with
  | 1 => (f (gTmr s p n)).toNat % 2 ^ 16
  | 2 => (f (gTmr s p (n + 1))).toNat * 2 ^ 32 + (f (gTmr s p n)).toNat
  | _ => (f (gTmr s p n)).toNat

/-- Number of bits of a timer or pair (R260). -/
def tmrBits (s : State) (p n : Nat) : Nat :=
  match tcWidth (gTmr s p n).cfg with
  | 1 => 16
  | 2 => 64
  | _ => 32

/-- Stores a value of a timer or pair. -/
def tmrSplit (s : State) (p n : Nat) (v : Nat) (put : Tmr → W32 → Tmr) : State :=
  let s1 := mTmr s p n fun t => put t (BitVec.ofNat 32 (v % 2 ^ min 32 (tmrBits s p n)))
  if tcWidth (gTmr s p n).cfg = 2 then mTmr s1 p (n + 1) fun t => put t (BitVec.ofNat 32 (v / 2 ^ 32)) else s1

/-- Count, live period and compare values. -/
def tmrC (s : State) (p n : Nat) : Nat := tmrJoin s p n Tmr.c
def tmrP (s : State) (p n : Nat) : Nat := tmrJoin s p n Tmr.p
def tmrA (s : State) (p n : Nat) : Nat := tmrJoin s p n Tmr.cmpA
def tmrB (s : State) (p n : Nat) : Nat := tmrJoin s p n Tmr.cmpB

def setC (s : State) (p n v : Nat) : State := tmrSplit s p n v fun t x => { t with c := x }
def setP (s : State) (p n v : Nat) : State := tmrSplit s p n v fun t x => { t with p := x, shadow := none }
def setShadow (s : State) (p n v : Nat) : State := tmrSplit s p n v fun t x => { t with shadow := some x }
def setDown (s : State) (p n : Nat) (b : Bool) : State := mTmr s p n fun t => { t with down := b }

/-- The timer as the present ec found it (R259). -/
def gTmr0 (s : State) (p n : Nat) : Tmr := tget {} (gEng s p).tmr0 n

/-! ### Events (R266–R268) -/

/-- EVSEL selects one of the events (R267). -/
def evSelected (c : W32) (e : TEv) : Bool :=
  (c.getLsbD 21 && e.a) || (c.getLsbD 22 && e.b) || (c.getLsbD 23 && e.top) || (c.getLsbD 24 && e.bot) ||
    (c.getLsbD 25 && e.cap)

/-- MTRG of a slave selects one of the events (R266). -/
def trgSelected (c : W32) (e : TEv) : Bool :=
  match tcMtrg c with
  | 0 => e.bot
  | 1 => e.top
  | 2 => e.a
  | 3 => e.b
  | _ => e.top || e.bot

/-- Both of two sets of events. -/
def TEv.join (x y : TEv) : TEv :=
  { top := x.top || y.top, bot := x.bot || y.bot, a := x.a || y.a, b := x.b || y.b, cap := x.cap || y.cap
    short := x.short || y.short, err := x.err || y.err }

/-- A timer raises events in the present ec: its status bits, and what the end of the ec sends to slaves and threads
(R259, R267). -/
def tmrRaise (s : State) (p n : Nat) (e : TEv) : State :=
  mTmr s p n fun t => { t with
    ev := t.ev.join e, sTop := t.sTop || e.top, sBot := t.sBot || e.bot, sCmpA := t.sCmpA || e.a, sCmpB := t.sCmpB || e.b
    sShort := t.sShort || e.short, cfgErr := t.cfgErr || e.err }

/-! ### The step (R257, R262) -/

/-- The compare mode enables the direction of a step. -/
def dirEnabled (mode : Nat) (down : Bool) : Bool := if down then decide (2 ≤ mode) else decide (mode % 2 = 1)

/-- CMPA and CMPB against the count after a step (R262): never above the live P, 0 by down steps only, P by up steps only. -/
def tmrMatches (s : State) (p n : Nat) (down : Bool) : Bool × Bool :=
  let c := (gTmr0 s p n).cfg
  let hit (v mode : Nat) : Bool := dirEnabled mode down && decide (v = tmrC s p n) && decide (v ≤ tmrP s p n) &&
    if down then decide (v ≠ tmrP s p n) else decide (v ≠ 0)
  (hit (tmrA s p n) (bits c.toNat 17 16), hit (tmrB s p n) (bits c.toNat 19 18))

/-- One step of C, DIR and the period, and its turnaround. -/
def tmrCount (s : State) (p n : Nat) : State × TEv :=
  let w := tmrBits s p n
  let c := tmrC s p n
  if (gTmr s p n).down then
    let c' := (c + 2 ^ w - 1) % 2 ^ w
    let s1 := setC s p n c'
    let s2 := if c' = 0 then setDown s1 p n false else s1
    let s3 := if c' = 0 && (gTmr s p n).shadow.isSome then
        setP s2 p n (tmrJoin s2 p n fun t => t.shadow.getD t.p) else s2
    (s3, { bot := decide (c' = 0) })
  else
    let c' := (c + 1) % 2 ^ w
    let s1 := setC s p n c'
    let top := decide (c' = tmrP s p n)
    (if top then setDown s1 p n true else s1, { top := top })

/-- One step: its turnaround and its compares are raised in its ec; the compares of a chained pair are tested one ec longer
(R262). -/
def tmrStep (s : State) (p n : Nat) : State :=
  if tmrP s p n = 0 then setDown (setC s p n 0) p n false
  else
    let r := tmrCount s p n
    let m := tmrMatches r.1 p n (gTmr s p n).down
    if tcWidth (gTmr s p n).cfg = 2 then
      tmrRaise (mTmr r.1 p n fun t => { t with chA := m.1, chB := m.2 }) p n r.2
    else tmrRaise r.1 p n { r.2 with a := m.1, b := m.2 }

/-- Multiples of 16 × 2^K ticks that the timebase passes in this ec (R258), its wrap among them. -/
def tbCrossings (s : State) (k : Nat) : Nat :=
  (s.tb.now.toNat * 2 ^ 32 + s.tb.sub.toNat + tbInc s.tb) / 2 ^ 32 / (16 * 2 ^ k) - s.tb.now.toNat / (16 * 2 ^ k)

/-- The timer's clock steps it in the present ec (R258). -/
def clockNow (s : State) (p n : Nat) : Bool :=
  let t := gTmr0 s p n
  match tcClk t.cfg with
  | 0 => decide (s.ec % 2 ^ tcK t.cfg = 0)
  | 1 => s.tb.running && (t.owed || decide (0 < tbCrossings s (tcK t.cfg)))
  | _ => t.trg

/-- The gate of R266: the master's direction as the ec found it. -/
def gateOpen (s : State) (p n : Nat) : Bool :=
  let c := (gTmr0 s p n).cfg
  decide (tcSlv c ≠ 1) || ((gTmr0 s p (tcMsel c)).down == c.getLsbD 15)

/-- What the present ec does to a timer that is no high half (R257–R266): the compares that a chained pair matched an ec ago; the
step, or the reset that replaces it; the start by a trigger; a capture by a trigger. -/
def tmrAct (s : State) (p n : Nat) : State :=
  let t := gTmr0 s p n
  let slv := if t.trg then tcSlv t.cfg else 0
  let s0 := tmrRaise (mTmr s p n fun x => { x with
      stepped := true, chA := false, chB := false
      capDue := x.capDue || (t.trg && decide (tcCapsrc t.cfg = 2)) }) p n { a := t.chA, b := t.chB }
  let s1 := if slv = 2 then setDown (setC s0 p n 0) p n false
    else if t.en && clockNow s p n && gateOpen s p n then tmrStep s0 p n else s0
  if slv = 3 then mTmr s1 p n fun x => { x with en := true } else s1

/-- The step of the ec comes before its writes (R259). -/
def stepFirst (s : State) (p n : Nat) : State :=
  if (gTmr s p n).stepped || tmrIsHigh s p n then s else tmrAct s p n

/-- What the step of the present ec would raise, when it has not been taken yet. -/
def stepEv (s : State) (p n : Nat) : TEv :=
  if (gTmr s p n).stepped || tmrIsHigh s p n then {} else (gTmr (tmrAct s p n) p n).ev

/-! ### The end of an ec -/

/-- The capture of the ec: C as it stands at its end; dropped at a full queue (R268). -/
def tmrCapture (s : State) (p n : Nat) : State :=
  if !(gTmr s p n).capDue then s
  else if 4 ≤ (gTmr s p n).capQ.length then mTmr s p n fun t => { t with ovr := true, drop := satInc t.drop }
  else tmrRaise (mTmr s p n fun t => { t with capQ := t.capQ ++ [BitVec.ofNat 64 (tmrC s p n)] }) p n { cap := true }

/-- Source TMRn becomes pending at every thread of the engine (R267). -/
def tmrLatch (s : State) (p n : Nat) : State :=
  foldNat (fun acc t => latchEv acc (p * 32 + t) (4 + n)) s (List.range 32)

/-- Events of the present ec that reach the threads an ec later than others (R262): the compares of a chained pair. -/
def lateEv (s : State) (p n : Nat) : TEv :=
  let t := gTmr s p n
  if tcWidth (gTmr0 s p n).cfg = 2 && !tmrIsHigh s p n then { a := t.ev.a, b := t.ev.b } else {}

/-- Timer n of engine p as the next ec finds it, with the trigger of its master. -/
def tmrNext (s : State) (p n : Nat) : Tmr :=
  let t := gTmr s p n
  let c := (gTmr0 s p n).cfg
  { t with
    ev := {}, stepped := false, byTmr := [], capDue := t.capEdge, capEdge := false, thr := evSelected c (lateEv s p n)
    owed := decide (tcClk c = 1) && s.tb.running && decide (2 ≤ tbCrossings s (tcK c) + b2n (gTmr0 s p n).owed)
    trg := !tmrIsHigh s p n && trgSelected c (gTmr s p (tcMsel c)).ev }

/-- The event output of timer n reaches the threads with the next ec (R259, R267). -/
def tmrPends (s : State) (p n : Nat) : Bool :=
  let e := (gTmr s p n).ev
  let l := lateEv s p n
  (gTmr s p n).thr || evSelected (gTmr0 s p n).cfg { e with a := e.a && !l.a, b := e.b && !l.b }

/-- The ec ends for the timers of engine p. -/
def tmrEnd (s : State) (p : Nat) : State :=
  let s1 := foldNat (fun acc n => tmrCapture (stepFirst acc p n) p n) s (List.range 4)
  let s2 := foldNat (fun acc n => if tmrPends s1 p n then tmrLatch acc p n else acc) s1 (List.range 4)
  let t := foldNat (fun t n => tset {} t n (tmrNext s1 p n)) [] (List.range 4)
  mEng s2 p fun e => { e with tmr := t, tmr0 := t }

/-! ### Register writes -/

/-- CFG values that R261 refuses. -/
def cfgRefused (t : Tmr) (n : Nat) (d : W32) : Bool :=
  decide (tcWidth d = 3) || decide (tcClk d = 3) || decide (5 ≤ tcMtrg d) || decide (tcCapsrc d = 3) ||
    (decide (tcWidth d = 2) && decide (n % 2 = 1)) ||
    (decide (tcMsel d = n) && (decide (tcClk d = 2) || decide (tcSlv d ≠ 0) || decide (tcCapsrc d = 2))) ||
    (t.en && (decide (tcWidth d ≠ tcWidth t.cfg) || decide (tcClk d ≠ tcClk t.cfg)))

/-- R261 a write to CFG. -/
def tmrCfgPut (s : State) (p n : Nat) (d : W32) : State :=
  if cfgRefused (gTmr s p n) n d then tmrRaise s p n { err := true }
  else mTmr s p n fun t => { t with cfg := d &&& 0x3FFFFFFF }

/-- R257 CLR. -/
def tmrClr (s : State) (p n : Nat) : State := if tmrIsHigh s p n then s else setDown (setC s p n 0) p n false

/-- R268 SWCAP: the ec has a capture trigger. -/
def tmrSwcap (s : State) (p n : Nat) : State := if tmrIsHigh s p n then s else mTmr s p n fun t => { t with capDue := true }

/-- A half of a pair (R269): a low half is staged; a high half commits both, with the present low half when nothing is
staged. A timer that is not chained commits its value at once. `commit` takes the number of the low timer and the value. -/
def tmrHalves (s : State) (p n sel : Nat) (d : W32) (cur : State → Nat → Nat)
    (commit : State → Nat → Nat → State) : State :=
  if tcWidth (gTmr s p n).cfg = 2 then mTmr s p n fun t => { t with staged := tset none t.staged sel (some d) }
  else if tmrIsHigh s p n then
    let lo := match tget none (gTmr s p (n - 1)).staged sel with
      | some x => x.toNat
      | none => cur s (n - 1) % 2 ^ 32
    commit (mTmr s p (n - 1) fun t => { t with staged := tdel t.staged sel }) (n - 1) (d.toNat * 2 ^ 32 + lo)
  else commit s n (d.toNat % 2 ^ tmrBits s p n)

/-- R265 a write to CNT. -/
def cntCommit (p : Nat) (s : State) (n v : Nat) : State :=
  let s1 := setC s p n v
  if v = 0 then setDown s1 p n false else if tmrP s p n ≤ v then setDown s1 p n true else s1

/-- R264 a write to PERIOD. -/
def periodCommit (p : Nat) (s : State) (n v : Nat) : State :=
  let t := gTmr s p n
  let c := tmrC s p n
  if !t.en then
    let s1 := setP s p n v
    if !t.down && decide (v ≤ c) then setDown s1 p n true else s1
  else if !t.cfg.getLsbD 20 || t.down then setShadow s p n v
  else if c < v then setP s p n v
  else tmrRaise (setDown (setP s p n v) p n true) p n { top := true, short := decide (v < c) }

/-- R263 a write to CMPA or CMPB, with the immediate fire of a value written behind the count. -/
def cmpCommit (p : Nat) (b : Bool) (s : State) (n v : Nat) : State :=
  let t := gTmr s p n
  let s1 := tmrSplit s p n v fun t x => if b then { t with cmpB := x } else { t with cmpA := x }
  let mode := if b then bits t.cfg.toNat 19 18 else bits t.cfg.toNat 17 16
  let c := tmrC s p n
  let fire := decide (tcWidth t.cfg ≠ 2) && dirEnabled mode t.down &&
    (if t.down then decide (c ≤ v ∧ v + 1 ≤ tmrP s p n) else decide (1 ≤ v ∧ v ≤ c))
  if fire then tmrRaise s1 p n { a := !b, b := b } else s1

def cntPut (s : State) (p n : Nat) (d : W32) : State := tmrHalves s p n 2 d (fun s m => tmrC s p m) (cntCommit p)

/-- PERIOD as it reads: the shadow while one is pending (R270). -/
def periodNow (s : State) (p n : Nat) : Nat := tmrJoin s p n fun t => t.shadow.getD t.p

def periodPut (s : State) (p n : Nat) (d : W32) : State :=
  tmrHalves s p n 3 d (fun s m => periodNow s p m) (periodCommit p)

def cmpPut (s : State) (p n : Nat) (b : Bool) (d : W32) : State :=
  tmrHalves s p n (if b then 5 else 4) d (fun s m => if b then tmrB s p m else tmrA s p m) (cmpCommit p b)

/-- R268 clearing OVR: the episode is logged, and DROP is cleared. The log names the timer as 0x100 + engine × 4 + n
(log 30). -/
def tmrOvrClr (s : State) (p n : Nat) : State :=
  if (gTmr s p n).ovr then
    logEv (mTmr s p n fun t => { t with ovr := false, drop := 0 }) 0x6201
      [0x100 + (logicalOf s p).getD p * 4 + n, (gTmr s p n).drop.toNat]
  else s

/-- Every timer of engine p has taken the step of the present ec. -/
def stepAll (s : State) (p : Nat) : State := foldNat (fun acc n => stepFirst acc p n) s (List.range 4)

/-- A write to register `sel` of a timer (R259, R34): the step of the ec comes first, and what a TMR has written in the ec
remains. -/
def tmrWr (s : State) (p n sel : Nat) (tmr : Bool) (f : State → State) : State :=
  let s1 := stepAll s p
  if tmr then f (mTmr s1 p n fun t => { t with byTmr := sel :: t.byTmr })
  else if (gTmr s1 p n).byTmr.contains sel then s1
  else f s1

/-! ### Register reads -/

/-- A read of CAP by `reader` (R268, R269): the oldest entry is removed. The high half of a pair comes from the reader's
snapshot, or from the oldest entry as it stands. -/
def tmrCapGet (s : State) (p n reader : Nat) : W32 × State :=
  if tmrIsHigh s p n then
    match tget none (gTmr s p (n - 1)).snapCap reader with
    | some x => (x, mTmr s p (n - 1) fun t => { t with snapCap := tdel t.snapCap reader })
    | none => (match (gTmr s p (n - 1)).capQ with
      | e :: _ => e.extractLsb' 32 32
      | [] => 0, s)
  else
    match (gTmr s p n).capQ with
    | [] => (0, mTmr s p n fun t => { t with emptyRd := true })
    | e :: rest =>
      (e.extractLsb' 0 32, mTmr s p n fun t =>
        { t with capQ := rest
                 snapCap := if tcWidth t.cfg = 2 then tset none t.snapCap reader (some (e.extractLsb' 32 32)) else t.snapCap })

/-- A half of PERIOD, CMPA or CMPB as it reads: 16-bit timers read 0 in the upper half (R260). -/
def half16 (s : State) (p n : Nat) (x : W32) : W32 :=
  if tcWidth (gTmr0 s p n).cfg = 1 then x &&& 0xFFFF else x

/-- A read of CNT by `reader` (R259, R269). -/
def tmrCntGet (s : State) (p n reader : Nat) : W32 × State :=
  if tmrIsHigh s p n then
    match tget none (gTmr s p (n - 1)).snapCnt reader with
    | some x => (x, mTmr s p (n - 1) fun t => { t with snapCnt := tdel t.snapCnt reader })
    | none => ((gTmr0 s p n).c, s)
  else if tcWidth (gTmr0 s p n).cfg = 2 then
    ((gTmr0 s p n).c, mTmr s p n fun t => { t with snapCnt := tset none t.snapCnt reader (some (gTmr0 s p (n + 1)).c) })
  else (half16 s p n (gTmr0 s p n).c, s)

def capstWord (t : Tmr) : W32 :=
  BitVec.ofNat 32 (t.capQ.length + 8 * b2n t.ovr + 16 * b2n t.emptyRd + 256 * t.drop.toNat)

def statWord (t : Tmr) : W32 :=
  BitVec.ofNat 32 (b2n (!t.down) + 2 * b2n t.sCmpA + 4 * b2n t.sCmpB + 8 * b2n t.sTop + 16 * b2n t.sBot +
    32 * b2n t.sShort + 64 * b2n t.cfgErr + 128 * b2n t.shadow.isSome)

/-- Register `sel` of a timer as `reader` reads it, and the read's effect; none: no such register (R270). The value is that of
the start of the ec (R259); CAP entries that another read of the ec has removed are gone. -/
def tmrGet (s : State) (p n sel reader : Nat) : Option (W32 × State) :=
  let t := gTmr0 s p n
  match sel with
  | 0 => some (t.cfg, s)
  | 1 => some (BitVec.ofNat 32 (b2n t.en), s)
  | 2 => some (tmrCntGet s p n reader)
  | 3 => some (half16 s p n (t.shadow.getD t.p), s)
  | 4 => some (half16 s p n t.cmpA, s)
  | 5 => some (half16 s p n t.cmpB, s)
  | 6 => some (tmrCapGet s p n reader)
  | 7 => some (if tmrIsHigh s p n then 0 else capstWord t, s)
  | 8 => some (if tmrIsHigh s p n then 0 else statWord t, s)
  | 9 => some (t.capPin.setWidth 32, s)
  | _ => none

/-- W1C fields of STAT; what is raised in the same ec stays 1 (R12). -/
def statPut (t : Tmr) (d : W32) : Tmr :=
  { t with
    sCmpA := t.sCmpA && !d.getLsbD 1 || t.ev.a, sCmpB := t.sCmpB && !d.getLsbD 2 || t.ev.b
    sTop := t.sTop && !d.getLsbD 3 || t.ev.top, sBot := t.sBot && !d.getLsbD 4 || t.ev.bot
    sShort := t.sShort && !d.getLsbD 5 || t.ev.short, cfgErr := t.cfgErr && !d.getLsbD 6 || t.ev.err }

/-- A write of `d` to CTL. -/
def ctlPut (s : State) (p n : Nat) (tmr : Bool) (d : W32) : State :=
  let s1 := tmrWr s p n 1 tmr fun s => mTmr s p n fun t => { t with en := d.getLsbD 0 }
  let s2 := if d.getLsbD 1 then tmrClr s1 p n else s1
  if d.getLsbD 2 then tmrSwcap s2 p n else s2

/-- A write of `d` to register `sel` by TMR (`tmr`) or through control space (R270); none: no such register. -/
def tmrPut (s : State) (p n sel : Nat) (tmr : Bool) (d : W32) : Option State :=
  let wr (f : State → State) : Option State := some (tmrWr s p n sel tmr f)
  match sel with
  | 0 => wr fun s => tmrCfgPut s p n d
  | 1 => some (ctlPut s p n tmr d)
  | 2 => wr fun s => cntPut s p n d
  | 3 => wr fun s => periodPut s p n d
  | 4 => wr fun s => cmpPut s p n false d
  | 5 => wr fun s => cmpPut s p n true d
  | 6 => some s
  | 7 =>
    let s1 := mTmr s p n fun t => { t with emptyRd := t.emptyRd && !d.getLsbD 4 }
    some (if d.getLsbD 3 then tmrOvrClr s1 p n else s1)
  | 8 => some (mTmr (stepAll s p) p n fun t => statPut t d)
  | 9 => wr fun s => mTmr s p n fun t => { t with capPin := d.extractLsb' 0 8 }
  | _ => none

/-! ### The timer commands; `e` is a logical engine -/

/-- A timer command acts on a mapped engine whose power is on. -/
def tmrUp (s : State) (e : Nat) : Bool := up s && isMapped s e && peOn s (physOf s e)

/-- R257 the step in which an up-counting timer reaches P. The rows of a step take it ahead of the end of its ec (log 9). -/
def execTimerTop (e : Fin 64) (n : Fin 4) (s : State) : Out :=
  let p := physOf s e.val
  act (tmrUp s e.val && (stepEv s p n.val).top) (fun s => stepFirst s p n.val) s

/-- R257 the step in which a down-counting timer reaches 0. -/
def execTimerBottom (e : Fin 64) (n : Fin 4) (s : State) : Out :=
  let p := physOf s e.val
  act (tmrUp s e.val && (stepEv s p n.val).bot) (fun s => stepFirst s p n.val) s

/-- R262 the step that raises a compare match. -/
def execTimerCompareMatch (e : Fin 64) (n : Fin 4) (s : State) : Out :=
  let p := physOf s e.val
  act (tmrUp s e.val && ((stepEv s p n.val).a || (stepEv s p n.val).b)) (fun s => stepFirst s p n.val) s

/-- R258, R266, R268 a master trigger reaches its slave in the ec after its pulse: clock step, reset, start, capture. -/
def execTimerTrigger (e : Fin 64) (n : Fin 4) (s : State) : Out :=
  let p := physOf s e.val
  act (tmrUp s e.val && (gTmr0 s p n.val).trg) (fun s => stepFirst s p n.val) s

/-- A control-space write to register `sel`, 0–9, of a timer. -/
def ctlWr (p n sel : Nat) (d : W32) (s : State) : State := (tmrPut s p n sel false d).getD s

/-- R260, R261 a write to TMRn_CFG. -/
def execTmrCfgWrite (e : Fin 64) (n : Fin 4) (data : W32) (s : State) : Out :=
  act (tmrUp s e.val) (ctlWr (physOf s e.val) n.val 0 data) s

/-- R257 CLR. -/
def execClr (e : Fin 64) (n : Fin 4) (s : State) : Out :=
  act (tmrUp s e.val) (fun s => tmrClr (stepAll s (physOf s e.val)) (physOf s e.val) n.val) s

/-- R268 SWCAP. -/
def execSwcap (e : Fin 64) (n : Fin 4) (s : State) : Out :=
  act (tmrUp s e.val) (fun s => tmrSwcap s (physOf s e.val) n.val) s

/-- R263 a write to CMPA or CMPB. -/
def execCmpWrite (e : Fin 64) (n : Fin 4) (b : Bool) (data : W32) (s : State) : Out :=
  act (tmrUp s e.val) (ctlWr (physOf s e.val) n.val (if b then 5 else 4) data) s

/-- R264 a write to PERIOD. -/
def execPeriodWrite (e : Fin 64) (n : Fin 4) (data : W32) (s : State) : Out :=
  act (tmrUp s e.val) (ctlWr (physOf s e.val) n.val 3 data) s

/-- R265 a write to CNT. -/
def execCntWrite (e : Fin 64) (n : Fin 4) (data : W32) (s : State) : Out :=
  act (tmrUp s e.val) (ctlWr (physOf s e.val) n.val 2 data) s

/-- The reader number of a requester (R255, R269): its master ID. -/
def readerOf : Requester → Nat
  | .host => 0xF00
  | .sm => 0x900
  | .tap => 0xF00
  | .thread g => g.val

/-- R268 a read of CAP through the engine control page. -/
def execTmrCapRead (who : Requester) (e : Fin 64) (n : Fin 4) (s : State) : Out :=
  act (tmrUp s e.val) (fun s => (tmrCapGet s (physOf s e.val) n.val (readerOf who)).2) s

/-- R268 a W1C write that clears TMRn_CAPST.OVR. -/
def execTmrOvrClear (e : Fin 64) (n : Fin 4) (s : State) : Out :=
  act (tmrUp s e.val) (fun s => tmrOvrClr s (physOf s e.val) n.val) s

/-- Thread g as a reader of chained halves by TMR: one of its own beside the master IDs that read through control space (R269). -/
def tmrReader (g : Nat) : Nat := 0x1000 + g % 32

/-- R193 TMR with w = 0: register `sel` of TMRn of the thread's own engine into D[d]; a load. -/
def execTmrRead (g : Fin 2048) (d : Fin 16) (n : Fin 4) (sel : BitVec 4) (s : State) : Out :=
  let k := thrKey s g.val
  keIssue (.tmrRead g d n sel) g (fun s =>
    match tmrGet s (k / 32) n.val sel.toNat (tmrReader g.val) with
    | none => takeFault s k 0x01 (gThr s k).r.pc
    | some (x, s1) => retireNext s1 k [.d d] [.d d x]) s

/-- R193 TMR with w = 1: D[d] into register `sel`. -/
def execTmrWrite (g : Fin 2048) (d : Fin 16) (n : Fin 4) (sel : BitVec 4) (s : State) : Out :=
  let k := thrKey s g.val
  keIssue (.tmrWrite g d n sel) g (fun s =>
    match tmrPut s (k / 32) n.val sel.toNat true (rD (gThr s k).r d) with
    | none => takeFault s k 0x01 (gThr s k).r.pc
    | some s1 => retireNext s1 k [] []) s

end Sys2Proof.Machine
end

