-- ==== Sys2Proof/Machine/Box.lean ====
section
/-! DEFINITION. The box office and the pool-manager port (spec/10 R355–R363, spec/02 R61–R65): pools and free caches, the
waiting FIFOs, chain records, and received packets from their end to the write of their buffers (R318, R366). -/

namespace Sys2Proof.Machine

/-! ### Choices that the manual leaves open -/

/-- One of `n` equal choices: the manual names none of them (log 4). -/
def pickN (s : State) (n : Nat) : Nat := if n ≤ 1 then 0 else (freeVal s).toNat % n

/-- The first number from `x` on, cyclically below `n`, that is not used; the fuel is the length of `used` plus 1. -/
def scanFree (used : List Nat) (n : Nat) : Nat → Nat → Nat
  | 0, x => x
  | f + 1, x => if used.contains x then scanFree used n f ((x + 1) % n) else x

/-- A free number below `n`; which one, the manual leaves open (log 4). -/
def pickFree (s : State) (used : List Nat) (n : Nat) : Nat := scanFree used n (used.length + 1) (pickN s n)

/-! ### Pools (R355, R356) -/

def poolSize (p : Pool) : Nat := 2 ^ p.log2.toNat

def poolsOn (s : State) : List Nat := (List.range 8).filter fun p => (gPool s p).en

/-- The pool of the list whose size is least, or greatest; of equal sizes the first. -/
def bestPool (s : State) (less : Nat → Nat → Bool) : List Nat → Option Nat
  | [] => none
  | p :: t => match bestPool s less t with
    | none => some p
    | some q => if less (poolSize (gPool s q)) (poolSize (gPool s p)) then some q else some p

/-- R356: the smallest enabled pool that fits the length, or the largest when none does; none: no pool. -/
def poolFor (s : State) (len : Nat) : Option Nat :=
  if !s.tr.box.en then none
  else match bestPool s (fun a b => decide (a < b)) ((poolsOn s).filter fun p => decide (len ≤ poolSize (gPool s p))) with
    | some p => some p
    | none => bestPool s (fun a b => decide (b < a)) (poolsOn s)

/-- Segments of `len` bytes in buffers of `size` (R357). -/
def segsOf (len size : Nat) : Nat := (len + size - 1) / size

/-- Source ID of the usher's stream (R384). -/
def ushSrc (stream : Nat) : W16 := srcId stream 0xB00

/-- Offset in external memory of a buffer (R355). -/
def bufOff (h : W32) : Nat := h.toNat * 256

/-! ### Free caches (R359) -/

/-- The first wait of a free after RETSTALL was last clear (R359). -/
def retStall (s : State) (p : Nat) : State :=
  if s.tr.box.retStall then s else logEv (mBox s fun b => { b with retStall := true }) 0x3103 [p]

/-- A handle enters the free cache, or waits for room in it; while the box office is off it goes to the pool manager (R359, R361). -/
def cachePut (s : State) (p : Nat) (h : W32) : State :=
  let n := (gPool s p).cache.length
  if n < 1024 then
    let s1 := mPool s p fun q => { q with cache := q.cache ++ [h], refill := q.refill && decide (n + 1 < 512) }
    if 512 ≤ n + 1 && s.tr.box.en then mBox s1 fun b => { b with filled := setBit b.filled p } else s1
  else if s.tr.box.en then retStall (mPool s p fun q => { q with waitFree := q.waitFree ++ [h] }) p
  else mPool s p fun q => { q with toPm := q.toPm ++ [h] }

/-- A freed handle (R359, R361). -/
def freeHandle (s : State) (p : Nat) (h : W32) : State :=
  if s.tr.box.en then cachePut s p h else mPool s p fun q => { q with toPm := q.toPm ++ [h] }

/-- A free into pool p does not have to wait (R359). -/
def canFree (s : State) (p : Nat) : Bool :=
  !s.tr.box.en || decide ((gPool s p).cache.length < 1024) || !(gPool s p).fifo.isEmpty

/-- A handle leaves the free cache (R359); which one, the manual leaves open. -/
def cacheTake (s : State) (p : Nat) : Option (W32 × State) :=
  let held := (gPool s p).cache
  match held[pickN s held.length]? with
  | none => none
  | some h =>
    some (h, mPool (if held.length ≤ 1 then s else useFree s) p fun q => { q with
      cache := held.eraseIdx (pickN s held.length), refill := q.refill || (s.tr.box.en && decide (held.length ≤ 129)) })

/-! ### Chain records (R357, R358) -/

/-- USH_CHAIN fields: records, and the offset of record i in external memory. -/
def chainCnt (s : State) : Nat := if fld s.tr.ush.chain 48 16 = 0 then 65536 else fld s.tr.ush.chain 48 16
def chainOn (s : State) : Bool := bitOf s.tr.ush.chain.toNat 0
def chainOff (s : State) (i : Nat) : Nat := fld s.tr.ush.chain 10 38 * 1024 + i * 1024 - extBase

/-- A free chain record is taken. -/
def chainTake (s : State) : Option (Nat × State) :=
  if s.tr.ush.chUsed.length < chainCnt s then
    let i := pickFree s s.tr.ush.chUsed (chainCnt s)
    some (i, mUsh (useFree s) fun u => { u with chUsed := insAsc i u.chUsed })
  else none

def chainRelease (s : State) (i : Nat) : State :=
  mUsh s fun u => { u with chUsed := u.chUsed.filter fun j => decide (j ≠ i) }

/-- The first wait for a chain record after CHWAIT was last clear (R358). -/
def chainWait (s : State) (r : Nat) : State :=
  if s.tr.ush.chWait then s else logEv (mUsh s fun u => { u with chWait := true }) 0x3110 [r]

/-- The record of a chain: its handles, then zeros (R357). -/
def chainBytes (hs : List W32) : List W8 :=
  ((hs.map fun (h : W32) => leBytes 4 h.toNat).flatten ++ List.replicate 1024 0).take 1024

/-- Handle i of a record's bytes. -/
def chainHandle (bs : List W8) (i : Nat) : W32 := BitVec.ofNat 32 (leNat ((bs.drop (4 * i)).take 4))

/-- The segments of one record whose read has ended are freed, as far as the read gave them (R357). -/
def chSettleOne (s : State) (c : ChFree) : State :=
  if jobDone s c.job then
    let ans := jobAns s c.job
    let s1 := mUsh (takeJob s c.job) fun u => { u with chFree := u.chFree.filter fun x => decide (x.job ≠ c.job) }
    let hs := if worst ans = .okay then (List.range c.cnt).map fun i => chainHandle (jobData ans) (c.first + i)
      else if c.whole then [c.handle] else []
    let s2 := hs.foldl (fun acc h => freeHandle acc c.pool h) s1
    if c.whole then chainRelease s2 c.chidx else s2
  else s

def chSettle (s : State) : State := s.tr.ush.chFree.foldl chSettleOne s

/-- Starts the read that frees `cnt` segments of a chained packet from segment `first` on (R357). -/
def chStart (s : State) (handle : W32) (pool chidx first cnt : Nat) (whole : Bool) : State :=
  let j := s.ms.nextJob
  let s1 := mUsh (newJob s) fun u => { u with chFree := u.chFree ++
    [{ job := j, pool := pool, handle := handle, first := first, cnt := cnt, chidx := chidx, whole := whole }] }
  chSettle (mpRead s1 (chainOff s chidx) 1024 (ushSrc 6) 2 j)

/-- Frees a packet's buffers and chain record (R349, R357). -/
def freeBufs (s : State) (handle : W32) (len pool : Nat) (chain : Bool) (chidx : Nat) : State :=
  if chain then chStart s handle pool chidx 0 (segsOf len (poolSize (gPool s pool))) true
  else freeHandle s pool handle

/-! ### Received packets (R318, R325, R354, R358, R366) -/

/-- Hardware requester r: the link whose first lane is r, or DUT port r - 64. -/
def gInq (s : State) (r : Nat) : Inq := if r < 64 then (gLink s r).fr.inq else (gDp s (r - 64)).inq

def mInq (s : State) (r : Nat) (f : Inq → Inq) : State :=
  if r < 64 then mLink s r fun l => { l with fr := { l.fr with inq := f l.fr.inq } }
  else mDp s (r - 64) fun d => { d with inq := f d.inq }

/-- The link discards what cannot be handed on (R325). -/
def bpDiscards (s : State) (r : Nat) : Bool := decide (r < 64) && bitOf (gLg s (r / 8)).live.toNat 12

/-- A frame of link r is discarded under BP (R325). -/
def bpDropCount (s : State) (r : Nat) : State :=
  let s1 := mLink s r fun l => { l with bpDrop := satInc l.bpDrop }
  if (gLg s (r / 8)).sBpDrop then s1 else logEv (mLg s1 (r / 8) fun g => { g with sBpDrop := true }) 0x4021 [r]

/-- Requester r waits for a handle of pool p (R360). -/
def joinFifo (s : State) (p r : Nat) : State :=
  let s1 := if bitOf s.tr.box.empty.toNat p then s
    else logEv (mBox s fun b => { b with empty := setBit b.empty p }) 0x3102 [p]
  mPool s1 p fun q =>
    if q.fifo.contains r || q.late.contains r then q
    else if q.fifo.length < 64 then { q with fifo := q.fifo ++ [r] } else { q with late := q.late ++ [r] }

/-- Takes handles for the packet of r while the cache has some and no requester stands before it. -/
def inqFill (p r need : Nat) : Nat → State → State
  | 0, s => s
  | n + 1, s =>
    if need ≤ (gInq s r).got.length || !(gPool s p).fifo.isEmpty then s
    else match cacheTake s p with
      | none => s
      | some (h, s1) => inqFill p r need n (mInq s1 r fun q => { q with got := q.got ++ [h] })

/-- Writes a packet's bytes into its buffers, segment by segment (R318). -/
def writeSegs (size : Nat) (src : W16) (job : Nat) : List W32 → List W8 → State → State
  | [], _, s => s
  | h :: t, bs, s => writeSegs size src job t (bs.drop size) (mpWrite s (bufOff h) (bs.take size) src 2 job)

/-- The oldest waiting packet of r has its handles: its writes are issued. -/
def inqWrite (s : State) (r : Nat) (pkt : RxPkt) (rest : List RxPkt) : State :=
  let q := gInq s r
  let j := s.ms.nextJob
  let s1 := mInq (newJob s) r fun q => { q with
    waiting := rest, got := [], chidx := none
    writing := q.writing ++ [{ pkt := pkt, handles := q.got, chidx := q.chidx.getD 0, job := j }] }
  let s2 := writeSegs (poolSize (gPool s pkt.pool)) (ushSrc (if r < 64 then 0 else 2)) j q.got pkt.bytes s1
  match q.chidx with
  | some i => mpWrite s2 (chainOff s i) (chainBytes q.got) (ushSrc 6) 2 j
  | none => s2

/-- The oldest waiting packet of a link is discarded, with what it had taken (R325). -/
def inqDiscard (s : State) (r : Nat) (pkt : RxPkt) (rest : List RxPkt) : State :=
  let q := gInq s r
  let s1 := mInq s r fun q => { q with waiting := rest, got := [], chidx := none }
  let s2 := q.got.foldl (fun acc h => freeHandle acc pkt.pool h) s1
  bpDropCount (match q.chidx with | some i => chainRelease s2 i | none => s2) r

/-- The chain record that `segs` segments need, which a requester may have taken already (R357). -/
def inqChain (s : State) (r segs : Nat) : Option State :=
  if segs ≤ 1 || (gInq s r).chidx.isSome then some s
  else (chainTake s).map fun x => mInq x.2 r fun q => { q with chidx := some x.1 }

/-- The largest enabled pool, whose buffers chains take (R318, R356). -/
def bigPool (s : State) : Option Nat :=
  if s.tr.box.en then bestPool s (fun a b => decide (b < a)) (poolsOn s) else none

/-- The frame in progress of link r asks for the handles of the segments that it has begun. A link that discards waits for none
before the frame has ended (R318, R325). -/
def inqLive (s : State) (r : Nat) : State :=
  match bigPool s with
  | none => s
  | some p =>
    let need := (gInq s r).live
    if need ≤ (gInq s r).got.length then s
    else match inqChain s r need with
      | none => if bpDiscards s r then s else chainWait s r
      | some s1 =>
        let s2 := inqFill p r need need s1
        if need ≤ (gInq s2 r).got.length || bpDiscards s2 r then s2 else joinFifo s2 p r

/-- Requester r goes on with its waiting packets: chain record, handles, writes. The fuel is one more than their number. -/
def inqAdvance (r : Nat) : Nat → State → State
  | 0, s => s
  | n + 1, s => match (gInq s r).waiting with
    | [] => inqLive s r
    | pkt :: rest =>
      match inqChain s r pkt.segs with
      | none => if bpDiscards s r then inqAdvance r n (inqDiscard s r pkt rest) else chainWait s r
      | some s1 =>
        let s2 := inqFill pkt.pool r pkt.segs pkt.segs s1
        if pkt.segs ≤ (gInq s2 r).got.length then inqAdvance r n (inqWrite s2 r pkt rest)
        else if bpDiscards s2 r then inqAdvance r n (inqDiscard s2 r pkt rest)
        else joinFifo s2 pkt.pool r

/-- Requester r goes on. -/
def inqRun (s : State) (r : Nat) : State := inqAdvance r ((gInq s r).waiting.length + 1) s

/-- The frame in progress of link r holds `len` bytes: from the size of the largest pool on it takes its buffers there, and its
chain record with the second segment (R318, R357). -/
def inqGrow (s : State) (r len : Nat) : State :=
  match bigPool s with
  | none => s
  | some p =>
    let n := segsOf len (poolSize (gPool s p))
    if len < poolSize (gPool s p) || decide (n ≤ (gInq s r).live) || (decide (1 < n) && !chainOn s) then s
    else inqRun (mInq s r fun q => { q with live := n }) r

/-- The frame in progress of link r is not to be a packet: what it took is freed (R323, R325). -/
def inqCancel (s : State) (r : Nat) : State :=
  let q := gInq s r
  if q.live = 0 then s
  else
    let s1 := mInq s r fun q => { q with live := 0 }
    match q.waiting, bigPool s with
    | [], some p =>
      let s2 := mPool (mInq s1 r fun q => { q with got := [], chidx := none }) p fun x => { x with
        fifo := x.fifo.filter fun y => decide (y ≠ r), late := x.late.filter fun y => decide (y ≠ r) }
      let s3 := q.got.foldl (fun acc h => freeHandle acc p h) s2
      match q.chidx with
      | some i => chainRelease s3 i
      | none => s3
    | _, _ => s1

/-- A packet's end has arrived (R318, R356, R358, R366): it is discarded when no pool or no chaining is available. One that has
begun to take buffers stays in their pool. -/
def inqPush (s : State) (r : Nat) (bytes : List W8) (info : W16) (dc tb : W64) (span : Nat) : State :=
  match (if (gInq s r).live = 0 then poolFor s bytes.length else bigPool s) with
  | none => if r < 64 then mLink (inqCancel s r) r fun l => { l with frmErr := satInc l.frmErr }
      else mDp s (r - 64) fun d => { d with frmErr := satInc d.frmErr }
  | some p =>
    let n := segsOf bytes.length (poolSize (gPool s p))
    if 1 < n && !chainOn s then mUsh (inqCancel s r) fun u => { u with chDrop := satInc u.chDrop }
    else inqRun (mInq s r fun q => { q with live := 0, waiting := q.waiting ++
      [{ bytes := bytes, info := info, pool := p, segs := n, dc := dc, tb := tb, span := span }] }) r

/-! ### Handles that arrive (R359, R360, R363) -/

/-- Requesters at the head of the FIFOs take cached handles in order (R360). The fuel is the number of cached handles. -/
def boxServe : Nat → State → State
  | 0, s => s
  | n + 1, s =>
    match (List.range 8).find? fun p => !(gPool s p).fifo.isEmpty && !(gPool s p).cache.isEmpty with
    | none => s
    | some p => match cacheTake s p, (gPool s p).fifo with
      | some (h, s1), r :: t =>
        boxServe n (inqRun (mInq (mPool s1 p fun q => { q with fifo := t }) r fun q => { q with got := q.got ++ [h] }) r)
      | _, _ => s

/-- Handles that wait for room in pool p's cache enter it: those of parties that wait, then those returned by masters
(R359, R363). -/
def roomIn (s : State) (p : Nat) : State :=
  if !s.tr.box.en then s
  else
    let q := gPool s p
    let k := min (1024 - q.cache.length) q.waitFree.length
    let s1 := (q.waitFree.take k).foldl (fun acc h => cachePut acc p h)
      (mPool s p fun q => { q with waitFree := q.waitFree.drop k })
    let back := (s1.tr.box.held.filter fun h => h.returning && decide (h.pool = p)).take (1024 - (gPool s1 p).cache.length)
    back.foldl (fun acc h => cachePut acc p h.handle)
      (mBox s1 fun b => { b with held := b.held.filter fun h => !back.contains h })

/-- A force-dropped packet whose buffers waited for room is freed, and its window entry with it (R353). -/
def roomWin (s : State) (e : Nat × Option Pkt) : State :=
  match e.2 with
  | some k =>
    if k.st = .freeing && canFree s k.pool then freeBufs (sWin s e.1 none) k.handle k.len k.pool k.chain k.chidx else s
  | none => s

/-- Requester r goes on if it waits for a chain record. -/
def chainGo (s : State) (r : Nat) : State :=
  match (gInq s r).waiting with
  | pkt :: _ => if 1 < pkt.segs && (gInq s r).chidx.isNone then inqRun s r else s
  | [] => if 1 < (gInq s r).live && (gInq s r).chidx.isNone then inqRun s r else s

/-- The box office goes on after handles, room or chain records have become available. -/
def boxRun (s : State) : State :=
  let s1 := s.tr.ush.win.foldl roomWin (foldNat roomIn s (List.range 8))
  let s2 := if s1.tr.ush.chUsed.length < chainCnt s1 then foldNat chainGo s1 (List.range 80) else s1
  boxServe ((List.range 8).foldl (fun n p => n + (gPool s2 p).cache.length) 0) s2

/-! ### The pool-manager port (R61–R65) -/

/-- The pool-manager port is out of its rest values (R82). -/
def pmUp (s : State) : Bool := up s && s.blk.portsOn

/-- R61, R359 PM_ALLOC_REQUEST: a request for 64 handles is accepted. -/
def execPmAllocRequest (p : Fin 8) (s : State) : Out :=
  let q := gPool s p.val
  act (pmUp s && s.tr.box.en && q.en && q.refill && q.req.isNone && !q.retry) (fun s =>
    mPool s p.val fun q => { q with req := some 64 }) s

/-- A beat is discarded: event 0x3101 with the pool, the handle and a reason whose coding the manual leaves open (R63,
R382; log 4). -/
def beatDiscard (s : State) (p : Nat) (h : W32) : State :=
  logEv (useFree s) 0x3101 [p, h.toNat, (freeVal s).toNat]

/-- A handle that pool p may hold (R63, R355). -/
def handleOk (q : Pool) (h : W32) : Bool :=
  decide (h ≠ 0) && decide (h.toNat < 2 ^ 30) && decide (h.toNat % (poolSize q / 256) = 0)

/-- R62, R63, R359, R360 PM_HANDLE_BEAT. -/
def execPmHandleBeat (p : Fin 8) (hnd : W32) (last empty parOk : Bool) (s : State) : Out :=
  act (pmUp s) (fun s =>
    match (gPool s p.val).req with
    | none => beatDiscard s p.val hnd
    | some n =>
      let s1 := mPool s p.val fun q => { q with req := if last || (n ≤ 1) then none else some (n - 1) }
      if !parOk then beatDiscard s1 p.val hnd
      else if empty then mPool s1 p.val fun q => { q with req := none, retry := s.tr.box.en }
      else if !handleOk (gPool s p.val) hnd then beatDiscard s1 p.val hnd
      else boxRun (cachePut s1 p.val hnd)) s

/-- R64, R359, R361 PM_FREE_RETURN: one handle goes back while `pm_free_ready` is 1. -/
def execPmFreeReturn (p : Fin 8) (ready : Bool) (s : State) : Out :=
  let q := gPool s p.val
  act (pmUp s && ready && (!q.toPm.isEmpty || decide (512 < q.cache.length) || (s.tr.box.draining && !q.cache.isEmpty)))
    (fun s => match (gPool s p.val).toPm with
      | h :: t => mPool s p.val fun q => { q with toPm := t, lastFree := some h }
      | [] => match cacheTake s p.val with
        | some (h, s1) => boxRun (mPool s1 p.val fun q => { q with lastFree := some h })
        | none => s) s

/-- R359 BOX_RETRY_EXPIRY. -/
def execBoxRetryExpiry (p : Fin 8) (s : State) : Out :=
  act (up s && (gPool s p.val).retry) (fun s => mPool s p.val fun q => { q with retry := false }) s

/-- R360 WAITING_FIFO_RETRY: a requester that found the FIFO full joins it. -/
def execWaitingFifoRetry (p : Fin 8) (s : State) : Out :=
  act (up s) (fun s => match (gPool s p.val).late with
    | r :: t =>
      if (gPool s p.val).fifo.length < 64 then
        boxRun (mPool s p.val fun q => { q with fifo := q.fifo ++ [r], late := t })
      else s
    | [] => s) s

/-! ### Box office registers (R356, R359, R361–R363, R380) -/

def boxCfgErr (s : State) : State := mBox s fun b => { b with cfgErr := true }

/-- A write of 1 to BOX_CFG.EN (R359, R361). -/
def boxOn (s : State) : State :=
  if s.tr.box.draining then boxCfgErr s
  else if s.tr.box.en then s
  else foldNat (fun acc p => mPool acc p fun q => { q with cache := [], refill := q.en, retry := false })
    (mBox s fun b => { b with en := true, filled := 0 }) (List.range 8)

/-- Some lane group or DUT port is enabled. -/
def anyPortOn (s : State) : Bool :=
  (s.tr.lg.any fun e => e.2.en) || (s.tr.dp.any fun e => e.2.en)

/-- Handles of pool p that masters have given back and that wait for room (R363). -/
def returned (s : State) (p : Nat) : List Held362 := s.tr.box.held.filter fun h => h.returning && decide (h.pool = p)

/-- A write of 0 to BOX_CFG.EN: what waits for room in a cache goes to the pool manager (R361). -/
def boxOff (s : State) : State :=
  if anyPortOn s then boxCfgErr s
  else if !s.tr.box.en then s
  else boxRun (foldNat (fun acc p => mPool acc p fun q => { q with
      refill := false, retry := false, toPm := q.toPm ++ q.waitFree ++ (returned s p).map Held362.handle, waitFree := [] })
    (mBox s fun b => { b with en := false, filled := 0, draining := true, held := b.held.filter fun h => !h.returning })
    (List.range 8))

/-- R359, R361 BOX_ENABLE. -/
def execBoxEnable (s : State) : Out := act (up s) boxOn s

/-- R361 BOX_DISABLE. -/
def execBoxDisable (s : State) : Out := act (up s) boxOff s

/-- R361 BOX_DRAIN_DONE. -/
def execBoxDrainDone (s : State) : Out :=
  act (up s && s.tr.box.draining &&
      (List.range 8).all fun p => (gPool s p).cache.isEmpty && (gPool s p).req.isNone) (fun s =>
    mBox s fun b => { b with draining := false }) s

/-- The value of BOX_POOLp. -/
def boxPoolGet (s : State) (p : Nat) : W64 :=
  BitVec.ofNat 64 ((gPool s p).log2.toNat + 256 * b2n (gPool s p).en)

/-- A write of BOX_POOLp as a whole (R356, R380). -/
def boxPoolPut (s : State) (p : Nat) (data : W64) : State :=
  if s.tr.box.en || s.tr.box.draining || decide (fld data 0 5 < 8) || decide (16 < fld data 0 5) then boxCfgErr s
  else mPool s p fun q => { q with log2 := BitVec.ofNat 5 (fld data 0 5), en := data.getLsbD 8 }

/-- R356 BOX_POOL_WRITE. -/
def execBoxPoolWrite (p : Fin 8) (data : W64) (s : State) : Out := act (up s) (fun s => boxPoolPut s p.val data) s

/-- R362 a read of BOX_ALLOCp by a master. -/
def boxAlloc (s : State) (master p : Nat) : W32 × State :=
  if !s.tr.box.en then (0, s)
  else if 4096 ≤ s.tr.box.held.length then (0, mBox s fun b => { b with allocFull := true })
  else if !(gPool s p).fifo.isEmpty then (0, s)
  else match cacheTake s p with
    | none => (0, s)
    | some (h, s1) => (h, boxRun (mBox s1 fun b => { b with
        held := b.held ++ [{ master := master, handle := h, pool := p, returning := false }] }))

/-- R362 BOX_ALLOC. -/
def execBoxAlloc (who : Requester) (p : Fin 8) (s : State) : Out :=
  act (up s) (fun s => (boxAlloc s (readerOf who) p.val).2) s

/-- The pool of a handle that the master holds and has not given back. -/
def heldPool (s : State) (master : Nat) (h : W32) : Option Nat :=
  (s.tr.box.held.find? fun x => decide (x.master = master ∧ x.handle = h) && !x.returning).map Held362.pool

/-- The handle leaves the master's holding. -/
def unhold (s : State) (master : Nat) (h : W32) : State :=
  mBox s fun b => { b with held := eraseFirst (fun x => decide (x.master = master ∧ x.handle = h) && !x.returning) b.held }

/-- R363 a write of BOX_FREE by a master; none: it does not hold the handle. -/
def boxFree (s : State) (master : Nat) (h : W32) : Option State :=
  match heldPool s master h with
  | none => none
  | some p =>
    if canFree s p then some (boxRun (freeHandle (unhold s master h) p h))
    else some (retStall (mBox s fun b => { b with held := b.held.map fun x =>
      if x.master = master ∧ x.handle = h then { x with returning := true } else x }) p)

/-- R363 BOX_FREE: a thread that does not hold the handle takes fault 0x0D; another writer's write is discarded. -/
def execBoxFree (who : Requester) (handle : W32) (s : State) : Out :=
  act (up s) (fun s => match boxFree s (readerOf who) handle with
    | some s1 => s1
    | none => match who with
      | .thread g => takeFault s (thrKey s g.val) 0x0D (gThr s (thrKey s g.val)).r.pc
      | _ => s) s

end Sys2Proof.Machine
end

