-- ==== Sys2Proof/Machine/KeAddr.lean ====
section
/-! DEFINITION. KE address and special-register instructions, the accumulator group and MAC, control transfers, waits and
the simple system instructions (spec/05 R154–R158, R177, R182–R191, R197; spec/06 R246; spec/13 R479). -/

namespace Sys2Proof.Machine

/-- Address form: A[ad] := f A[as]. -/
def adrForm (i : Instr) (g : Fin 2048) (ad as : Fin 8) (f : Regs → W48 → W48) (s : State) : Out :=
  keReg i g [] 1 (fun r => .ok [.a ad (f r (rA r as))]) s

/-- R177 AADDI. -/
def execAaddi (g : Fin 2048) (ad as : Fin 8) (imm19 : BitVec 19) (s : State) : Out :=
  adrForm (.aaddi g ad as imm19) g ad as (fun _ a => a + imm19.signExtend 48) s

/-- R177 AADD. -/
def execAadd (g : Fin 2048) (ad as : Fin 8) (dt : Fin 16) (s : State) : Out :=
  adrForm (.aadd g ad as dt) g ad as (fun r a => a + (rD r dt).signExtend 48) s

/-- R177 ASUB. -/
def execAsub (g : Fin 2048) (ad as : Fin 8) (dt : Fin 16) (s : State) : Out :=
  adrForm (.asub g ad as dt) g ad as (fun r a => a - (rD r dt).signExtend 48) s

/-- R177 AMOV. -/
def execAmov (g : Fin 2048) (ad as : Fin 8) (s : State) : Out := adrForm (.amov g ad as) g ad as (fun _ a => a) s

/-- R177 ALO: {A[as][47:32], D[dt]}. -/
def execAlo (g : Fin 2048) (ad as : Fin 8) (dt : Fin 16) (s : State) : Out :=
  adrForm (.alo g ad as dt) g ad as (fun r a => a.extractLsb' 32 16 ++ rD r dt) s

/-- R177 AHI: {D[dt][15:0], A[as][31:0]}. -/
def execAhi (g : Fin 2048) (ad as : Fin 8) (dt : Fin 16) (s : State) : Out :=
  adrForm (.ahi g ad as dt) g ad as (fun r a => (rD r dt).extractLsb' 0 16 ++ a.extractLsb' 0 32) s

/-- R177 ATOD. -/
def execAtod (g : Fin 2048) (as : Fin 8) (dt : Fin 16) (s : State) : Out :=
  keReg (.atod g as dt) g [] 1 (fun r => .ok [.d dt ((rA r as).extractLsb' 0 32)]) s

/-- R177 ATODH. -/
def execAtodh (g : Fin 2048) (as : Fin 8) (dt : Fin 16) (s : State) : Out :=
  keReg (.atodh g as dt) g [] 1 (fun r => .ok [.d dt (((rA r as).extractLsb' 32 16).setWidth 32)]) s

/-- R177 TAEQ. -/
def execTaeq (g : Fin 2048) (ad as : Fin 8) (s : State) : Out :=
  keReg (.taeq g ad as) g [] 1 (fun r => .ok [.t (decide (rA r ad = rA r as))]) s

/-- R177 TALTU, unsigned. -/
def execTaltu (g : Fin 2048) (ad as : Fin 8) (s : State) : Out :=
  keReg (.taltu g ad as) g [] 1 (fun r => .ok [.t (decide ((rA r ad).toNat < (rA r as).toNat))]) s

/-- R177 AMOVI: h 0 loads, 1 and 2 replace 16 bits, 3 is illegal. -/
def execAmovi (g : Fin 2048) (ad : Fin 8) (h : BitVec 2) (imm16 : W16) (s : State) : Out :=
  keReg (.amovi g ad h imm16) g [] 1 (fun r =>
    let a := rA r ad
    match h.toNat with
    | 0 => .ok [.a ad (imm16.setWidth 48)]
    | 1 => .ok [.a ad (a.extractLsb' 32 16 ++ (imm16 ++ a.extractLsb' 0 16))]
    | 2 => .ok [.a ad (imm16 ++ a.extractLsb' 0 32)]
    | _ => .error 0x01) s

/-- The special register `num` := the named register (R157). -/
def mtsWrite (r : Regs) (reg num : Nat) : Regs :=
  if num < 8 then { r with mb := tset 0 r.mb num (rA r (reg - 16)) }
  else if num < 16 then { r with ml := tset 0 r.ml (num - 8) ((rD r reg).extractLsb' 0 24) }
  else if num = 0x10 then { r with wake := r.wake.extractLsb' 32 32 ++ rD r reg }
  else if num = 0x11 then { r with wake := rD r reg ++ r.wake.extractLsb' 0 32 }
  else { r with fl := wordFlags (rD r reg) }

/-- R158 MTS. RSDEPTH and TID are read-only: fault 0x07. -/
def execMts (g : Fin 2048) (reg : BitVec 5) (num : W8) (s : State) : Out :=
  keCtl (.mts g reg num) g (fun t =>
    if !specialOk reg num then .error 0x01
    else if num = 0x13 ∨ num = 0x14 then .error 0x07
    else .ok (mtsWrite t.r reg.toNat num.toNat, 1, t.r.pc + 4)) s

/-- The 32-bit value of special register `num` (R157); `tid` is TID. -/
def mfsValue (r : Regs) (num : Nat) (tid : W32) : W32 :=
  if num < 16 then (rMl r (num - 8)).setWidth 32
  else if num = 0x10 then r.wake.extractLsb' 0 32
  else if num = 0x11 then r.wake.extractLsb' 32 32
  else if num = 0x12 then flagsWord r.fl
  else if num = 0x13 then BitVec.ofNat 32 r.rsd
  else tid

/-- R158 MFS. TID holds the logical thread in [10:0] and the physical engine in [22:16]. -/
def execMfs (g : Fin 2048) (reg : BitVec 5) (num : W8) (s : State) : Out :=
  keReg (.mfs g reg num) g [] 1 (fun r =>
    if !specialOk reg num then .error 0x01
    else if num.toNat < 8 then .ok [.a (reg.toNat - 16) (rMb r num.toNat)]
    else .ok [.d reg.toNat (mfsValue r num.toNat (BitVec.ofNat 32 (g.val + physOf s (g.val / 32) * 65536)))]) s

/-! ### Accumulators (R155, R182–R184) -/

/-- Operand of a multiplication, sign- or zero-extended to 80 bits (R180). -/
def ext80 (signed : Bool) (x : W32) : W80 := if signed then x.signExtend 80 else x.setWidth 80

/-- AC ± x × y (R180). -/
def macAcc (ac : W80) (x y : W32) (sg : BitVec 2) (neg : Bool) : W80 :=
  let p := ext80 (sg.getLsbD 1) x * ext80 (sg.getLsbD 0) y
  if neg then ac - p else ac + p

/-- AC xor the carry-less product (R180). -/
def clmacAcc (ac : W80) (x y : W32) : W80 := ac ^^^ BitVec.ofNat 80 (clmul x y)

/-- R182 MAC. -/
def execMac (g : Fin 2048) (ac : Fin 2) (rs rt : Fin 16) (sg : BitVec 2) (neg : Bool) (s : State) : Out :=
  keReg (.mac g ac rs rt sg neg) g [] 1 (fun r => .ok [.ac ac (macAcc (rAc r ac) (rD r rs) (rD r rt) sg neg)]) s

/-- R183 CLRAC. -/
def execClrac (g : Fin 2048) (ac : Fin 2) (s : State) : Out := keReg (.clrac g ac) g [] 1 (fun _ => .ok [.ac ac 0]) s

/-- R183 MFAC. -/
def execMfac (g : Fin 2048) (ac : Fin 2) (d : Fin 16) (par : BitVec 13) (s : State) : Out :=
  keReg (.mfac g ac d par) g [.d d] 1 (fun r =>
    match par.toNat with
    | 0 => .ok [.d d ((rAc r ac).extractLsb' 0 32)]
    | 1 => .ok [.d d ((rAc r ac).extractLsb' 32 32)]
    | 2 => .ok [.d d (((rAc r ac).extractLsb' 64 16).setWidth 32)]
    | _ => .error 0x01) s

/-- Clamp of MFACS: the 32-bit value and V. -/
def clamp32 (x : Int) : W32 × Bool :=
  if x < -(2 ^ 31 : Int) then (0x80000000, true)
  else if (2 ^ 31 : Int) ≤ x then (0x7FFFFFFF, true)
  else (BitVec.ofInt 32 x, false)

/-- R183 MFACS. -/
def execMfacs (g : Fin 2048) (ac : Fin 2) (d : Fin 16) (par : BitVec 13) (s : State) : Out :=
  keReg (.mfacs g ac d par) g [.d d, .v] 1 (fun r =>
    if 64 ≤ par.toNat then .error 0x01
    else
      let x := clamp32 ((rAc r ac).sshiftRight par.toNat).toInt
      .ok [.d d x.1, .v x.2]) s

/-- R183 MTAC. -/
def execMtac (g : Fin 2048) (ac : Fin 2) (d : Fin 16) (par : BitVec 13) (s : State) : Out :=
  keReg (.mtac g ac d par) g [] 1 (fun r =>
    let a := rAc r ac
    match par.toNat with
    | 0 => .ok [.ac ac (a.extractLsb' 32 48 ++ rD r d)]
    | 1 => .ok [.ac ac (a.extractLsb' 64 16 ++ (rD r d ++ a.extractLsb' 0 32))]
    | 2 => .ok [.ac ac ((rD r d).extractLsb' 0 16 ++ a.extractLsb' 0 64)]
    | 3 => .ok [.ac ac ((rD r d).signExtend 80)]
    | _ => .error 0x01) s

/-- R183 ACSHR, arithmetic. -/
def execAcshr (g : Fin 2048) (ac : Fin 2) (par : BitVec 13) (s : State) : Out :=
  keReg (.acshr g ac par) g [] 1 (fun r =>
    if 64 ≤ par.toNat then .error 0x01 else .ok [.ac ac ((rAc r ac).sshiftRight par.toNat)]) s

/-- R183 ACSHL. -/
def execAcshl (g : Fin 2048) (ac : Fin 2) (par : BitVec 13) (s : State) : Out :=
  keReg (.acshl g ac par) g [] 1 (fun r => if 64 ≤ par.toNat then .error 0x01 else .ok [.ac ac (rAc r ac <<< par.toNat)]) s

/-- R183, R184 CLRED. -/
def execClred (g : Fin 2048) (ac : Fin 2) (d : Fin 16) (par : BitVec 13) (s : State) : Out :=
  keReg (.clred g ac d par) g [.d d] 1 (fun r =>
    if 16 ≤ par.toNat then .error 0x01
    else .ok [.d d (clResidue ((rAc r ac).extractLsb' 0 64).toNat (rD r par.toNat))]) s

/-- R183 ACADD. -/
def execAcadd (g : Fin 2048) (ac : Fin 2) (s : State) : Out :=
  keReg (.acadd g ac) g [] 1 (fun r => .ok [.ac ac (rAc r ac + rAc r (1 - ac.val))]) s

/-- R183 ACXOR. -/
def execAcxor (g : Fin 2048) (ac : Fin 2) (s : State) : Out :=
  keReg (.acxor g ac) g [] 1 (fun r => .ok [.ac ac (rAc r ac ^^^ rAc r (1 - ac.val))]) s

/-! ### Control transfers (R186–R189) -/

/-- Conditions of BR; none: fault 0x01. -/
def condHolds (f : Flags) (c : Nat) : Option Bool :=
  match c with
  | 0 => some f.z
  | 1 => some (!f.z)
  | 2 => some (f.n != f.v)
  | 3 => some (f.n == f.v)
  | 4 => some (!f.z && f.n == f.v)
  | 5 => some (f.z || f.n != f.v)
  | 6 => some f.c
  | 7 => some (!f.c)
  | 8 => some f.n
  | 9 => some (!f.n)
  | 10 => some f.v
  | 11 => some (!f.v)
  | 12 => some f.t
  | 13 => some (!f.t)
  | 14 => some true
  | _ => none

/-- PC + 4 × sext48(off). -/
def relTarget {w : Nat} (pc : W48) (off : BitVec w) : W48 := pc + 4 * off.signExtend 48

/-- R186 BR. -/
def execBr (g : Fin 2048) (cond : BitVec 4) (off21 : BitVec 21) (s : State) : Out :=
  keCtl (.br g cond off21) g (fun t =>
    match condHolds t.r.fl cond.toNat with
    | none => .error 0x01
    | some true => .ok (t.r, 3, relTarget t.r.pc off21)
    | some false => .ok (t.r, 1, t.r.pc + 4)) s

/-- R186 DBNZ. -/
def execDbnz (g : Fin 2048) (d : Fin 16) (off21 : BitVec 21) (s : State) : Out :=
  keCtl (.dbnz g d off21) g (fun t =>
    let x := rD t.r d - 1
    let r := applyWr t.r (.d d x)
    if x = 0 then .ok (r, 1, t.r.pc + 4) else .ok (r, 3, relTarget t.r.pc off21)) s

/-- A transfer that pushes its return address (R187, R188). -/
def callTo (t : Thread) (target : W48) : Except W8 (Regs × Nat × W48) :=
  match rsPush t.r t.rstrap (t.r.pc + 4) with
  | none => .error 0x08
  | some r => .ok (r, 3, target)

/-- R187 CALL. -/
def execCall (g : Fin 2048) (off25 : BitVec 25) (s : State) : Out :=
  keCtl (.call g off25) g (fun t => callTo t (relTarget t.r.pc off25)) s

/-- R187 JR; an unaligned target takes fault 0x04. -/
def execJr (g : Fin 2048) (a : Fin 8) (s : State) : Out :=
  keCtl (.jr g a) g (fun t =>
    if (rA t.r a).toNat % 4 ≠ 0 then .error 0x04 else .ok (t.r, 3, rA t.r a)) s

/-- R187 CALLR. -/
def execCallr (g : Fin 2048) (a : Fin 8) (s : State) : Out :=
  keCtl (.callr g a) g (fun t => if (rA t.r a).toNat % 4 ≠ 0 then .error 0x04 else callTo t (rA t.r a)) s

/-- R187, R188 RET. -/
def execRet (g : Fin 2048) (s : State) : Out :=
  keCtl (.ret g) g (fun t =>
    match rsPop t.r with
    | none => .error 0x09
    | some (pc, r) => .ok (r, 3, pc)) s

/-- R189 RETE: the PC, the flags and the successor copy return; INH becomes 0 (R218). -/
def execRete (g : Fin 2048) (s : State) : Out :=
  let k := thrKey s g.val
  keIssue (.rete g) g (fun s =>
    match (gThr s k).save with
    | none => takeFault s k 0x01 (gThr s k).r.pc
    | some sv => mThr s k fun t =>
        endStep { ended t [] { t.r with fl := sv.fl } 3 sv.pc with save := none, succ := sv.succ }) s

/-! ### Waits and time (R190, R191, R203, R22) -/

/-- R190, R22 WAITT: a THR_WAKE below the timebase has passed, so LATE is set and the thread goes on; otherwise it waits. -/
def execWaitt (g : Fin 2048) (s : State) : Out :=
  let k := thrKey s g.val
  keIssue (.waitt g) g (fun s =>
    if (gThr s k).r.wake.toNat < s.tb.now.toNat then
      mThr s k fun t => endStep { ended t [] t.r 1 (t.r.pc + 4) with late := true }
    else enterWait s k .waitt) s

/-- R190 WAITE: with an enabled source pending the thread stays in RUN, and entry begins as if the source had been recognized
in this ec (R203). -/
def execWaite (g : Fin 2048) (mask : W16) (s : State) : Out :=
  let k := thrKey s g.val
  keIssue (.waite g mask) g (fun s =>
    if mask = 0 then takeFault s k 0x01 (gThr s k).r.pc
    else
      match recognized (mThr s k fun t => { t with waitK := some (.waite mask) }) k with
      | some bit => mThr s k fun t => { t with
          waitK := some (.waite mask), entering := some bit, loaded := [], dbg := { t.dbg with bpPass := false } }
      | none => enterWait s k (.waite mask)) s

/-- R191 LDTB: all 64 bits of the timebase into D[d], D[d+1]; d is even. -/
def execLdtb (g : Fin 2048) (d : Fin 16) (s : State) : Out :=
  keReg (.ldtb g d) g [.d d, .d (d + 1)] 1 (fun _ =>
    if evenReg d then .ok (wPair d s.tb.now) else .error 0x01) s

/-! ### System instructions that need no other unit (R197) -/

/-- R197 NOP. -/
def execNop (g : Fin 2048) (s : State) : Out := keReg (.nop g) g [] 1 (fun _ => .ok []) s

/-- R197 TSET. -/
def execTset (g : Fin 2048) (s : State) : Out := keReg (.tset g) g [] 1 (fun _ => .ok [.t true]) s

/-- R197 TCLR. -/
def execTclr (g : Fin 2048) (s : State) : Out := keReg (.tclr g) g [] 1 (fun _ => .ok [.t false]) s

/-- The line buffer's entries go (R144). -/
def dropLineBuffer (s : State) (p : Nat) : State := mIc s p fun c => { c with lb := [] }

/-- SYNCI is done: the line buffer is invalid, and the word costs 3 slots, one of them before the wait where it waited (R144). -/
def synciDone (s : State) (k : Nat) : State :=
  mThr (dropLineBuffer s (k / 32)) k fun t => endStep (ended t [] t.r 3 (t.r.pc + 4))

/-- R144 SYNCI: it waits until every STI of the thread has reached every cache array. -/
def execSynci (g : Fin 2048) (s : State) : Out :=
  let k := thrKey s g.val
  keIssue (.synci g) g (fun s =>
    if (gThr s k).posted.any fun p => p.sti.isSome then hold s k .synci []
    else synciDone s k) s

/-- R167 FENCE: it waits until every posted access has been acknowledged. -/
def execFence (g : Fin 2048) (s : State) : Out :=
  let k := thrKey s g.val
  keIssue (.fence g) g (fun s =>
    if (gThr s k).posted.isEmpty then retireNext s k [] [] else hold s k .fence []) s

/-- The swap that is pending for the thread accepts curtain point `num`, and INH is 0 (R246). -/
def curtainAccepts (t : Thread) (num : W16) : Bool :=
  t.swap && t.save.isNone && match t.swapNums with
    | none => true
    | some ns => ns.any fun n => decide (n = num)

/-- The thread stops at its curtain point: WAIT with CURTAIN at 1, PC at the word after the CPT (R203, R246). -/
def curtainStop (s : State) (k : Nat) : State :=
  mThr s k fun t => endStep { t with
    st := .wait, waitK := some .curtain, curtain := true, held := none, succ := none, wdCount := 0, loaded := []
    r := { t.r with pc := t.r.pc + 4 }, dbg := { t.dbg with bpPass := false } }

/-- R197, R213, R246 CPT. -/
def execCpt (g : Fin 2048) (num : W16) (s : State) : Out :=
  let k := thrKey s g.val
  keIssue (.cpt g num) g (fun s =>
    let s1 := mThr s k fun t => { t with wdCount := 0 }
    if curtainAccepts (gThr s k) num then
      let s2 := mThr s1 k fun t => { t with cptAt := num }
      if (gThr s k).posted.isEmpty then curtainStop s2 k
      else hold s2 k .cptStop []
    else retireNext s1 k [] []) s

/-- R197, R479 BKPT: it halts the thread after the word when BKEN is 1 while THREAD is set; otherwise it is a NOP. -/
def execBkpt (g : Fin 2048) (num : W16) (s : State) : Out :=
  let k := thrKey s g.val
  keIssue (.bkpt g num) g (fun s =>
    if (gThr s k).dbg.bken && s.mg.lock.unlocked && s.mg.lock.scope.getLsbD 0 then
      mThr s k fun t =>
        let t1 := ended t [] t.r 1 (t.r.pc + 4)
        { t1 with st := .halt, dbg := { dbgHalted t1.dbg 4 with bknum := num } }
    else retireNext s k [] []) s

/-- R171, R172 a word with an unused encoding takes fault 0x01. -/
def execIllegalOpcode (g : Fin 2048) (s : State) : Out := keReg (.illegalOpcode g) g [] 1 (fun _ => .error 0x01) s

end Sys2Proof.Machine
end

