-- ==== Sys2Proof/Machine/Callboard.lean ====
section
/-! DEFINITION. The callboard (spec/06 R225–R245, spec/05 R194): send and receive sides, arrivals, aborts, stalled routes and
standstill. A message carries the number of its route, so that what belongs to a route that has ended is discarded where it
arrives (R227; log 13). -/

namespace Sys2Proof.Machine

/-! ### Both sides -/

/-- The address names an endpoint (R225). -/
def namesEp (s : State) (a : Nat) : Bool := decide (a < 8192) && isMapped s (a / 128)

def cbSend (s : State) (kind : CbKind) (src dst route : Nat) : State :=
  mCb s fun c => { c with fly := c.fly ++ [{ kind := kind, src := src, dst := dst, route := route, ec := s.ec }] }

/-- CREDIT becomes pending at the endpoint's thread (R215). -/
def creditEv (s : State) (ep : Nat) : State := latchG s (ep / 4) 12

/-- The send side holds a route. -/
def txHeld (c : Ce) : Bool := decide (c.txst = .opening ∨ c.txst = .opn ∨ c.txst = .closing)

/-- The send side becomes ABORTED (R229). DESIGN CHOICE (log 20): its credits become 0; the manual's table names no value for them
until the next CHOPEN. -/
def txAborted (s : State) (ep : Nat) (cause : BitVec 3) : State :=
  creditEv (mCe s ep fun c => { c with txst := .aborted, cause := cause, cred := 0 }) ep

/-- The receive side is granted to a sender: the OPEN word enters the empty buffer and the grant travels back (R227,
R230). -/
def rxGrant (s : State) (ep src route : Nat) : State :=
  cbSend (mCe s ep fun c => { c with
    rxBusy := true, rxBuf := [.opn src], rxAbt := none, rxPeer := src, rxRoute := route, lastGrant := src
    stallLaps := 0, stallRep := false }) .grant ep src route

/-- The receive side becomes FREE. -/
def rxFree (c : Ce) : Ce := { c with rxBusy := false, rxBuf := [], rxAbt := none, stallLaps := 0, stallRep := false }

/-- An ABORT word is queued behind the words in the buffer, unless a CLOSE or an ABORT already ends the message (R230). -/
def rxAbort (c : Ce) (cause : W32) : Ce :=
  if c.rxBusy && c.rxAbt.isNone && !c.rxBuf.contains .close then { c with rxAbt := some cause } else c

/-! ### The functions of CB (R194, R229, R230) -/

/-- What a function does: it completes with its writes, faults, or would wait. -/
inductive CbRes where
  | done (s : State) (ws : List RWr)
  | fault (s : State) (c : W8)
  | wait

/-- CHOPEN, CHW or CHCLOSE on an ABORTED send side: IDLE with fault 0x0B. -/
def txAbortFault (s : State) (ep : Nat) : CbRes := .fault (mCe s ep fun c => { c with txst := .idle }) 0x0B

def cbOpen (s : State) (ep dst : Nat) : CbRes :=
  match (gCe s ep).txst with
  | .idle =>
    if namesEp s dst then
      let r := (gCe s ep).route + 1
      .done (cbSend (mCe s ep fun c => { c with txst := .opening, cred := 0, txPeer := dst, route := r }) .opn ep dst r) []
    else .done (txAborted s ep 3) []
  | .opening => .fault s 0x11
  | .opn => .fault s 0x11
  | .closing => .wait
  | .aborted => txAbortFault s ep

/-- CHW and CHCLOSE send a word for one credit. -/
def cbWord (s : State) (ep : Nat) (w : CbWord) (next : TxSt) : CbRes :=
  match (gCe s ep).txst with
  | .idle => .fault s 0x11
  | .opening => .wait
  | .opn =>
    let c := gCe s ep
    if c.cred = 0 then .wait
    else .done (cbSend (mCe s ep fun c => { c with cred := c.cred - 1, txst := next }) (.word w) ep c.txPeer c.route) []
  | .closing => .fault s 0x11
  | .aborted => txAbortFault s ep

/-- CHR: the oldest word, or the queued ABORT (R226, R230). -/
def cbRead (s : State) (ep d : Nat) : CbRes :=
  let c := gCe s ep
  let out (x kind : W32) : List RWr := [.d d x, .d (d + 1) kind]
  let credit (s : State) : State := cbSend s .credit ep c.rxPeer c.rxRoute
  match c.rxBuf with
  | .opn a :: t => .done (credit (mCe s ep fun c => { c with rxBuf := t })) (out (BitVec.ofNat 32 a) 1)
  | .data x :: t => .done (credit (mCe s ep fun c => { c with rxBuf := t })) (out x 0)
  | .close :: _ => .done (cbSend (mCe s ep rxFree) .closeNews ep c.rxPeer c.rxRoute) (out 0 2)
  | [] => match c.rxAbt with
    | some cause => .done (mCe s ep rxFree) (out cause 3)
    | none => .wait

/-- CHABORT: both routes that the endpoint holds (R229–R231). -/
def cbAbort (s : State) (ep : Nat) : State :=
  let c := gCe s ep
  let s1 := if txHeld c then
      cbSend (mCe s ep fun c => { c with txst := .idle, cred := 0 }) (.abortRx 1) ep c.txPeer c.route
    else mCe s ep fun c => { c with txst := .idle }
  if c.rxBusy then cbSend (mCe s1 ep rxFree) (.abortTx 1) ep c.rxPeer c.rxRoute else s1

/-- A function issues: it completes, faults, holds the thread, or with try at 1 does nothing and sets T := 0 (R194). -/
def cbIssue (i : Instr) (g : Fin 2048) (tr : Bool) (op : HeldOp) (bad : Bool)
    (f : State → Nat → Regs → CbRes) (s : State) : Out :=
  let k := thrKey s g.val
  keIssue i g (fun s =>
    let pc := (gThr s k).r.pc
    if bad then takeFault s k 0x01 pc
    else match f s g.val (gThr s k).r with
      | .done s1 ws => retireNext s1 k [] (ws ++ if tr then [.t true] else [])
      | .fault s1 c => takeFault s1 k c pc
      | .wait => if tr then retireNext s k [] [.t false] else hold s k op []) s

/-- R194 CHOPEN. -/
def execChopen (g : Fin 2048) (ce : Fin 4) (d : Fin 16) (tr : Bool) (s : State) : Out :=
  cbIssue (.chopen g ce d tr) g tr (.chopen ce ((rD (gThr s (thrKey s g.val)).r d).toNat % 2 ^ 14) tr) false
    (fun s g r => cbOpen s (g * 4 + ce) ((rD r d).toNat % 2 ^ 14)) s

/-- R194 CHW. -/
def execChw (g : Fin 2048) (ce : Fin 4) (d : Fin 16) (tr : Bool) (s : State) : Out :=
  cbIssue (.chw g ce d tr) g tr (.chw ce (rD (gThr s (thrKey s g.val)).r d) tr) false
    (fun s g r => cbWord s (g * 4 + ce) (.data (rD r d)) .opn) s

/-- R194 CHCLOSE. -/
def execChclose (g : Fin 2048) (ce : Fin 4) (tr : Bool) (s : State) : Out :=
  cbIssue (.chclose g ce tr) g tr (.chclose ce tr) false (fun s g _ => cbWord s (g * 4 + ce) .close .closing) s

/-- R194 CHR; d is even. -/
def execChr (g : Fin 2048) (ce : Fin 4) (d : Fin 16) (tr : Bool) (s : State) : Out :=
  cbIssue (.chr g ce d tr) g tr (.chr ce d tr) (!evenReg d) (fun s g _ => cbRead s (g * 4 + ce) d) s

/-- R194 CHABORT: it never waits. -/
def execChabort (g : Fin 2048) (ce : Fin 4) (tr : Bool) (s : State) : Out :=
  cbIssue (.chabort g ce tr) g tr .fence false (fun s g _ => .done (cbAbort s (g * 4 + ce)) []) s

/-! ### Arrivals (R228–R231) -/

/-- The first message for endpoint ep that `want` takes and that no earlier message of the same path precedes, and the
rest. -/
def takeMsg (want : CbMsg → Bool) (ep : Nat) : List CbMsg → List Nat → Option (CbMsg × List CbMsg)
  | [], _ => none
  | m :: t, seen =>
    if m.dst = ep && !seen.contains m.src && want m then some (m, t)
    else
      match takeMsg want ep t (if m.dst = ep then m.src :: seen else seen) with
      | some (x, r) => some (x, m :: r)
      | none => none

/-- What an arriving message does at its endpoint. A message of a route that has ended, or a word behind a queued ABORT (R230), is
discarded. -/
def deliver (s : State) (m : CbMsg) : State :=
  let c := gCe s m.dst
  let tx := decide (c.route = m.route) && decide (c.txPeer = m.src)
  let rx := c.rxBusy && decide (c.rxRoute = m.route) && decide (c.rxPeer = m.src)
  match m.kind with
  | .opn =>
    if !c.rxBusy && c.waiting.isEmpty then rxGrant s m.dst m.src m.route
    else mCe s m.dst fun c => { c with waiting := c.waiting ++ [(m.src, m.route)] }
  | .grant =>
    if tx && decide (c.txst = .opening) then creditEv (mCe s m.dst fun c => { c with txst := .opn, cred := 7 }) m.dst
    else s
  | .word w =>
    if rx && c.rxAbt.isNone then mCe s m.dst fun c => { c with rxBuf := c.rxBuf ++ [w], stallLaps := 0, stallRep := false } else s
  | .credit =>
    if tx && decide (c.txst = .opn) then
      let s1 := mCe s m.dst fun c => { c with cred := c.cred + 1 }
      if c.cred = 0 then creditEv s1 m.dst else s1
    else s
  | .closeNews => if tx && decide (c.txst = .closing) then mCe s m.dst fun c => { c with txst := .idle } else s
  | .abortRx cause =>
    if rx then mCe s m.dst fun c => rxAbort c cause
    else mCe s m.dst fun c => { c with waiting := c.waiting.filter fun w => decide (w ≠ (m.src, m.route)) }
  | .abortTx cause => if tx && txHeld c then txAborted s m.dst cause else s

/-- The message may arrive: L is 4 within an engine and at least 10 between engines (R228). -/
def cbDue (s : State) (m : CbMsg) : Bool := decide (m.ec + (if m.src / 128 = m.dst / 128 then 4 else 10) ≤ s.ec)

/-- The message arrives now at the latest: L is 4 within an engine and at most 36 between engines (R228). -/
def cbMust (s : State) (m : CbMsg) : Bool := decide (m.ec + (if m.src / 128 = m.dst / 128 then 4 else 36) ≤ s.ec)

/-- The next message of a kind arrives at ep: one that must, before one that may. -/
def arrive (want : CbKind → Bool) (ep : Nat) (s : State) : Out :=
  let go (ok : CbMsg → Bool) : Option (CbMsg × List CbMsg) := takeMsg (fun m => want m.kind && ok m) ep s.en.cb.fly []
  match (go (cbMust s)).orElse fun _ => go (cbDue s) with
  | some (m, rest) => act (up s) (fun s => deliver (mCb s fun c => { c with fly := rest }) m) s
  | none => .next s

/-- The row by which a message arrives. -/
def arriveRow (m : CbMsg) : Instr :=
  let ep := Fin.ofNat 8192 m.dst
  match m.kind with
  | .opn => .cbOpenArrive ep
  | .grant => .cbGrantArrive ep
  | .word _ => .cbWordArrive ep
  | .credit => .cbCreditArrive ep
  | .closeNews => .cbCloseNews ep
  | .abortRx _ => .cbAbortArrive ep
  | .abortTx _ => .cbAbortArrive ep

/-- R230 an OPEN request arrives. -/
def execCbOpenArrive (ep : Fin 8192) (s : State) : Out :=
  arrive (fun k => decide (k = .opn)) ep.val s

/-- R229 a grant arrives. -/
def execCbGrantArrive (ep : Fin 8192) (s : State) : Out :=
  arrive (fun k => decide (k = .grant)) ep.val s

/-- R228 a word arrives. -/
def execCbWordArrive (ep : Fin 8192) (s : State) : Out :=
  arrive (fun k => match k with | .word _ => true | _ => false) ep.val s

/-- R229 a credit arrives. -/
def execCbCreditArrive (ep : Fin 8192) (s : State) : Out :=
  arrive (fun k => decide (k = .credit)) ep.val s

/-- R229 the news that the CLOSE has been removed arrives. -/
def execCbCloseNews (ep : Fin 8192) (s : State) : Out :=
  arrive (fun k => decide (k = .closeNews)) ep.val s

/-- R229–R231 an abort arrives. -/
def execCbAbortArrive (ep : Fin 8192) (s : State) : Out :=
  arrive (fun k => match k with | .abortRx _ => true | .abortTx _ => true | _ => false) ep.val s

/-- The waiting request whose sender follows `last` in ascending order with wrap-around (R231). -/
def nextWaiting (last : Nat) (ws : List (Nat × Nat)) : Option (Nat × Nat) :=
  let key (w : Nat × Nat) : Nat := if last < w.1 then w.1 else w.1 + 8192
  ws.foldl (fun acc w => match acc with
    | none => some w
    | some a => if key w < key a then some w else some a) none

/-- R230, R231 the next waiting request is granted. -/
def execCbNextGrant (ep : Fin 8192) (s : State) : Out :=
  let c := gCe s ep.val
  match nextWaiting c.lastGrant c.waiting with
  | some (src, route) =>
    act (up s && !c.rxBusy) (fun s =>
      rxGrant (mCe s ep.val fun c => { c with waiting := c.waiting.filter fun w => decide (w ≠ (src, route)) })
        ep.val src route) s
  | none => .next s

/-! ### Aborts from outside (R233) -/

/-- A requester may write an engine control page (R170). -/
def mayWritePage (s : State) : Requester → Bool
  | .thread g => isMapped s (g.val / 32) && isSupv s (thrKey s g.val)
  | _ => true

/-- CE_CTL.ABORT: the incoming route, if any. -/
def ceAbortRx (s : State) (ep who : Nat) : State :=
  let c := gCe s ep
  if c.rxBusy then
    logEv (cbSend (mCe s ep fun c => rxAbort c 2) (.abortTx 2) ep c.rxPeer c.rxRoute) 0x6103 [ep, c.rxPeer, who]
  else s

/-- CE_CTL.ABORT_TX: the outgoing route, if any. -/
def ceAbortOut (s : State) (ep who : Nat) : State :=
  let c := gCe s ep
  if txHeld c then
    logEv (txAborted (cbSend s (.abortRx 2) ep c.txPeer c.route) ep 2) 0x6103 [c.txPeer, ep, who]
  else s

/-- R233 CE_CTL.ABORT. -/
def execCeAbort (who : Requester) (ep : Fin 8192) (s : State) : Out :=
  act (up s && namesEp s ep.val && mayWritePage s who) (fun s => ceAbortRx s ep.val (readerOf who)) s

/-- R233 CE_CTL.ABORT_TX. -/
def execCeAbortTx (who : Requester) (ep : Fin 8192) (s : State) : Out :=
  act (up s && namesEp s ep.val && mayWritePage s who) (fun s => ceAbortOut s ep.val (readerOf who)) s

/-! ### Stalled routes (R224, R236) -/

/-- A bit of ENG_NOTICE becomes 1: NOTICE becomes pending at the prompter when it was 0 (R215, R224). -/
def setNotice (s : State) (p bit : Nat) : State :=
  if (gEng s p).notice.getLsbD bit then s
  else latchEv (mEng s p fun e => { e with notice := setBit e.notice bit }) (p * 32) 2

/-- The receive side is BUSY and has nothing to give. -/
def rxStarved (c : Ce) : Bool := c.rxBusy && c.rxBuf.isEmpty && c.rxAbt.isNone

/-- R236 STALLED_ROUTE. -/
def execStalledRoute (ep : Fin 8192) (s : State) : Out :=
  let c := gCe s ep.val
  act (up s && isMapped s (ep.val / 128) && rxStarved c && !c.stallRep && decide (c.tmo ≠ 0) &&
      decide (c.tmo.toNat ≤ c.stallLaps)) (fun s =>
    let s1 := mCe s ep.val fun c => { c with stall := true, stallRep := true }
    logEv (setNotice s1 (physOf s (ep.val / 128)) 0) 0x6102 [ep.val, c.rxPeer]) s

/-- The tick's share of one endpoint at position 0: a lap without a word (R236). DESIGN CHOICE (log 20): the laps count from the
lap in which the side became empty; the manual's words also allow a count from the arrival of the last word. -/
def ceLap (c : Ce) : Ce :=
  if rxStarved c && !c.stallRep then { c with stallLaps := c.stallLaps + 1 }
  else if c.rxBusy && !rxStarved c then { c with stallLaps := 0 } else c

/-! ### Standstill (R242–R245) -/

/-- Delivers every message in flight, for the snapshot of R243; `n` is their number. -/
def deliverAll : Nat → State → State
  | 0, s => s
  | n + 1, s => match s.en.cb.fly with
    | [] => s
    | m :: rest => deliverAll n (deliver (mCb s fun c => { c with fly := rest }) m)

/-- Edges of the send sides of thread g that CREDIT waits for: their receivers (R242). -/
def creditEdges (s : State) (g : Nat) : List Nat :=
  (List.range 4).filterMap fun n =>
    let c := gCe s (g * 4 + n)
    if c.txst = .opening ∨ (c.txst = .opn ∧ c.cred = 0) then some (c.txPeer / 4) else none

/-- Edges of one WAITE bit; an empty list means a bit without an edge. -/
def bitEdges (s : State) (g : Nat) (bit : Nat) : List Nat :=
  if bit = 12 then creditEdges s g
  else
    let c := gCe s (g * 4 + (bit - 8))
    if c.rxBusy then [c.rxPeer / 4] else []

/-- The thread has registered a watch (R242, R417). -/
def hasWatch (s : State) (g : Nat) : Bool := s.mv.au.any fun e => e.2.watches.any fun w => decide (w.2 = g)

/-- Bits 3–7 and 13–15, and bits 8–12 (R242). -/
def liveBits : W16 := 0xE0F8
def chanBits : W16 := 0x1F00

/-- The edges of logical thread g; none: the thread is live (R242). -/
def waitEdges (s : State) (g : Nat) : Option (List Nat) :=
  let k := thrKey s g
  let t := gThr s k
  let en := (if t.save.isSome then 0 else t.evEn) ||| waitMask t
  if !isMapped s (g / 32) || decide (en &&& liveBits ≠ 0) || hasWatch s g || (recognized s k).isSome then none
  else match t.st with
    | .run => match t.held with
      | some h => match h.op with
        | .chr ce _ _ =>
          let c := gCe s (g * 4 + ce)
          if rxStarved c then some [c.rxPeer / 4] else none
        | .chw ce _ _ =>
          let c := gCe s (g * 4 + ce)
          if c.txst = .opening ∨ (c.txst = .opn ∧ c.cred = 0) then some [c.txPeer / 4] else none
        | .chclose ce _ =>
          let c := gCe s (g * 4 + ce)
          if c.txst = .opening ∨ (c.txst = .opn ∧ c.cred = 0) then some [c.txPeer / 4] else none
        | .chopen ce _ _ =>
          let c := gCe s (g * 4 + ce)
          if c.txst = .closing then some [c.txPeer / 4] else none
        | _ => none
      | none => none
    | .wait =>
      let m := waitMask t
      if m &&& chanBits = 0 then none
      else
        let bs := [8, 9, 10, 11, 12].filter fun i => m.getLsbD i
        if bs.any fun i => (bitEdges s g i).isEmpty then none else some (bs.map (bitEdges s g)).flatten
    | _ => none

/-- Removes, `n` times over, the threads with an edge that leaves the set (R243). -/
def settle : Nat → List (Nat × List Nat) → List (Nat × List Nat)
  | 0, w => w
  | n + 1, w => settle n (w.filter fun x => x.2.all fun d => w.any fun y => decide (y.1 = d))

/-- The part of the graph that contains the threads `seed`, by edges in either direction; `n` rounds. -/
def growPart (w : List (Nat × List Nat)) : Nat → List Nat → List Nat
  | 0, part => part
  | n + 1, part =>
    growPart w n ((w.filter fun x => part.contains x.1 || x.2.any part.contains ||
      w.any fun y => part.contains y.1 && y.2.contains x.1).map Prod.fst)

/-- The connected parts of the union of all standstill sets (R243). DESIGN CHOICE (log 20): parts found at one evaluation are
taken by their lowest members, ascending; the manual gives them no order. -/
def partsOf (w : List (Nat × List Nat)) : Nat → List Nat → List (List Nat)
  | 0, _ => []
  | n + 1, left => match left with
    | [] => []
    | g :: _ =>
      let part := growPart w w.length [g]
      part :: partsOf w n (left.filter fun x => !part.contains x)

/-- The standstill sets of the snapshot. -/
def standstillSets (s : State) : List (List Nat) :=
  let v := deliverAll s.en.cb.fly.length s
  let gs := v.en.thr.filterMap fun e => match logicalOf v (e.1 / 32) with
    | some l => some (l * 32 + e.1 % 32)
    | none => none
  let gs := gs.foldl (fun acc g => insAsc g acc) []
  let w := settle gs.length (gs.filterMap fun g => (waitEdges v g).map fun es => (g, es))
  partsOf w w.length (w.map Prod.fst)

/-- Log records and reports of one new set (R244). -/
def reportSet (s : State) (set : List Nat) : State :=
  let blocks := (set.map fun g => g / 64).foldl (fun acc b => insAsc b acc) []
  let num := s.en.cb.ssNum.toNat
  let s1 := blocks.foldl (fun acc b =>
    logEv acc 0x6101 [num, b, blocks.length, (set.filter fun g => decide (g / 64 = b)).foldl
      (fun m g => m + 2 ^ (g % 64)) 0]) s
  let s2 := mCb s1 fun c => { c with ssNum := c.ssNum + 1 }
  if set.any fun g => decide (g % 32 = 0) then mSm s2 fun m => { m with engRpt := true }
  else ((set.map fun g => g / 32).foldl (fun acc e => insAsc e acc) []).foldl (fun acc e => latchG acc (e * 32) 1) s2

/-- R242–R245 STANDSTILL_EVALUATION, in each ec whose number is a multiple of 256 (the phase: DESIGN CHOICE log 20). -/
def execStandstillEvaluation (s : State) : Out :=
  act (up s && decide (s.ec % 256 = 0)) (fun s =>
    let sets := standstillSets s
    let new := sets.filter fun x => !s.en.cb.ssSets.contains x
    let s1 := new.foldl reportSet s
    mCb s1 fun c => { c with ssSets := sets, ssMap := sets.flatten.foldl (fun acc g => insAsc g acc) [] }) s

end Sys2Proof.Machine
end

