-- ==== Sys2Proof/Machine/Movers.lean ====
section
/-! DEFINITION. Memory accesses that a mover makes inside one command (spec/02 R51–R57, R59, spec/10 R384, spec/11 R410): the
stage manager, the streams of the pin banks, the DUT ports' movers and the DMA channels' descriptors. The command brings what
memory answers (`MemAns`); each request still passes its port (log 10). -/

namespace Sys2Proof.Machine

/-- Event of an uncorrectable error in the wings (R391). -/
def wingsEcc (s : State) (a master : Nat) : State := logEv s 0x2402 [wingsBank a, wingsBase + a, master]

/-- What a mover's read shows where atomic units hold lines (R410): byte i is that of external-memory offset off + i. -/
def extSee (s : State) : Nat → List W8 → List W8
  | _, [] => []
  | off, b :: bs => ((auByte s (portOf off) (extBase + off)).getD b) :: extSee s (off + 1) bs

/-- The 256-byte pieces of a range of external memory, offset and length (R51). The fuel is at least their number. -/
def pieces (off n : Nat) : Nat → List (Nat × Nat)
  | 0 => []
  | k + 1 =>
    if n = 0 then [] else (off, min n (256 - off % 256)) :: pieces (off + min n (256 - off % 256)) (n - min n (256 - off % 256)) k

/-- The pieces that go to memory: no atomic unit holds all of their lines (R410). -/
def openPieces (s : State) (off n : Nat) : List (Nat × Nat) :=
  (pieces off n (n / 256 + 2)).filter fun x => !auHolds s (portOf x.1) (extBase + x.1) x.2

/-- Tags of a port in use (R52, R57). -/
def tagsUsed (p : Mp) : List Nat := p.out.map Prod.fst ++ p.stuck

/-- What an access ends in: with every line in an atomic unit no request can fail, and one that finds a port without a free tag
times out (R57). -/
def passAns (s : State) (ps : List (Nat × Nat)) (ans : MemAns) : MemAns :=
  if ps.isEmpty then match ans with | .ok d => .ok d | _ => .ok []
  else if ps.any fun x => decide (2048 ≤ (tagsUsed (gMp s (portOf x.1))).length) then .timeout
  else ans

/-- How a request ends. -/
def ansSt : MemAns → MpSt
  | .ok _ => .okay
  | .dataErr => .dataErr
  | .decErr => .decErr
  | .timeout => .timeout

/-- A request enters its port's staging and leaves it: the occupancy rises by one and falls again (R59). -/
def passStage (r : MpReq) (p : Mp) : Mp :=
  panicUpd { panicUpd { p with stage := if p.stage.length < 512 then p.stage ++ [r] else p.stage } with stage := p.stage }

/-- A mover's request passes its port and ends as `st` says: accepted under a free tag, answered, and logged when it failed (R52,
R53, R55, R57, R421). Whether a request that timed out had been accepted, the manual leaves open (log 4). -/
def mpPass (s : State) (r : MpReq) (st : MpSt) : State :=
  let m := portOf r.off
  let p := gMp s m
  let tag := pickFree s (tagsUsed p) 2048
  let s0 := mMp (useFree (useFree s)) m (passStage r)
  if st = .timeout && (decide (2048 ≤ (tagsUsed p).length) || freeBit (useFree s)) then
    logEv (mMp s0 m fun p => { p with tmos := satInc p.tmos }) 0x2101 [m, r.src.toNat]
  else
    let s1 := mMp s0 m fun p => mpDrive (freeVal (useFree s)) (freeBit s) tag r p
    match st with
    | .okay => mMp s1 m (wdDone tag)
    | .timeout => logEv (mMp s1 m fun p => { p with stuck := insAsc tag p.stuck, tmos := satInc p.tmos }) 0x2101
        [m, r.src.toNat, tag]
    | e => logEv (mMp s1 m fun p => wdDone tag { p with errRsp := satInc p.errRsp }) 0x2104
        [m, r.src.toNat, localAddr r.off, if e = .dataErr then 1 else 2]

/-- The requests of an access in order. The one with number `bad` ends as `st`, the others well. -/
def passAll (write : Bool) (src : W16) (qos : BitVec 2) (off : Nat) (data : List W8) (bad : Nat) (st : MpSt) :
    Nat → List (Nat × Nat) → State → State
  | _, [], s => s
  | i, x :: ps, s =>
    let r : MpReq := { write := write, off := x.1, n := x.2, data := (data.drop (x.1 - off)).take x.2, mask := [], src := src
                       qos := qos, job := 0 }
    passAll write src qos off data bad st (i + 1) ps (mpPass s r (if i = bad then st else .okay))

/-- A mover reads `n` bytes of external memory; none: a request failed. Which one, the manual leaves open (log 4). -/
def extRead (s : State) (src : W16) (qos : BitVec 2) (off n : Nat) (ans : MemAns) : State × Option (List W8) :=
  let ps := openPieces s off n
  let a := passAns s ps ans
  (passAll false src qos off [] (pickN s ps.length) (ansSt a) 0 ps (useFree s),
   match a with
   | .ok d => some (extSee s off ((d ++ List.replicate n 0).take n))
   | _ => none)

/-- The bytes that a mover writes to external memory as the lines that atomic units hold, and their watches, see them (R410,
R417). The fuel is at least the number of pieces. -/
def extPut (s : State) (off : Nat) (bs : List W8) : Nat → State
  | 0 => s
  | k + 1 =>
    if bs.isEmpty then s
    else
      let m := 256 - off % 256
      let u := portOf off
      extPut (fireWatches (auMerge s u (extBase + off) (bs.take m)) u (extBase + off) (bs.take m).length) (off + m)
        (bs.drop m) k

/-- A mover writes external memory; false: a request failed. -/
def extWrite (s : State) (src : W16) (qos : BitVec 2) (off : Nat) (bs : List W8) (ans : MemAns) : State × Bool :=
  let ps := openPieces s off bs.length
  let a := passAns s ps ans
  (passAll true src qos off bs (pickN s ps.length) (ansSt a) 0 ps (extPut (useFree s) off bs (bs.length / 256 + 2)),
   decide (ansSt a = .okay))

/-- The reads of pieces, offset and length, each with an answer of its own: their lengths and bytes, none where a read failed. -/
def pieceReads (src : W16) (qos : BitVec 2) : List (Nat × Nat) → List MemAns → State → State × List (Nat × Option (List W8))
  | [], _, s => (s, [])
  | x :: ps, as, s =>
    let y := extRead s src qos x.1 x.2 (as.headD (.ok []))
    let z := pieceReads src qos ps as.tail y.1
    (z.1, (x.2, y.2) :: z.2)

/-- The pieces of `n` bytes in buffers of `size` bytes with these handles (R357). -/
def segPieces (size : Nat) : List W32 → Nat → List (Nat × Nat)
  | [], _ => []
  | h :: t, n => pieces (bufOff h) (min n size) (min n size / 256 + 2) ++ segPieces size t (n - size)

/-- Handles of a packet's segments: the first alone when the chain record could not be read (R365). -/
def segHandles (handle : W32) (len size : Nat) (chain : Bool) : Option (List W8) → List W32
  | some r => if chain then (List.range (segsOf len size)).map (chainHandle r) else [handle]
  | none => [handle]

/-- What a packet's fetch brings: its bytes in pieces, those that a failed read left out as none, and whether its chain record
could not be read. -/
structure Fetched where
  parts : List (Nat × Option (List W8))
  lost  : Bool

/-- The usher's stream `stream` fetches a packet: its chain record, when it has one, and then its segments (R357, R384). Bytes
beyond the first segment are left out when the record could not be read (R365). -/
def pktFetch (s : State) (stream : Nat) (handle : W32) (len pool : Nat) (chain : Bool) (chidx : Nat) (ans : PktAns) :
    State × Fetched :=
  let size := if chain then poolSize (gPool s pool) else len
  let rec_ := if chain then extRead s (ushSrc 6) 2 (chainOff s chidx) 1024 ans.chain else (s, none)
  let lost := chain && rec_.2.isNone
  let n := if lost then min len size else len
  let x := pieceReads (ushSrc stream) 2 (segPieces size (segHandles handle len size chain rec_.2) n) ans.data rec_.1
  (x.1, { parts := x.2 ++ (if n < len then [(len - n, none)] else []), lost := lost })

/-- The bytes of a fetch, with those of `fill` where it left some out. -/
def fetchBytes (fill : List W8) : List (Nat × Option (List W8)) → List W8
  | [] => []
  | (n, some bs) :: t => bs ++ fetchBytes (fill.drop n) t
  | (n, none) :: t => fill.take n ++ fetchBytes (fill.drop n) t

/-- A mover reads `n` bytes at an engine-view address inside one step; none: the read failed, and is logged. -/
def moverRead (s : State) (src : W16) (qos : BitVec 2) (a n : Nat) (ans : MemAns) : State × Option (List W8) :=
  match spaceOf a with
  | .wings off => match wingsRead s off n with
    | some bs => (s, some bs)
    | none => (wingsEcc s off (src.toNat % 4096), none)
  | .ext off => extRead s src qos off n ans
  | _ => (s, none)

/-- A mover writes bytes at an engine-view address inside one step; false: the write failed, and is logged. -/
def moverWrite (s : State) (src : W16) (qos : BitVec 2) (a : Nat) (bs : List W8) (ans : MemAns) : State × Bool :=
  match spaceOf a with
  | .wings off => (wingsWrite s off bs, true)
  | .ext off => extWrite s src qos off bs ans
  | _ => (s, false)

end Sys2Proof.Machine
end

