-- ==== Sys2Proof/Machine/Usher.lean ====
section
/-! DEFINITION. The usher (spec/10 R342–R354; spec/01 R16–R19; spec/05 R195): the window and its domains, entries, dispatch,
TAKE and RELEASE, retirement, domain timeouts and force-drops. -/

namespace Sys2Proof.Machine

/-- The block is out from behind the curtain and not frozen by CHECKPOINT or RESTORE (R461). -/
def live (s : State) : Bool := up s && !s.mg.sm.frozen

/-! ### The window (R342, R343) -/

/-- Window entries reserved for notices (R343). -/
def noteReserved (s : State) : Nat :=
  ((List.range 16).filter fun n => bitOf (gDp s n).cfg.toNat 24 && (gDp s n).notice.isNone).length

/-- A source treats the window as full. -/
def windowFull (s : State) : Bool := decide (16384 ≤ s.tr.ush.win.length + noteReserved s)

/-- The domain is at its limit (R343, R379). -/
def domFull (s : State) (od : Nat) : Bool :=
  decide ((gDom s od).lim.toNat ≠ 0 ∧ (gDom s od).lim.toNat < 16384 ∧ (gDom s od).lim.toNat ≤ (gDom s od).q.length)

def roomFor (s : State) (od : Nat) : Bool := !windowFull s && !domFull s od

/-- An index of the window that is not in use; which one, the manual leaves open (log 4). -/
def winPick (s : State) : Nat := pickFree s (s.tr.ush.win.map Prod.fst) 16384

/-- The packet takes window entry w and the next sequence number of its domain (R342, R350, R352). -/
def enterDom (s : State) (w : Nat) (k : Pkt) : State :=
  let d := gDom s k.od
  mDom (sWin s w (some { k with seq := d.nextSeq })) k.od fun d => { d with
    nextSeq := d.nextSeq + 1, q := d.q ++ [w]
    headTb := if d.q.isEmpty then s.tb.now else d.headTb, headTo := d.headTo && !d.q.isEmpty }

/-- Entry w leaves its domain; the one behind it becomes the head (R352). -/
def leaveDom (s : State) (od w : Nat) : State :=
  mDom s od fun d => { d with
    q := d.q.filter fun x => decide (x ≠ w)
    headTb := if d.q.head? = some w then s.tb.now else d.headTb, headTo := d.headTo && decide (d.q.head? ≠ some w) }

/-- The first wait for a window entry after WFULL was last clear (R354). -/
def windowWait (s : State) (od src : Nat) : State :=
  if s.tr.ush.wfull then s else logEv (mUsh s fun u => { u with wfull := true }) 0x3010 [od, src]

/-- A received packet that has been written enters domain `od` (R344). -/
def enterRx (s : State) (od : Nat) (src : BitVec 2) (x : RxWr) : State :=
  let w := winPick s
  enterDom (useFree s) w {
    handle := x.handles.headD 0, len := x.pkt.bytes.length, pool := x.pkt.pool, od := od, chain := decide (1 < x.pkt.segs)
    src := src, recirc := false, seq := 0, info := x.pkt.info, chidx := x.chidx, tb := s.tb.now, st := .window }

/-- A notice of DUT port n enters the port's NOTE_OD with the level of `dut_clk_running` (R370). -/
def enterNotice (s : State) (n : Nat) (level : Bool) : State :=
  let w := winPick s
  mDp (enterDom (useFree s) w {
    handle := BitVec.ofNat 32 (0xC0000000 + w), len := 0, pool := 0, od := fld (gDp s n).cfg 32 8, chain := false
    src := 3, recirc := false, seq := 0, info := BitVec.ofNat 16 (b2n level + n * 256), chidx := 0, tb := s.tb.now
    st := .window }) n fun d => { d with notice := some (w, level) }

/-! ### Waiting hardware sources (R343, R354) -/

/-- The domain of hardware source r. -/
def srcOd (s : State) (r : Nat) : Nat :=
  if r < 64 then (gLane s r).od.toNat else fld (gDp s (r - 64)).cfg 16 8

/-- The oldest packet of source r has been written and its domain has room. -/
def srcReady (s : State) (r : Nat) : Bool :=
  match (gInq s r).writing with
  | x :: _ => (x.job = 0 || jobDone s x.job) && roomFor s (srcOd s r)
  | [] => false

/-- Source r is the next after the one that was given the last entry, of those that wait and can go (R343). -/
def srcTurn (s : State) (r : Nat) : Bool :=
  let key (x : Nat) : Nat := if s.tr.ush.lastSrc < x then x else x + 97
  s.tr.ush.wsrc.all fun x => x = r || !srcReady s x || decide (key r < key x)

/-- The packet of source r whose writes have ended enters, or waits for an entry. -/
def srcEnter (s : State) (r : Nat) (src : BitVec 2) (fin : State → RxWr → Pkt → State) : State :=
  match (gInq s r).writing with
  | [] => s
  | x :: rest =>
    let od := srcOd s r
    if roomFor s od then
      let s1 := mInq (takeJob s x.job) r fun q => { q with writing := rest }
      let w := winPick s1
      let s2 := mUsh (enterRx s1 od src x) fun u => { u with wsrc := u.wsrc.filter fun y => decide (y ≠ r), lastSrc := r }
      match gWin s2 w with
      | some k => fin s2 x k
      | none => s2
    else if bpDiscards s r then
      let k := x.pkt
      let s1 := mInq (takeJob s x.job) r fun q => { q with writing := rest }
      let s2 := bpDropCount (boxRun (freeBufs s1 (x.handles.headD 0) k.bytes.length k.pool (decide (1 < k.segs)) x.chidx)) r
      windowWait s2 od r
    else windowWait (mUsh s fun u => { u with wsrc := if u.wsrc.contains r then u.wsrc else u.wsrc ++ [r] }) od r

/-- R318, R344 FRAMER_ENTER. -/
def execFramerEnter (link : Fin 64) (s : State) : Out :=
  act (live s && srcTurn s link.val && match (gInq s link.val).writing with
      | x :: _ => x.job = 0 || jobDone s x.job
      | [] => false) (fun s =>
    srcEnter s link.val 0 fun s1 _ _ => mLink s1 link.val fun l => { l with rxFrames := satInc l.rxFrames }) s

/-! ### Entries of scripts (R345) -/

/-- The outcome of a thread's write to USH_ENTER: the state, or fault 0x0D. -/
def ushEnter (s : State) (g : Nat) (handle : W32) (len od : Nat) : Option State :=
  let res (s : State) (r : BitVec 2) (q : W32) : State :=
    mUsh s fun u => { u with entres := tset (0, 0) u.entres g (r, q) }
  match heldPool s g handle with
  | none => none
  | some p => some (
    if len = 0 ∨ poolSize (gPool s p) < len then res s 3 0
    else if !roomFor s od then res s 2 0
    else
      let w := winPick s
      res (enterDom (useFree (unhold s g handle)) w {
        handle := handle, len := len, pool := p, od := od, chain := false, src := 2, recirc := false, seq := 0
        info := 0, chidx := 0, tb := s.tb.now, st := .held g }) 1 (gDom s od).nextSeq)

/-- R345 USH_ENTER: a handle that the thread does not hold takes fault -/
def execUshEnter (g : Fin 2048) (handle : W32) (len : BitVec 17) (od : Fin 256) (s : State) : Out :=
  act (live s && isMapped s (g.val / 32)) (fun s =>
    match ushEnter s g handle len.toNat od with
    | some s1 => s1
    | none => takeFault s (thrKey s g.val) 0x0D (gThr s (thrKey s g.val)).r.pc) s

/-! ### Dispatch and TAKE (R346, R347) -/

/-- The engine that receives the domain's next packet: the next of its set after the previous one that is mapped and has
room. -/
def nextEngine (s : State) (d : Dom) : Option Nat :=
  ((List.range 64).map fun i => (d.ptr + 1 + i) % 64).find? fun e =>
    bitOf d.engines.toNat e && isMapped s e && decide ((gEng s (physOf s e)).dq.length + (gEng s (physOf s e)).dqNew.length < 64)

/-- The domain's oldest packet that waits in the window. -/
def nextPkt (s : State) (d : Dom) : Option (Nat × Pkt) :=
  d.q.findSome? fun w => match gWin s w with
    | some k => if k.st = .window then some (w, k) else none
    | none => none

/-- R346 DISPATCH: at most one packet per domain and ec. A TAKE receives it in the next ec at the earliest (R347). -/
def execDispatch (od : Fin 256) (s : State) : Out :=
  let d := gDom s od.val
  match nextPkt s d, nextEngine s d with
  | some (w, k), some e =>
    act (live s && !d.dispNow) (fun s =>
      let p := physOf s e
      let s1 := sWin s w (some { k with st := .queued p })
      mEng (mDom s1 od.val fun d => { d with ptr := e, dispNow := true }) p fun x => { x with dqNew := x.dqNew ++ [w] }) s
  | _, _ => .next s

/-- What a TAKE that receives a packet writes, T := 1 among it whatever its try (R195, R347). -/
def takeWrites (k : Pkt) (r1 : Nat) : List RWr :=
  [.d r1 k.handle,
   .d (r1 + 1) (BitVec.ofNat 32 (k.len % 2 ^ 17 + k.pool * 2 ^ 17 + k.od * 2 ^ 20 + b2n k.chain * 2 ^ 28 +
     k.src.toNat * 2 ^ 29 + b2n k.recirc * 2 ^ 31)),
   .d (r1 + 2) k.seq,
   .d (r1 + 3) (BitVec.ofNat 32 (k.info.toNat + (if k.chain then k.chidx * 2 ^ 16 else 0))),
   .t true]

/-- R195, R347 TAKE: r1 is a multiple of 4; on an empty queue it waits, or with try at 1 sets T := 0. -/
def execTake (g : Fin 2048) (r1 : Fin 16) (tr : Bool) (s : State) : Out :=
  let k := thrKey s g.val
  keIssue (.take g r1 tr) g (fun s =>
    if r1.val % 4 ≠ 0 then takeFault s k 0x01 (gThr s k).r.pc
    else if tr && (gEng s (k / 32)).dq.isEmpty then retireNext s k [] [.t false]
    else serveEng (mEng (hold s k (.take r1 tr none) []) (k / 32) fun e => { e with takers := e.takers ++ [k % 32] })
      (k / 32)) s

/-- A TAKE whose packet has been handed over completes: the thread becomes its holder (R18). -/
def takeDone (s : State) (g k w r1 : Nat) : State :=
  match gWin s w with
  | some x => finishHeld (sWin s w (some { x with st := .held g })) k (takeWrites x r1)
  | none => s

/-! ### RELEASE (R348) -/

/-- The window entry that thread g holds with this handle (R18). -/
def heldEntry (s : State) (g : Nat) (handle : W32) : Option (Nat × Pkt) :=
  s.tr.ush.win.findSome? fun e => match e.2 with
    | some k => if k.handle = handle ∧ k.st = .held g then some (e.1, k) else none
    | none => none

/-- Largest length of a packet: its pool's size times its segments (R348). -/
def maxLen (s : State) (k : Pkt) : Nat :=
  let z := poolSize (gPool s k.pool)
  z * (if k.chain then segsOf k.len z else 1)

/-- The disposition breaks a rule of R348 whatever the packet. -/
def dispBad (w : Nat) (len : Option W32) : Bool :=
  decide (3 < bits w 2 0) || decide (bits w 7 3 ≠ 0) || decide (bits w 15 14 ≠ 0) || decide (bits w 31 27 ≠ 0) ||
    ((bits w 2 0 = 0 || bits w 2 0 = 3) && decide (bits w 13 8 ≠ 0)) || (bits w 2 0 = 2 && decide (15 < bits w 13 8)) ||
    (bits w 2 0 ≠ 3 && decide (bits w 23 16 ≠ 0)) || (bitOf w 25 && len.isNone)

/-- The disposition breaks a rule for this packet: a notice accepts DROP alone, and LENSET keeps to its range. -/
def dispBadFor (s : State) (k : Pkt) (w : Nat) (len : Option W32) : Bool :=
  if k.src = 3 then decide (w ≠ 0)
  else bitOf w 25 && match len with
    | some n => decide (bits n.toNat 16 0 = 0 ∨ maxLen s k < bits n.toNat 16 0)
    | none => true

/-- RELEASE at the usher: the state and the fault of its response (R18, R348, R353). -/
def releaseAt (s : State) (g : Nat) (handle disp : W32) (len : Option W32) : State × Option W8 :=
  let w := disp.toNat
  match heldEntry s g handle with
  | some (i, k) =>
    if dispBad w len || dispBadFor s k w len then (s, some 0x13)
    else
      let d : Disp := { word := disp
                        newLen := if bitOf w 25 then len.map fun n => bits n.toNat 16 0 else none }
      (mDom (sWin s i (some { k with st := .released d })) k.od fun x => { x with relLast := some (handle, s.ec) }, none)
  | none =>
    if dispBad w len then (s, some 0x13)
    else match s.tr.ush.orphans.find? fun o => decide (o.1 = g ∧ o.2.handle = handle) with
      | some o =>
        let s1 := mUsh s fun u => { u with orphans := eraseFirst (fun x => decide (x = o)) u.orphans }
        (if o.2.src = 3 then s1 else boxRun (freeBufs s1 handle o.2.len o.2.pool o.2.chain o.2.chidx), some 0x0D)
      | none => (s, some 0x0D)

/-- Sends a RELEASE; its response brings the fault, if any (R151, R166). -/
def sendRelease (s : State) (g k : Nat) (handle disp : W32) (len : Option W32) (pc : W48) : State :=
  let r := releaseAt s g handle disp len
  post r.1 k { pc := pc, job := none, fault := r.2, sti := none }

/-- R195 RELEASE: posted; with r2 even it reads D[r2+1] too. -/
def execRelease (g : Fin 2048) (r1 r2 : Fin 16) (s : State) : Out :=
  let k := thrKey s g.val
  keIssue (.release g r1 r2) g (fun s =>
    let r := (gThr s k).r
    let len := if evenReg r2 then some (rD r (r2 + 1)) else none
    if 8 ≤ (gThr s k).posted.length then hold s k (.ninthRelease (rD r r1) (rD r r2) len) []
    else retireNext (sendRelease s g k (rD r r1) (rD r r2) len r.pc) k [] []) s

/-! ### Retirement (R349–R351, R16, R326, R364, R370, R375) -/

/-- Entry w has retired: it leaves its domain and the window and is counted. -/
def retired (s : State) (od w : Nat) (drop : Bool) : State :=
  mDom (leaveDom (sWin s w none) od w) od fun d => { d with
    retired := satInc d.retired, dropped := if drop then satInc d.dropped else d.dropped }

/-- The segments that a new length leaves over are freed (R348, R357). -/
def trimSegs (s : State) (k : Pkt) (len : Nat) : State :=
  let z := poolSize (gPool s k.pool)
  if k.chain && decide (segsOf len z < segsOf k.len z) then
    chStart s k.handle k.pool k.chidx (segsOf len z) (segsOf k.len z - segsOf len z) false
  else s

/-- A notice retires; a change since the level that it reported makes a new one (R370). -/
def noticeGone (s : State) (n : Nat) : State :=
  let d := gDp s n
  let s1 := mDp s n fun d => { d with notice := none }
  match d.notice with
  | some (_, level) =>
    if d.clkRun ≠ level ∧ d.en ∧ bitOf d.cfg.toNat 24 then enterNotice s1 n d.clkRun else s1
  | none => s1

/-- The bytes of a delivery-queue entry (R364). -/
def dqBytes (e : DqEnt) : List W8 :=
  leBytes 4 e.handle.toNat ++ leBytes 4 e.seq.toNat ++
    leBytes 4 (e.len % 2 ^ 17 + e.od * 2 ^ 17 + b2n e.err * 2 ^ 25 + b2n e.chain * 2 ^ 26) ++ leBytes 4 e.chidx

def dqSize (d : Dp) : Nat := 2 ^ fld d.dqBase 48 5
def dqOff (d : Dp) : Nat := fld d.dqBase 12 36 * 4096 - extBase

/-- A packet enters DUT port n's delivery queue (R16, R364). -/
def dqPush (s : State) (n : Nat) (k : Pkt) (len : Nat) (err : Bool) : State :=
  let j := s.ms.nextJob
  let d := gDp s n
  let e : DqEnt := { handle := k.handle, seq := k.seq, len := len, od := k.od, err := err, chain := k.chain
                     chidx := if k.chain then k.chidx else 0, pool := k.pool, tb := k.tb, job := j }
  let s1 := mDp (newJob s) n fun d => { d with
    dq := d.dq ++ [e], dqWr := d.dqWr + 1, fed := insAsc k.od d.fed
    rpRet := if d.mode = .replay then d.rpRet + 1 else d.rpRet }
  mpWrite s1 (dqOff d + d.dqWr.toNat % dqSize d * 16) (dqBytes e) (ushSrc 4) 2 j

/-- In REPLAY the usher's order toward the port is that of the port's transmit entries (R375). -/
def replayTakes (d : Dp) (od : Nat) (seq : W32) : Bool :=
  d.mode ≠ .replay || match d.rpTx[d.rpRet]? with
    | some (_, e) => decide (e.od.toNat = od ∧ e.seq = seq)
    | none => false

/-- The packet of entry w is discarded at retirement: its buffers are freed, which may have to wait (R359). -/
def retireFree (s : State) (od w : Nat) (k : Pkt) (drop : Bool) : Option State :=
  if canFree s k.pool then some (boxRun (freeBufs (retired s od w drop) k.handle k.len k.pool k.chain k.chidx)) else none

/-- Retires the released head w; none: its destination cannot take it (R349, R351). -/
def retireTo (s : State) (od w : Nat) (k : Pkt) (d : Disp) : Option State :=
  let x := d.word.toNat
  let dest := bits x 13 8
  let len := d.newLen.getD k.len
  match bits x 2 0 with
  | 0 => if k.src = 3 then some (noticeGone (retired s od w true) (bits k.info.toNat 13 8))
    else retireFree s od w k true
  | 1 =>
    let l := gLink s dest
    if l.st = .locking ∨ l.st = .up then
      if 1024 ≤ l.asm.q.length then none
      else some (mLink (trimSegs (retired s od w false) k len) dest fun l => { l with asm := { l.asm with
        q := l.asm.q ++ [{ handle := k.handle, len := len, pool := k.pool, chain := k.chain, chidx := k.chidx
                           append := bitOf x 24 }] } })
    else (retireFree s od w k false).map fun s1 => mLink s1 dest fun l => { l with txqDrop := satInc l.txqDrop }
  | 2 =>
    let p := gDp s dest
    if !p.en then (retireFree s od w k false).map fun s1 => mDp s1 dest fun p => { p with disDrop := satInc p.disDrop }
    else if dqSize p ≤ p.dq.length || !replayTakes p od k.seq then none
    else some (dqPush (trimSegs (retired s od w false) k len) dest k len (bitOf x 26))
  | _ =>
    let s1 := mDom (leaveDom (trimSegs s k len) od w) od fun y => { y with retired := satInc y.retired }
    some (enterDom s1 w { k with od := bits x 23 16, recirc := true, len := len, st := .window })

/-- The head of a domain with its disposition, when it has been released. -/
def releasedHead (s : State) (od : Nat) : Option (Nat × Pkt × Disp) :=
  match (gDom s od).q with
  | w :: _ => match gWin s w with
    | some k => match k.st with
      | .released d => some (w, k, d)
      | _ => none
    | none => none
  | [] => none

/-- USH_ODSTAT.BLOCKED (R351). -/
def domBlocked (s : State) (od : Nat) : Bool :=
  match releasedHead s od with
  | some (w, k, d) => (retireTo s od w k d).isNone
  | none => false

/-- What a destination that cannot take the head shows: a full delivery queue (R16), or a free that waits (R359). -/
def retireWait (s : State) (k : Pkt) (d : Disp) : State :=
  let dest := bits d.word.toNat 13 8
  if bits d.word.toNat 2 0 = 2 ∧ (gDp s dest).en then
    if dqSize (gDp s dest) ≤ (gDp s dest).dq.length then mDp s dest fun p => { p with dqFull := true } else s
  else if bits d.word.toNat 2 0 = 1 ∧ ((gLink s dest).st = .locking ∨ (gLink s dest).st = .up) then s
  else retStall s k.pool

/-- The domain's head could retire. -/
def couldRetire (s : State) (od : Nat) : Bool :=
  match releasedHead s od with
  | some (w, k, d) => (retireTo s od w k d).isSome
  | none => false

/-- Place of domain od in the search of R349, which starts after the last domain that retired in an earlier ec. -/
def retRank (s : State) (od : Nat) : Nat := (od + 255 - s.tr.ush.retLast) % 256

/-- One of the eight retirements of the present ec goes to domain od: it has had none, and fewer than eight of those that have had
one or could have one stand before it (R349). -/
def retTurn (s : State) (od : Nat) : Bool :=
  let now := s.tr.ush.retNow
  !now.contains od && decide (now.length < 8) && decide (((s.tr.ush.dom.map Prod.fst).filter fun d =>
    decide (retRank s d < retRank s od) && (now.contains d || couldRetire s d)).length < 8)

/-- R349 RETIREMENT. -/
def execRetirement (od : Fin 256) (s : State) : Out :=
  match releasedHead s od.val with
  | some (w, k, d) =>
    act (live s && (retTurn s od.val || !couldRetire s od.val)) (fun s => match retireTo s od.val w k d with
      | some s1 => mUsh s1 fun u => { u with retNow := u.retNow ++ [od.val] }
      | none => retireWait s k d) s
  | none => .next s

/-- The usher's share of the end of an ec: the packets placed in it become visible to TAKE, and the search of R349 moves on
(R346, R347). -/
def usherEnd (s : State) : State :=
  let u := s.tr.ush
  let s1 := mUsh s fun u => { u with
    retNow := [], dom := tmap {} (fun (d : Dom) => { d with dispNow := false }) u.dom
    retLast := match u.retNow with
      | [] => u.retLast
      | d :: t => t.foldl (fun a x => if retRank s a < retRank s x then x else a) d }
  if u.retNow.isEmpty && !(s.en.eng.any fun e => !e.2.dqNew.isEmpty) && !(u.dom.any fun d => d.2.dispNow) then s
  else (s1.en.eng.map Prod.fst).foldl (fun acc p =>
    if (gEng acc p).dqNew.isEmpty then acc
    else serveEng (mEng acc p fun e => { e with dq := e.dq ++ e.dqNew, dqNew := [] }) p) s1

/-! ### Timeouts and force-drops (R352, R353, R19) -/

/-- Master ID of a packet's holder: a thread, or the usher (R18, R35). -/
def holderId : PSt → Nat
  | .held g => g
  | _ => 0xB00

/-- Ticks of a microsecond. -/
def tickUs : Nat := 40000

/-- R352 DOMAIN_TIMEOUT. -/
def execDomainTimeout (od : Fin 256) (s : State) : Out :=
  let d := gDom s od.val
  match d.q with
  | [] => .next s
  | w :: _ => match gWin s w with
    | none => .next s
    | some k =>
      act (live s && decide (d.tmo ≠ 0) && !d.headTo && decide (d.tmo.toNat * tickUs ≤ (s.tb.now - d.headTb).toNat)) (fun s =>
        let s1 := mDom s od.val fun d => { d with headTo := true, timedOut := true }
        let s2 := if isMapped s d.owner.toNat then setNotice s1 (physOf s d.owner.toNat) 1 else s1
        logEv s2 0x3001 [od.val, k.seq.toNat, k.handle.toNat, holderId k.st]) s

/-- Entry w leaves its dispatch queue. A TAKE that had been handed the packet takes the next one, before those that wait; where
there is none it waits, or with try at 1 it ends with T := 0 (R195, R353). -/
def unqueue (s : State) (p w : Nat) : State :=
  let s1 := mEng s p fun e => { e with
    dq := e.dq.filter fun x => decide (x ≠ w), dqNew := e.dqNew.filter fun x => decide (x ≠ w) }
  let hit (k : Nat) : Bool := match (gThr s1 k).held with
    | some { op := .take _ _ (some x), writes := _ } => decide (x = w)
    | _ => false
  match (List.range 32).find? fun t => hit (p * 32 + t) with
  | some t =>
    match (gThr s1 (p * 32 + t)).held with
    | some { op := .take r1 tr _, writes := wr } =>
      if tr && (gEng s1 p).dq.isEmpty then finishHeld s1 (p * 32 + t) [.t false]
      else
        let s2 := mThr s1 (p * 32 + t) fun x => { x with held := some { op := .take r1 tr none, writes := wr } }
        serveEng (mEng s2 p fun e => { e with takers := t :: e.takers }) p
    | _ => s1
  | none => s1

/-- The buffers of a packet that is dropped from outside: freed, left with a holding thread until its RELEASE, or kept in
the window entry until there is room (R353). -/
def dropBufs (s : State) (w : Nat) (k : Pkt) : State :=
  match k.st with
  | .held g => mUsh s fun u => { u with orphans := u.orphans ++ [(g, k)] }
  | _ =>
    if k.src = 3 then s
    else if canFree s k.pool then boxRun (freeBufs s k.handle k.len k.pool k.chain k.chidx)
    else retStall (sWin s w (some { k with st := .freeing })) k.pool

/-- Drops entry w of its domain at once (R353, R97). -/
def dropEntry (s : State) (w : Nat) (k : Pkt) : State :=
  let s1 := match k.st with
    | .queued p => unqueue s p w
    | _ => s
  let s2 := dropBufs (retired s1 k.od w true) w k
  if k.src = 3 then noticeGone s2 (bits k.info.toNat 13 8) else s2

/-- An accepted force-drop of the head. -/
def forceHead (s : State) (who od w : Nat) (k : Pkt) : State :=
  let s1 := mDom (dropEntry s w k) od fun d => { d with fdrops := satInc d.fdrops }
  logEv s1 0x3002 [od, k.seq.toNat, k.handle.toNat, who]

/-- The head's holder has released it in the present ec: the force-drop is discarded (R19). -/
def forceLost (s : State) (od : Nat) (handle : W32) : Bool := decide ((gDom s od).relLast = some (handle, s.ec))

/-- R19, R353: a write to USH_ODCTL with FDROP at 1. Of a packet that a thread holds, it waits for the end of the ec, in which its
RELEASE would still come first. -/
def forceDrop (s : State) (who od : Nat) (handle : W32) : State :=
  let behind := (gDom s od).q.tail.any fun w => match gWin s w with
    | some k => decide (k.handle = handle)
    | none => false
  let lost := forceLost s od handle && !behind
  let miss := mDom s od fun d => { d with fdMiss := true }
  if lost then mDom s od fun d => { d with fdLost := true }
  else match (gDom s od).q with
    | w :: _ => match gWin s w with
      | some k =>
        if k.handle ≠ handle then miss
        else match k.st with
          | .held _ => mDom s od fun d => { d with fdBy := some (who, handle) }
          | _ => forceHead s who od w k
      | none => miss
    | [] => miss

/-- The end of an ec for a force-drop that waits in domain od (R19). -/
def forceEnd (s : State) (od : Nat) : State :=
  let s1 := mDom s od fun d => { d with fdBy := none }
  match (gDom s od).fdBy with
  | none => s1
  | some (who, handle) =>
    if forceLost s od handle then mDom s1 od fun d => { d with fdLost := true }
    else match (gDom s od).q with
      | w :: _ => match gWin s w with
        | some k => if k.handle = handle then forceHead s1 who od w k else s1
        | none => s1
      | [] => s1

/-- The writers of USH_ODCTL: the owning prompter, the host port and the stage manager (R353). -/
def mayForce (s : State) (od : Nat) : Requester → Bool
  | .thread g => decide (g.val = (gDom s od).owner.toNat * 32)
  | _ => true

/-- R353 FORCE_DROP. -/
def execForceDrop (who : Requester) (od : Fin 256) (handle : W32) (s : State) : Out :=
  act (live s && mayForce s od.val who) (fun s =>
    forceDrop (mDom s od.val fun d => { d with fdHandle := handle }) (readerOf who) od handle) s

end Sys2Proof.Machine
end

