-- ==== Sys2Proof/Machine/DutPort.lean ====
section
/-! DEFINITION. The DUT ports and the prompt book (spec/10 R364–R377, R381; spec/01 R16, R26; spec/02 R68–R71; spec/03 R88,
R96, R110). A command carries the DCLKn edges that the port has counted since its last command (log 15). -/

namespace Sys2Proof.Machine

/-! ### Time in dc (R9, R364, R371) -/

/-- The port counts `edges` rising edges of DCLKn; a sample counts those in which a packet is staged (R371). -/
def dcAdv (s : State) (n edges : Nat) : State :=
  mDp s n fun d =>
    if !d.rstN then d
    else { d with
      dc := d.dc + BitVec.ofNat 64 edges
      smp := if d.tx.isEmpty || !d.en || edges = 0 then d.smp else match d.smp with
        | none => some (edges, 0, s.tb.now)
        | some (c, b, t) => some (c + edges, b, t) }

/-- dc s of an entry (R376). -/
def rpStart (e : PbEntry) : Nat := e.dc.toNat - e.span

/-- The edges do not run past dc s of the next replay delivery, in which REPLAY_SOP_PRESENT comes first (R376). -/
def rpRoom (d : Dp) (edges : Nat) : Bool :=
  match d.rpTx with
  | (_, e) :: _ => decide (d.mode ≠ .replay) || d.pres.isSome || d.rpLate || decide (d.dc.toNat + edges ≤ rpStart e)
  | [] => true

/-- The edges run past neither that dc nor the end of the open sample, which DRAIN_SAMPLE closes first (R371, R376, log 15). -/
def dcRoom (d : Dp) (edges : Nat) : Bool :=
  edges = 0 || rpRoom d edges && (d.tx.isEmpty || !d.en || decide ((match d.smp with | some (c, _, _) => c | none => 0) + edges ≤ 4096))

/-- Fields of DP_CFG (R381). -/
def dpLead (d : Dp) : Nat := fld d.cfg 8 8
def dpHoldMode (d : Dp) : Bool := bitOf d.cfg.toNat 2 || d.mode ≠ .plain
def dpOd (d : Dp) : Nat := fld d.cfg 16 8

/-- The port may transfer beats: enabled, out of its reset and not stopped under R88 or for a checkpoint. -/
def dpRuns (s : State) (n : Nat) : Bool :=
  let d := gDp s n
  up s && d.en && d.rstN && !d.fast

/-! ### The prompt book (R372, R373) -/

/-- The 32 bytes of an entry. -/
def pbBytes (e : PbEntry) : List W8 :=
  leBytes 8 e.dc.toNat ++ leBytes 8 e.tb.toNat ++ leBytes 4 e.seq.toNat ++ leBytes 4 e.handle.toNat ++
    leBytes 4 (e.len % 2 ^ 17 + e.od.toNat * 2 ^ 17 + e.port.val * 2 ^ 25 + b2n e.rx * 2 ^ 29 + b2n e.err * 2 ^ 30 + 2 ^ 31) ++
    leBytes 3 (e.span % 2 ^ 24) ++ [0]

def pbSize (s : State) : Nat := 2 ^ s.tr.ush.pbLog2.toNat

/-- Ring entries written or on their way and not consumed. -/
def pbUsed (s : State) : Nat := (s.tr.ush.pbWr + BitVec.ofNat 32 s.tr.ush.pbOut.length - s.tr.ush.pbRd).toNat

def pbFull (s : State) : Bool := decide (pbSize s ≤ pbUsed s)

/-- One entry is written to the ring; with WRAP at 1 a full ring loses its oldest. -/
def pbWrite (s : State) (e : PbEntry) : State :=
  let u := s.tr.ush
  let i := u.pbWr + BitVec.ofNat 32 u.pbOut.length
  let j := s.ms.nextJob
  let s1 := mUsh (newJob s) fun u => { u with
    pbOut := u.pbOut ++ [{ idx := i, job := j, ack := false }], pbRd := if pbFull s then u.pbRd + 1 else u.pbRd }
  mpWrite s1 (u.pbBase.toNat / 4096 * 4096 - extBase + i.toNat % pbSize s * 32) (pbBytes e) (ushSrc 5) 2 j

/-- The entries that a port holds in its crossing queue go to the ring while there is room (R373). The fuel is their
number. -/
def pbPort (n : Nat) : Nat → State → State
  | 0, s => s
  | f + 1, s => match (gDp s n).pbQ with
    | [] => s
    | e :: t =>
      if pbFull s && !s.tr.ush.pbWrap then
        if (gDp s n).pbFullLog then s else logEv (mDp s n fun d => { d with pbFullLog := true }) 0x5013 [n]
      else pbPort n f (pbWrite (mDp s n fun d => { d with pbQ := t, pbFullLog := false }) e)

/-- Every port's entries, in ascending port number. -/
def pbIssue (s : State) : State := foldNat (fun acc n => pbPort n (gDp acc n).pbQ.length acc) s (List.range 16)

/-- Acknowledged writes are marked, and WR advances over the run of them that is oldest (R372). -/
def pbSettle (s : State) : State :=
  let done := (s.tr.ush.pbOut.filter fun w => !w.ack && jobDone s w.job).map PbWr.job
  let out := s.tr.ush.pbOut.map fun w => if done.contains w.job then { w with ack := true } else w
  let k := (out.takeWhile fun w => w.ack).length
  done.foldl takeJob (mUsh s fun u => { u with pbOut := out.drop k, pbWr := u.pbWr + BitVec.ofNat 32 k })

/-- The port records a packet. -/
def pbAdd (s : State) (n : Nat) (e : PbEntry) : State :=
  if (gDp s n).recording then pbIssue (mDp s n fun d => { d with pbQ := d.pbQ ++ [e] }) else s

/-! ### Replay (R375–R377) -/

/-- Every entry of the port has been used: PLAIN again (R377). -/
def replayEnd (s : State) (n : Nat) : State :=
  let d := gDp s n
  if d.mode = .replay ∧ d.rpTx = [] ∧ d.rpRx = [] then
    logEv (mDp s n fun d => { d with mode := .plain, cfg := d.cfg &&& ~~~ (3 : W64), rpRet := 0, rpLate := false }) 0x5012 [n]
  else s

/-- The transmit replay has diverged (R376). -/
def diverged (s : State) (n : Nat) (idx : W32) : State :=
  let d := gDp s n
  let s1 := mDp s n fun d => { d with diverge := true, rpLogTx := true }
  if d.rpLogTx then s1 else logEv s1 0x5020 [n, idx.toNat, d.dc.toNat]

/-! ### Transmit (R365, R68, R69) -/

/-- Bytes of the transmit store in use: whole beats of the staged packets. -/
def txStore (d : Dp) : Nat := d.tx.foldl (fun a p => a + (p.ent.len + 127) / 128 * 128) 0

/-- An entry as the ring's bytes spell it (R364). The block keeps the pool, and where the read brought no bytes the entry that it
wrote (log 15). -/
def dqRead (e : DqEnt) : Option (List W8) → MemAns → DqEnt
  | some bs, .ok d =>
    if d.length < 16 then e
    else
      let w := leNat ((bs.drop 8).take 4)
      { e with handle := BitVec.ofNat 32 (leNat (bs.take 4)), seq := BitVec.ofNat 32 (leNat ((bs.drop 4).take 4))
               len := bits w 16 0, od := bits w 24 17, err := bitOf w 25, chain := bitOf w 26
               chidx := leNat ((bs.drop 12).take 2) }
  | _, _ => e

/-- Ring slot of the entry at place i of the delivery queue (R364). -/
def dqSlot (d : Dp) (i : Nat) : Nat := dqOff d + (d.dqWr.toNat + 2 ^ 32 - d.dq.length + i) % dqSize d * 16

/-- R365, R384 DP_STAGE_PACKET: the next entry whose write has been acknowledged, while the store has room. The bytes that a
failed read should have supplied are zeros. -/
def execDpStagePacket (n : Fin 16) (entry : MemAns) (ans : PktAns) (s : State) : Out :=
  let d := gDp s n.val
  match d.dq[d.tx.length]? with
  | none => .next s
  | some e =>
    act (live s && d.en && (e.job = 0 || jobDone s e.job) &&
        decide (txStore d + (e.len + 127) / 128 * 128 ≤ 131072)) (fun s =>
      let r := extRead s (ushSrc 3) 2 (dqSlot d d.tx.length) 16 entry
      let f := dqRead e r.2 entry
      let x := pktFetch r.1 3 f.handle f.len f.pool f.chain f.chidx ans
      mDp (takeJob (useFree x.1) e.job) n.val fun d => { d with
        dq := setAt d.dq d.tx.length { f with job := 0 }
        tx := d.tx ++ [{
          ent := f, data := fetchBytes (List.replicate f.len 0) x.2.parts, err := x.2.parts.any fun p => p.2.isNone
          lost := x.2.lost, dc := d.dc + BitVec.ofNat 64 (3 + b2n (freeBit x.1)) }] }) s

/-- The buffers of a packet that has left the delivery queue are freed (R365). -/
def freeTx (s : State) (p : TxPkt) : State :=
  if p.lost then boxRun (chainRelease (freeHandle s p.ent.pool p.ent.handle) p.ent.chidx)
  else boxRun (freeBufs s p.ent.handle p.ent.len p.ent.pool p.ent.chain p.ent.chidx)

/-- The first packet leaves the delivery queue and the store. -/
def dqPop (s : State) (n : Nat) : State :=
  mDp s n fun d => { d with dq := d.dq.tail, tx := d.tx.tail, pres := none }

/-- The last beat of packet p has transferred: it is freed, counted, recorded, and compared in REPLAY. -/
def txLast (s : State) (n : Nat) (p : TxPkt) (sop : Nat) : State :=
  let d := gDp s n
  let s1 := freeTx (mDp (dqPop s n) n fun d => { d with cntTx := satInc d.cntTx }) p
  let s2 := pbAdd s1 n {
    dc := d.dc, tb := p.ent.tb, seq := p.ent.seq, handle := p.ent.handle, len := p.ent.len
    od := BitVec.ofNat 8 p.ent.od, port := Fin.ofNat 16 n, rx := false, err := p.ent.err || p.err
    span := d.dc.toNat - sop }
  match d.mode, d.rpTx with
  | .replay, (i, e) :: t =>
    let s3 := if d.dc = e.dc then s2 else diverged s2 n i
    replayEnd (mDp s3 n fun d => { d with rpTx := t, rpRet := d.rpRet - 1, rpLate := false }) n
  | _, _ => s2

/-- The sideband of a transmit beat (R69). -/
def txSb (p : TxPkt) (i : Nat) : W16 :=
  let last := decide (p.ent.len ≤ (i + 1) * 128)
  BitVec.ofNat 16 (b2n (i = 0) + 2 * b2n last + (if last then (p.ent.len - i * 128) % 128 * 4 else 0) +
    512 * b2n (last && (p.ent.err || p.err)))

/-- The packet being presented and its next beat: one already begun, or in PLAIN and RECORD, or late in REPLAY, the first
staged one, from the first dc after the packet before it in which it is visible in DCLKn (R365, R376). -/
def txBeat (s : State) (n : Nat) : Option (TxPkt × Nat × Nat) :=
  let d := gDp s n
  match d.tx, d.pres with
  | p :: _, some (i, sop) => some (p, i, sop.toNat)
  | p :: _, none => if d.mode ≠ .replay ∨ d.rpLate then some (p, 0, max (d.txDc.toNat + 1) p.dc.toNat) else none
  | [], _ => none

/-- R68, R365 DP_TX_BEAT: the next beat stands on the port `edges` dc after the port's last command, and transfers when
`dp_tx_ready` is 1 there. -/
def execDpTxBeat (n : Fin 16) (edges : Nat) (ready : Bool) (s : State) : Out :=
  let d := gDp s n.val
  let dc := d.dc.toNat + edges
  match txBeat s n.val with
  | none => .next s
  | some (p, i, sop) =>
    act (dpRuns s n.val && decide (d.txDc.toNat < dc) && decide (sop ≤ dc) && dcRoom d edges && decide (d.pbQ.length < 8)) (fun s =>
      let m := min 128 (p.ent.len - i * 128)
      let s0 := mDp (dcAdv s n.val edges) n.val fun d => { d with pres := some (i, BitVec.ofNat 64 sop) }
      let s1 := mDp s0 n.val fun d => { d with
        txDc := d.dc, pres := some (i + 1, BitVec.ofNat 64 sop), lastTx := some ((p.data.drop (i * 128)).take 128, txSb p i)
        smp := d.smp.map fun x => (x.1, x.2.1 + m, x.2.2) }
      if !ready then s0 else if p.ent.len ≤ (i + 1) * 128 then txLast s1 n.val p sop else s1) s

/-- R376 REPLAY_SOP_PRESENT: in dc s of the next transmit entry. -/
def execReplaySopPresent (n : Fin 16) (edges : Nat) (s : State) : Out :=
  let d := gDp s n.val
  match d.rpTx with
  | [] => .next s
  | (i, e) :: _ =>
    let dc := d.dc.toNat + edges
    act (dpRuns s n.val && decide (d.mode = .replay) && d.pres.isNone && !d.rpLate && decide (rpStart e ≤ dc) && dcRoom d edges) (fun s =>
      let s1 := dcAdv s n.val edges
      if dc = rpStart e ∧ d.tx.head?.any (fun p => decide (p.dc.toNat ≤ dc)) then mDp s1 n.val fun d => { d with pres := some (0, d.dc) }
      else mDp (diverged s1 n.val i) n.val fun d => { d with rpLate := true }) s

/-! ### Receive (R366, R368, R354, R344, R377) -/

/-- Bytes of the receive store in use. -/
def rxStore (d : Dp) : Nat :=
  let up (n : Nat) : Nat := (n + 127) / 128 * 128
  (match d.rx with | some (bs, _) => up bs.length | none => 0) +
    d.inq.waiting.foldl (fun a p => a + up p.bytes.length) 0 + d.inq.writing.foldl (fun a w => a + up w.pkt.bytes.length) 0

/-- The receive side waits for a window entry, a domain entry, a handle or a chain record (R354, R367). -/
def rxWaits (s : State) (n : Nat) : Bool := !(gDp s n).inq.waiting.isEmpty || s.tr.ush.wsrc.contains (64 + n)

/-- `dp_rx_ready` (R354, R368, R71, R88). -/
def rxReadyPort (s : State) (n : Nat) : Bool :=
  let d := gDp s n
  dpRuns s n && (dpHoldMode d || (!rxWaits s n && decide (rxStore d + 128 ≤ 131072)))

/-- A replaying port compares a delivery with its next receive entry (R377). -/
def rxCompare (s : State) (n : Nat) (dc : W64) (span len : Nat) : State :=
  let d := gDp s n
  match d.mode, d.rpRx with
  | .replay, (i, e) :: t =>
    let s1 := if e.dc = dc ∧ e.span = span % 2 ^ 24 ∧ e.len = len then s
      else
        let s2 := mDp s n fun d => { d with diverge := true, rpLogRx := true }
        if d.rpLogRx then s2 else logEv s2 0x5021 [n, i.toNat, d.dc.toNat]
    replayEnd (mDp s1 n fun d => { d with rpRx := t }) n
  | _, _ => s

/-- The packet in progress ends at dc `dc` (R366). -/
def rxEnd (s : State) (n : Nat) (bs : List W8) (sop dc tb : W64) (err : Bool) : State :=
  let d := gDp s n
  let span := dc.toNat - sop.toNat
  let s1 := mDp s n fun d => { d with
    rx := none, rxTrunc := false, truncCnt := if d.rxTrunc then satInc d.truncCnt else d.truncCnt }
  let s2 := rxCompare s1 n dc span bs.length
  inqPush s2 (64 + n) bs (BitVec.ofNat 16 (b2n err + 8 * b2n d.rxTrunc + n * 256)) dc tb span

/-- A packet in progress that goes leaves the buffers that a freeze has had it take (R461). -/
def rxCancel (s : State) (n : Nat) : State := boxRun (inqCancel s (64 + n))

/-- R366, R368 DP_RX_BEAT: a beat transfers. -/
def execDpRxBeat (n : Fin 16) (data : List W8) (sop eop : Bool) (bytes : BitVec 7) (err : Bool) (edges : Nat)
    (s : State) : Out :=
  let d := gDp s n.val
  act (rxReadyPort s n.val && dcRoom d edges && decide (d.rxDc.toNat < d.dc.toNat + edges)) (fun s =>
    let last := d.rxDc
    let s0 := mDp (dcAdv s n.val edges) n.val fun d => { d with rxDc := d.dc, rxTb := s.tb.now }
    -- a SOP ends the packet in progress
    let s1 := match d.rx with
      | some (bs, t) => if sop then rxEnd s0 n.val bs t last d.rxTb true else s0
      | none => s0
    let d1 := gDp s1 n.val
    let bs := data.take (if eop && bytes ≠ 0 then bytes.toNat else 128)
    let err1 (s : State) : State := mDp s n.val fun d => { d with frmErr := satInc d.frmErr }
    if !sop && d1.rxDrop then mDp s1 n.val fun d => { d with rxDrop := !eop }
    else if !sop && d1.rx.isNone then err1 s1
    else if 131072 < rxStore d1 + 128 then
      err1 (rxCancel (mDp s1 n.val fun d => { d with rx := none, rxTrunc := false, rxDrop := !eop }) n.val)
    else
      let old := match d1.rx with
        | some (o, _) => o
        | none => []
      let t := match d1.rx with
        | some (_, t) => t
        | none => d1.dc
      let all := (old ++ bs).take 65536
      let s2 := mDp s1 n.val fun d => { d with
        rx := some (all, t), rxDrop := false, rxTrunc := d.rxTrunc || decide (65536 < old.length + bs.length) }
      if eop then rxEnd s2 n.val all t d1.dc d1.rxTb err else s2) s

/-- R344, R372, R373 DP_RX_ENTER: the packet enters, is counted and recorded. -/
def execDpRxEnter (n : Fin 16) (s : State) : Out :=
  act (live s && srcTurn s (64 + n.val) && decide ((gDp s n.val).pbQ.length < 8) && match (gDp s n.val).inq.writing with
      | x :: _ => x.job = 0 || jobDone s x.job
      | [] => false) (fun s =>
    srcEnter s (64 + n.val) 1 fun s1 x k =>
      pbAdd (mDp s1 n.val fun d => { d with cntRx := satInc d.cntRx }) n.val {
        dc := x.pkt.dc, tb := x.pkt.tb, seq := k.seq, handle := k.handle, len := k.len, od := BitVec.ofNat 8 k.od
        port := n, rx := true, err := x.pkt.info.getLsbD 0, span := x.pkt.span }) s

/-! ### Holds (R367, R368, R88) -/

/-- The conditions of R367 in the table's order, 1 to 5, for the present dc. -/
def holdCond (s : State) (n i : Nat) : Bool :=
  let d := gDp s n
  match i with
  | 1 => dpHoldMode d && decide (131072 < rxStore d + (dpLead d + 4) * 128)
  | 2 => dpHoldMode d && rxWaits s n
  | 3 => d.mode = .replay && match d.rpTx with
    | (_, e) :: _ => !(d.tx.head?.any fun p => decide (p.dc.toNat ≤ d.dc.toNat)) && d.pres.isNone && !d.rpLate &&
      decide (rpStart e ≤ d.dc.toNat + dpLead d + 5)
    | [] => false
  | 4 => d.mode = .record && !d.pbQ.isEmpty && pbFull s && !s.tr.ush.pbWrap
  | _ => d.fast

/-- `dut_hold_req` rises (R367). -/
def holdRise (s : State) (n cause : Nat) : State :=
  mDp s n fun d => { d with hold := true, cause := cause, holds := satInc d.holds }

/-- R367 DP_HOLD_RAISE: a condition on which the port makes a decision in this dc holds. -/
def execDpHoldRaise (n : Fin 16) (edges : Nat) (s : State) : Out :=
  let s1 := dcAdv s n.val edges
  let d := gDp s1 n.val
  let graced (i : Nat) : Bool := match d.grace with
    | some (c, t) => decide (c = i) && decide (d.dc.toNat ≤ t)
    | none => false
  match [1, 2, 3, 4, 5].find? fun i => holdCond s1 n.val i && !graced i with
  | some i => act (up s && d.en && d.rstN && !d.hold && dcRoom (gDp s n.val) edges) (fun _ => holdRise s1 n.val i) s
  | none => .next s

/-- R367 DP_HOLD_RELEASE: none of the conditions holds any longer. -/
def execDpHoldRelease (n : Fin 16) (s : State) : Out :=
  act (up s && (gDp s n.val).hold && !(gDp s n.val).ckHold && [1, 2, 3, 4, 5].all fun i => !holdCond s n.val i) (fun s =>
    mDp s n.val fun d => { d with hold := false }) s

/-- R370, R367 DUT_CLK_RUNNING_CHANGE. -/
def execDutClkRunningChange (n : Fin 16) (level : Bool) (s : State) : Out :=
  let d := gDp s n.val
  act (decide (d.clkRun ≠ level)) (fun s =>
    let s1 := mDp s n.val fun d => { d with
      clkRun := level, grace := if level && decide (d.cause ≠ 0) then some (d.cause, d.dc.toNat + 4) else d.grace }
    if !up s then mDp s n.val fun d => { d with clkRun := level }
    else if !(bitOf d.cfg.toNat 24) || !d.en then s1
    else if d.notice.isSome then mDp s1 n.val fun d => { d with clkChg := satInc d.clkChg }
    else enterNotice s1 n.val level) s

/-- A sample of 4,096 dc closes. The rate of one without elapsed time the manual leaves open (log 4). -/
def sampleClose (s : State) (n : Nat) : State :=
  match (gDp s n).smp with
  | some (4096, b, t) =>
    let e := (s.tb.now - t).toNat
    let rate := if e = 0 then (freeVal s).toNat else b * 8 * tickUs / e
    mDp (if e = 0 then useFree s else s) n fun d => { d with smp := none, samples := (rate :: d.samples).take 8 }
  | _ => s

/-- R371 DRAIN_SAMPLE: the port counts its edges, enabled or not (R9), and a sample that they complete closes. -/
def execDrainSample (n : Fin 16) (edges : Nat) (s : State) : Out :=
  act (up s && dcRoom (gDp s n.val) edges) (fun s => sampleClose (dcAdv s n.val edges) n.val) s

/-- DP_DRAIN.RATE (R371, R110). -/
def dpRate (d : Dp) : Nat :=
  if d.samples.length < 8 then d.floor.toNat else d.samples.foldl (fun a x => a + x) 0 / 8

/-! ### Enable, disable, reset (R364, R369, R373, R96, R381) -/

/-- Domains that feed or are fed by the port (R373, R374). -/
def dpDoms (d : Dp) : List Nat :=
  let l := insAsc (dpOd d) d.fed
  if bitOf d.cfg.toNat 24 then insAsc (fld d.cfg 32 8) l else l

def domsEmpty (s : State) (d : Dp) : Bool := (dpDoms d).all fun od => (gDom s od).q.isEmpty

/-- Those domains' next sequence numbers become 0. -/
def domsZero (s : State) (d : Dp) : State := foldNat (fun acc od => mDom acc od fun x => { x with nextSeq := 0 }) s (dpDoms d)

def extEnd : Nat := 0x8000000000

/-- [a, a+n) lies wholly in external memory (R30). -/
def inExt (a n : Nat) : Bool := decide (extBase ≤ a ∧ a + n ≤ extEnd)

/-- A write of 1 to DP_CTL.EN (R364, R373). -/
def dpOn (s : State) (n : Nat) : State :=
  let d := gDp s n
  let bad := mDp s n fun d => { d with cfgErr := true }
  let start (s : State) (m : DpMode) (r : Bool) : State :=
    mDp s n fun d => { d with en := true, fast := false, mode := m, recording := r }
  if d.en then s
  else if !inExt (fld d.dqBase 12 36 * 4096) (dqSize d * 16) then bad
  else if d.mode = .replay then start s .replay false
  else if fld d.cfg 0 2 = 1 then
    if !s.tr.ush.pbEn then start s .record false
    else if !domsEmpty s d then bad
    else logEv (start (domsZero s d) .record true) 0x5010 [n, s.tr.ush.pbWr.toNat]
  else start s .plain false

/-- R373 DP_ENABLE. -/
def execDpEnable (n : Fin 16) (s : State) : Out := act (up s) (fun s => dpOn s n.val) s

/-- The port has begun to present its first packet (R96, R365, R369): a beat of it has transferred, or its SOP beat stands, in PLAIN
and RECORD from the first dc after the packet before in which the staging is visible. -/
def begun (s : State) (n : Nat) : Bool :=
  let d := gDp s n
  match d.pres, d.tx with
  | some _, _ :: _ => true
  | none, p :: _ =>
    (decide (d.mode ≠ .replay) || d.rpLate) && decide (d.txDc.toNat < d.dc.toNat) && decide (p.dc.toNat ≤ d.dc.toNat)
  | _, [] => false

/-- A packet being presented is abandoned (R369, R96). -/
def abandonTx (s : State) (n : Nat) : State :=
  match (gDp s n).tx with
  | p :: _ => if begun s n then freeTx (dqPop s n) p else s
  | [] => s

/-- Replay ends without its entries (R369, R96). -/
def replayLeave (d : Dp) : Dp :=
  if d.mode = .replay then
    { d with mode := .plain, cfg := d.cfg &&& ~~~ (3 : W64), rpTx := [], rpRx := [], rpRet := 0, rpLate := false }
  else d

/-- A write of 0 to DP_CTL.EN (R369). -/
def dpOff (s : State) (n : Nat) : State :=
  let d := gDp s n
  if !d.en then s
  else
    let s1 := mDp (rxCancel (abandonTx s n) n) n fun x => replayLeave { x with
      en := false, hold := false, fast := false, recording := false
      disDrop := if begun s n then satInc x.disDrop else x.disDrop
      rx := none, rxTrunc := false, rxDrop := false, frmErr := if d.rx.isSome then satInc x.frmErr else x.frmErr }
    if d.mode = .replay then logEv s1 0x5012 [n] else s1

/-- R369 DP_DISABLE. -/
def execDpDisable (n : Fin 16) (s : State) : Out := act (up s) (fun s => dpOff s n.val) s

/-- DP_CTL.CNTCLR (R381). -/
def dpCntZero (s : State) (n : Nat) : State :=
  mDp s n fun d => { d with
    cntTx := 0, cntRx := 0, rstDrop := 0, disDrop := 0, truncCnt := 0, frmErr := 0, holds := 0 }

/-- R381 DP_CNTCLR. -/
def execDpCntclr (n : Fin 16) (s : State) : Out := act (up s) (fun s => dpCntZero s n.val) s

/-- R96, R71, R91, R110 DP_RST_N_ASSERT. -/
def execDpRstNAssert (n : Fin 16) (s : State) : Out :=
  let d := gDp s n.val
  act d.rstN (fun s =>
    if !up s then mDp s n.val fun x => { x with rstN := false }
    else
      let s1 := mDp (rxCancel (abandonTx s n.val) n.val) n.val fun x => replayLeave { x with
        rstN := false, dc := 0, txDc := 0, rxDc := 0, hold := false, grace := none, samples := [], smp := none
        rstDrop := if begun s n.val then satInc x.rstDrop else x.rstDrop
        rx := none, rxTrunc := false, rxDrop := false, tx := x.tx.map fun p => { p with dc := 0 } }
      match begun s n.val, d.tx with
      | true, p :: _ => logEv s1 0x5001 [n.val, p.ent.handle.toNat]
      | _, _ => s1) s

/-- R96 DP_RST_N_RELEASE. -/
def execDpRstNRelease (n : Fin 16) (s : State) : Out :=
  act (!(gDp s n.val).rstN) (fun s => mDp s n.val fun d => { d with rstN := true }) s

end Sys2Proof.Machine
end

