-- ==== Sys2Proof/Machine/Pins.lean ====
section
/-! DEFINITION. Cue queues, capture queues, edges and reflexes of the pins (spec/07 R271–R282, spec/08 R300). -/

namespace Sys2Proof.Machine

/-- An unsigned tick sum. -/
def ticks (t : W64) (n : Nat) : W64 := t + BitVec.ofNat 64 n

def later (a b : W64) : W64 := if a.toNat < b.toNat then b else a

/-- Instant that places a cue in its queue: its time, or its earliest instant where that is later (R271, R274, R280). -/
def cueAt (c : Cue) : W64 := later c.t c.min

/-- Inserts a cue in time order, after queued cues of the same instant (R273). -/
def insCue (c : Cue) : List Cue → List Cue
  | [] => [c]
  | x :: t => if (cueAt c).toNat < (cueAt x).toNat then c :: x :: t else x :: insCue c t

/-- A cue reaches its pin's queue (R273–R275, R279); `poster` is the master ID that event 0x6203 names. -/
def postCue (s : State) (pin : Nat) (c : Cue) (poster : Nat) : State :=
  if (gBank s (pin / 8)).paused then mPin s pin fun p => { p with cueDrop := satInc p.cueDrop }
  else if 16 ≤ (gPin s pin).cueQ.length then
    logEv (mPin s pin fun p => { p with full := true, cueDrop := satInc p.cueDrop }) 0x6203 [pin, poster]
  else mPin s pin fun p => { p with cueQ := insCue { c with ec := s.ec } p.cueQ }

/-- The cues of bank b that reach their queues in the present ec, in the order of R273: reflexes by rule number, then the
sequencer. -/
def postDue (s : State) (b : Nat) : State :=
  let now := (gBank s b).due.filter fun d => decide (d.ec ≤ s.ec)
  let s1 := mBank s b fun k => { k with due := k.due.filter fun d => !decide (d.ec ≤ s.ec) }
  (List.range 5).foldl (fun acc r => (now.filter fun d => decide (d.rank = r)).foldl (fun a d =>
    postCue a d.pin d.cue (0xA00 + b)) acc) s1

/-- Instant plus the pin's trim, in steps of 0.75 ps (0.03 tick), rounded to the nearest tick (R300). -/
def trimmed (t : W64) (trim : W8) : W64 := t + BitVec.ofInt 64 ((3 * trim.toInt + 50) / 100)

/-- A capture entry of the present ec is written, or dropped at a full queue (R276–R278). -/
def pinCapture (s : State) (pin : Nat) (t : W64) (edge : BitVec 2) : State :=
  mPin s pin fun p =>
    if 16 ≤ p.capQ.length then { p with ovr := true, drop := satInc p.drop, gapNext := true }
    else { p with capQ := p.capQ ++ [{ t := trimmed t p.trim, edge := edge, gap := p.gapNext, vis := s.ec + 2 }], gapNext := false }

/-- The capture entries that can be read in the present ec (R276). -/
def capSeen (s : State) (pin : Nat) : List Cap := (gPin s pin).capQ.filter fun c => decide (c.vis ≤ s.ec)

/-- The oldest capture entry leaves its queue. -/
def popCapture (s : State) (pin : Nat) : State := mPin s pin fun p => { p with capQ := p.capQ.drop 1 }

/-- Edge code of R277 with GAP in bit 2. -/
def capCode (c : Cap) : Nat := c.edge.toNat + 4 * b2n c.gap

/-! ### Firing (R271–R274) -/

/-- Instant at which the head of a cue queue fires: at least 32 ticks after the previous fire instant (R273). -/
def fireAt (p : Pin) (c : Cue) : W64 :=
  match p.lastFire with
  | some l => later (cueAt c) (ticks l 32)
  | none => cueAt c

/-- Effect of an action code on the pad signals (R272). -/
def cueAction (p : Pin) (a : BitVec 4) : Pin :=
  match a.toNat with
  | 0 => { p with out := false }
  | 1 => { p with out := true }
  | 2 => { p with out := !p.out }
  | 3 => { p with oe := false }
  | 4 => { p with oe := true }
  | 5 => { p with out := false, oe := true }
  | 6 => { p with out := true, oe := true }
  | _ => p

/-- Level of `pin_out`: 0 until the bank has first driven a `pin_oe` to 1 (R40, R82). -/
def pinLevel (s : State) (k : Nat) : Bool := (gBank s (k / 8)).driven && (gPin s k).out

/-- A change of the pad signals is placed at its instant plus the pin's trim (R72, R300). -/
def placeEdge (f : W64) (old new : Pin) : Pin :=
  if old.out = new.out ∧ old.oe = new.oe then new else { new with placed := some (trimmed f new.trim) }

/-- One cue of the group that fires at instant `f`: its action, and the log of a late fire. -/
def fireOne (pin : Nat) (f : W64) (s : State) (c : Cue) : State :=
  let s0 := mPin s pin fun p => placeEdge f p (cueAction p c.act)
  let s1 := if (gPin s0 pin).oe then mBank s0 (pin / 8) fun k => { k with driven := true } else s0
  let s2 := if c.t.toNat < f.toNat then
      logEv (mPin s1 pin fun p => { p with late := true }) 0x6202 [pin, c.t.toNat, f.toNat]
    else s1
  if c.act = 7 then pinCapture s2 pin f 3 else s2

/-- Every cue of the queue whose instant has come by `f` fires, in queue order, as one change of the pin (R273). -/
def fireGroup (s : State) (pin : Nat) (f : W64) : State :=
  let q := (gPin s pin).cueQ
  let grp := q.takeWhile fun c => decide ((cueAt c).toNat ≤ f.toNat)
  let s1 := mPin s pin fun p => { p with cueQ := q.drop grp.length, lastFire := some f }
  grp.foldl (fireOne pin f) s1

/-- R271–R274 CUE_FIRE: the fire instant of the pin's first cue lies before the end of the present ec. -/
def execCueFire (k : Fin 256) (s : State) : Out :=
  match (gPin s k.val).cueQ with
  | [] => .next s
  | c :: _ =>
    let f := fireAt (gPin s k.val) c
    act (up s && !(gBank s (k.val / 8)).paused && decide (f.toNat < (tbAt s 1).toNat)) (fun s => fireGroup s k.val f) s

/-! ### Edges (R276, R280) -/

/-- An edge selection (2 bits: rising, falling) takes an edge. -/
def edgeSel (sel : BitVec 2) (rising : Bool) : Bool := if rising then sel.getLsbD 0 else sel.getLsbD 1

/-- An edge that the detector filters out counts in DROP when CAPEDGE selects it (R276). -/
def filterEdge (s : State) (pin : Nat) (rising inside : Bool) : State :=
  mPin s pin fun p => { p with
    filtered := inside
    drop := if edgeSel p.capEdge rising && !(gBank s (pin / 8)).paused then satInc p.drop else p.drop }

/-- Reflex rule r of bank b, for an edge at instant c of its pin j: its cue reaches the target's queue two ec later (R280). -/
def reflexOne (b j : Nat) (rising : Bool) (c : W64) (s : State) (r : Nat) : State :=
  let x := tget {} (gBank s b).rfx r
  if x.arm && decide (x.src.toNat = j) && edgeSel x.edge rising then
    let t := later (ticks c x.delay.toNat) (tbAt s 4)
    mBank s b fun k => { k with
      rfx := tset {} k.rfx r { x with fired := satInc x.fired, arm := x.arm && !x.oneshot }
      due := k.due ++ [{
        ec := s.ec + 2, rank := r, pin := 8 * b + x.dst.toNat, cue := { t := t, min := t, act := x.act, ec := s.ec + 2 } }] }
  else s

/-- Timers that capture on the pin's edges do so in its recognition ec, the next one (R24, R268). -/
def timerEdges (s : State) (pin : Nat) (rising : Bool) : State :=
  s.en.eng.foldl (fun acc e => foldNat (fun acc n =>
    let t := gTmr s e.1 n
    if decide (tcCapsrc t.cfg = 1) && decide (t.capPin.toNat = pin) && edgeSel (t.cfg.extractLsb' 28 2) rising &&
        !tmrIsHigh s e.1 n then mTmr acc e.1 n fun t => { t with capEdge := true } else acc) acc (List.range 4)) s

/-- An edge that passes the detector at instant c. -/
def passEdge (s : State) (pin : Nat) (rising : Bool) (c : W64) : State :=
  let s1 := mPin s pin fun p => { p with lastEdge := some c }
  if (gBank s (pin / 8)).paused then timerEdges s1 pin rising
  else
    let s2 := if edgeSel (gPin s pin).capEdge rising then pinCapture s1 pin c (if rising then 1 else 2) else s1
    timerEdges (foldNat (reflexOne (pin / 8) (pin % 8) rising c) s2 (List.range 4)) pin rising

/-- The instant `off` 64ths of the way from TB_e to TB_e+1, in ticks (R250). -/
def instant (s : State) (off : Nat) : W64 := s.tb.now + BitVec.ofNat 64 ((tbAt s 1 - s.tb.now).toNat * off / 64)

/-- R276 PIN_EDGE: an edge `off` 64ths of the way through the present ec (log 31). Behind the curtain only the level is
followed. -/
def execPinEdge (k : Fin 256) (rising : Bool) (off : Fin 64) (s : State) : Out :=
  let c := instant s off.val
  let p := gPin s k.val
  let s1 := mPin s k.val fun p => { p with inp := rising }
  if !up s then .next s1
  else if p.inp = rising then .next s
  else if p.filtered then .next (filterEdge s1 k.val rising false)
  else match p.lastEdge with
    | some l => .next (if c.toNat < l.toNat + 32 then filterEdge s1 k.val rising true else passEdge s1 k.val rising c)
    | none => .next (passEdge s1 k.val rising c)

/-- The synchronizer of `pin_in` as an ec ends (R24). -/
def pinSync (p : Pin) : Pin := { p with in1 := p.inp, sync := p.in1 }

/-! ### Flushes and register commands (R278, R282) -/

/-- The cue fires in the present ec, with the head `h` of its queue. -/
def firesNow (s : State) (p : Pin) (c h : Cue) : Bool :=
  decide ((cueAt c).toNat ≤ (fireAt p h).toNat) && decide ((fireAt p h).toNat < (tbAt s 1).toNat)

/-- A flush leaves a cue that reached the queue in the same ec, and those that fire in it (R282). -/
def flushCueQ (s : State) (pin : Nat) : State :=
  mPin s pin fun p => { p with
    cueQ := p.cueQ.filter fun c => decide (c.ec = s.ec) || (p.cueQ.head?.any fun h => firesNow s p c h) }
def flushCapQ (s : State) (pin : Nat) : State := mPin s pin fun p => { p with capQ := [] }

/-- Clearing OVR logs the episode and clears DROP (R278). The number logged is the whole of DROP, in which the filtered edges of
R276 count too (DESIGN CHOICE log 31). -/
def pinOvrClr (s : State) (pin : Nat) : State :=
  if (gPin s pin).ovr then
    logEv (mPin s pin fun p => { p with ovr := false, drop := 0 }) 0x6201 [pin, (gPin s pin).drop.toNat]
  else s

/-- R282 FLUSH_CUE. -/
def execFlushCue (k : Fin 256) (s : State) : Out := act (up s) (fun s => flushCueQ s k.val) s

/-- R282 FLUSH_CAP. -/
def execFlushCap (k : Fin 256) (s : State) : Out := act (up s) (fun s => flushCapQ s k.val) s

/-- R278 a W1C write that clears PIN_STAT.OVR. -/
def execPinOvrClear (k : Fin 256) (s : State) : Out := act (up s) (fun s => pinOvrClr s k.val) s

/-- R282 the fields of PB_RFXr that a write sets; FIRED is read-only. -/
def rfxOf (old : Rfx) (d : W64) : Rfx :=
  { old with
    src := d.extractLsb' 0 3, edge := d.extractLsb' 3 2, dst := d.extractLsb' 5 3, act := d.extractLsb' 8 4
    arm := d.getLsbD 12, oneshot := d.getLsbD 13, delay := d.extractLsb' 16 8 }

def rfxWord (x : Rfx) : W64 :=
  BitVec.ofNat 64 (x.src.toNat + 8 * x.edge.toNat + 32 * x.dst.toNat + 256 * x.act.toNat + 4096 * b2n x.arm +
    8192 * b2n x.oneshot + 65536 * x.delay.toNat + 2 ^ 32 * x.fired.toNat)

/-- R280, R282 a write to PB_RFXr: one that sets ARM with ACT 0x8–0xF or EDGE 0b00 is discarded in full. -/
def rfxPut (s : State) (b r : Nat) (d : W64) : State :=
  mBank s b fun k =>
    let x := rfxOf (tget {} k.rfx r) d
    if x.arm && (decide (8 ≤ x.act.toNat) || decide (x.edge = 0)) then k else { k with rfx := tset {} k.rfx r x }

/-- R280 PB_RFX_WRITE. -/
def execPbRfxWrite (b : Fin 32) (r : Fin 4) (data : W64) (s : State) : Out :=
  act (up s) (fun s => rfxPut s b.val r.val data) s

/-! ### CUE and CAPRD (R192, R271–R275, R277, R278) -/

/-- R192 CUE: D[p][7:0] names the pin, {D[s+1], D[s]} the time. A late cue takes fault 0x0F with LATE_TRAP at 1, a full
queue fault 0x12 with FULL_TRAP at 1. -/
def execCue (g : Fin 2048) (s p : Fin 16) (act4 : BitVec 4) (st : State) : Out :=
  let k := thrKey st g.val
  keIssue (.cue g s p act4) g (fun st =>
    let r := (gThr st k).r
    let pin := (rD r p).toNat % 256
    let c : Cue := { t := rPair r s, min := tbAt st 1, act := act4, ec := st.ec }
    let bank := gBank st (pin / 8)
    if !evenReg s || decide (8 ≤ act4.toNat) then takeFault st k 0x01 r.pc
    else if !bank.paused && bank.lateTrap && decide (c.t.toNat < c.min.toNat) then takeFault st k 0x0F r.pc
    else if !bank.paused && bank.fullTrap && decide (16 ≤ (gPin st pin).cueQ.length) then takeFault st k 0x12 r.pc
    else retireNext (postCue st pin c g.val) k [] []) st

/-- R192 CAPRD: the oldest entry of pin D[p][7:0]; T := 0 and no other write when the queue is empty. -/
def execCaprd (g : Fin 2048) (d p kr : Fin 16) (s : State) : Out :=
  let k := thrKey s g.val
  keIssue (.caprd g d p kr) g (fun s =>
    let r := (gThr s k).r
    let pin := (rD r p).toNat % 256
    if !evenReg d || decide (kr = d) || decide (kr.val = d.val + 1) then takeFault s k 0x01 r.pc
    else match capSeen s pin with
      | [] => retireNext s k [.t] [.t false]
      | c :: _ =>
        retireNext (popCapture s pin) k [.d d, .d (d + 1), .d kr, .t]
          (wPair d c.t ++ [.d kr (BitVec.ofNat 32 (capCode c)), .t true])) s

end Sys2Proof.Machine
end

