-- ==== Sys2Proof/Machine/Sequencer.lean ====
section
/-! DEFINITION. The pin sequencers (spec/08 R283–R299): starting and stopping, KP's instructions, waits, traps, mailboxes and
stream rings. A KP command stands for a word that the sequencer of pin bank `b` fetches at its PC (log 7). -/

namespace Sys2Proof.Machine

/-! ### Registers and time -/

def gSq (s : State) (b : Nat) : Sq := (gBank s b).sq
def kv (x : Sq) (n : Nat) : W16 := tget 0 x.v n
def kvSet (x : Sq) (n : Nat) (w : W16) : Sq := { x with v := tset 0 x.v n w }

/-- TB_2p, the timebase at the start of the present pc (R284, R291). -/
def tbPc (s : State) : W64 :=
  if s.ec % 2 = 0 then s.tb.now
  else BitVec.ofNat 64 ((s.tb.now.toNat * 2 ^ 32 + s.tb.sub.toNat + 2 ^ 96 - tbInc s.tb) / 2 ^ 32)

/-- TB_2p+2, the timebase at the start of the next pc. -/
def tbPcNext (s : State) : W64 := if s.ec % 2 = 0 then tbAt s 2 else tbAt s 1

/-- Pin j of bank b. -/
def bankPin (b j : Nat) : Nat := 8 * b + j

/-- Master ID of bank b (R297). -/
def bankId (b : Nat) : Nat := 0xA00 + b

/-! ### States (R285, R298, R481) -/

/-- A stepped word or wait has ended: the sequencer halts again (R481). -/
def sqStepEnd (x : Sq) : Sq :=
  if x.stepping && decide (x.st = .run) then { x with st := .halt, kept := .run, stepping := false } else x

/-- A cue of bank b's sequencer for pin j, posted by the word of the present pc: it reaches its queue in the second ec of the pc,
and its earliest instant is TB_2p+2 (R294). -/
def kpPost (b j : Nat) (t : W64) (a : BitVec 4) (s : State) : State :=
  mBank s b fun k => { k with due := k.due ++ [{
    ec := s.ec / 2 * 2 + 1, rank := 4, pin := bankPin b j
    cue := { t := t, min := tbPcNext s, act := a, ec := s.ec / 2 * 2 + 1 } }] }

/-- A trap: TRAPPED with its cause at the word, the log, and the MARK of TRAPMARK (R298). Of what waits for the pc boundary only
a pause still acts (R285, R481). -/
def sqTrap (s : State) (b : Nat) (cause : W8) : State :=
  let x := gSq s b
  let s1 := logEv (mSq s b fun x => { x with
    st := .trapped, wait := none, tcause := cause, stepping := false, bpPass := false
    req := x.req.filter fun r => decide (r = .pause) }) 0x6303 [b, x.pc.toNat, cause.toNat]
  if x.trapMark then kpPost b x.trapPin.toNat (tbPcNext s) 7 s1 else s1

/-- The word at PC (R283). -/
def kpWord (x : Sq) : BitVec 14 := tget 0 x.pm x.pc.toNat

/-- The sequencer issues a word in the present pc, in its first ec: it is in RUN and in no wait, no word has issued in the pc, and
no breakpoint stands before the word (R284, R285, R461, R481). -/
def sqIssues (s : State) (b : Nat) : Bool :=
  let x := gSq s b
  live s && decide (s.ec % 2 = 0) && decide (x.st = .run) && x.wait.isNone && decide (x.lastPc ≠ some (s.ec / 2)) &&
    !(x.bpEn && decide (x.bpAddr = x.pc) && !x.bpPass)

/-- The sequencer goes on from the pc after the present one. -/
def sqLater (s : State) (x : Sq) : Sq := { x with lastPc := some (s.ec / 2) }

/-- A write of 1 to SEQ_CTL.START (R285). -/
def sqStart (s : State) (b : Nat) : State :=
  mSq s b fun x =>
    if x.st = .stopped ∨ x.st = .trapped then
      sqLater s { x with
        st := .run, wait := none, pc := x.entry, stack := [], tcause := 0, stepping := false, bpPass := false }
    else x

/-- The sequencer is stopped (R285). -/
def sqStopNow (x : Sq) : Sq :=
  if x.st = .run ∨ x.st = .wait then { x with st := .stopped, wait := none, stepping := false, bpPass := false } else x

/-- A request that waits for the next pc boundary; a state that it cannot change ignores it. -/
def sqAsk (s : State) (b : Nat) (r : SqReq) : State :=
  mSq s b fun x => if x.st = .run ∨ x.st = .wait then { x with req := x.req ++ [r] } else x

/-- A write of 1 to SEQ_CTL.STOP (R285). -/
def sqStop (s : State) (b : Nat) : State := sqAsk s b .stop

/-- A write to SEQ_CTL: of START and STOP in one write, the sequencer is stopped and restarts at ENTRY (R285, log 24). -/
def sqCtlPut (s : State) (b : Nat) (start stop : Bool) : State :=
  let s1 := if stop then sqAsk s b .stop else s
  if start && stop then sqAsk (sqStart s1 b) b .restart else if start then sqStart s1 b else s1

/-- R285 SEQ_START. -/
def execSeqStart (b : Fin 32) (s : State) : Out := act (up s) (fun s => sqStart s b.val) s

/-- R285 SEQ_STOP. -/
def execSeqStop (b : Fin 32) (s : State) : Out := act (up s) (fun s => sqStop s b.val) s

/-- R298 SEQ_TRAP: the word at PC is illegal (cause 0x01) or fails parity (cause 0x06). -/
def execSeqTrap (b : Fin 32) (why : SeqTrapWhy) (s : State) : Out :=
  match why with
  | .illegalWord => act (sqIssues s b.val && decide (kpDecode b (kpWord (gSq s b.val)) = .seqTrap b .illegalWord))
      (fun s => sqTrap s b.val 0x01) s
  | .parity => act (sqIssues s b.val) (fun s => sqTrap s b.val 0x06) s

/-! ### Forms of KP words -/

/-- A KP command: when the sequencer issues in the present pc and `i` is the word at its PC, the word has its effect; otherwise
nothing changes (log 1). -/
def kpIssue (i : Instr) (b : Fin 32) (f : State → State) (s : State) : Out :=
  act (sqIssues s b.val && decide (kpDecode b (kpWord (gSq s b.val)) = i))
    (fun s => mSq (f s) b.val fun x => sqLater s x) s

/-- A word changes the sequencer by `f`, which sets the next PC, or traps. -/
def kpCtl (i : Instr) (b : Fin 32) (f : Sq → Except W8 Sq) (s : State) : Out :=
  kpIssue i b (fun s => match f (gSq s b.val) with
    | .error c => sqTrap s b.val c
    | .ok x => mSq s b.val fun _ => sqStepEnd { x with bpPass := false }) s

/-- A word that changes registers only; the next word follows. -/
def kpReg (i : Instr) (b : Fin 32) (f : Sq → Sq) (s : State) : Out := kpCtl i b (fun x => .ok { f x with pc := x.pc + 1 }) s

/-- A word that also acts on the bank's queues or mailboxes by `g`; the next word follows. -/
def kpAct (i : Instr) (b : Fin 32) (g : State → State) (s : State) : Out :=
  kpIssue i b (fun s => mSq (g s) b.val fun x => sqStepEnd { x with pc := x.pc + 1, bpPass := false }) s

/-- The word waits for `w`: its condition is tested at the start of each pc that follows (R293). -/
def sqWaitOn (s : State) (b : Nat) (w : SqWait) : State :=
  mSq s b fun x => { x with wait := some w, bpPass := false }

/-- A word traps with cause 0x01 when a field that must be 0 is not (R288). -/
def kpBad (i : Instr) (bad : Bool) (b : Fin 32) (f : Sq → Sq) (s : State) : Out :=
  kpCtl i b (fun x => if bad then .error 0x01 else .ok { f x with pc := x.pc + 1 }) s

/-- Class L (R290). -/
def kpL (x : Sq) (d : Nat) (w : W16) : Sq := { kvSet x d w with z := decide (w = 0), c := false }

/-- Class A with a result (R290). -/
def kpA (x : Sq) (d : Nat) (r : W16 × Bool × Bool) : Sq := { kvSet x d r.1 with z := r.2.1, c := r.2.2 }

/-- A branch target relative to the branch word (R292). -/
def kpRel (x : Sq) (imm8 : W8) : BitVec 12 := x.pc + imm8.signExtend 12

def kpBranch (i : Instr) (b : Fin 32) (imm8 : W8) (p : Sq → Bool) (s : State) : Out :=
  kpCtl i b (fun x => .ok { x with pc := if p x then kpRel x imm8 else x.pc + 1 }) s

/-- A call (R292): a fifth entry traps with cause 0x02. -/
def kpCallTo (x : Sq) (target : BitVec 12) : Except W8 Sq :=
  if 4 ≤ x.stack.length then .error 0x02 else .ok { x with stack := (x.pc + 1) :: x.stack, pc := target }

/-! ### Control (R291, R292) -/

/-- R291 NOP. -/
def execKpNop (b : Fin 32) (s : State) : Out := kpReg (.kpNop b) b id s

/-- R285, R291 END. -/
def execKpEnd (b : Fin 32) (s : State) : Out :=
  kpIssue (.kpEnd b) b (fun s => mSq s b.val fun x => { x with
    st := .stopped, done := true, stepping := false, bpPass := false }) s

/-- R291 TRAP. -/
def execKpTrap (b : Fin 32) (imm8 : W8) (s : State) : Out :=
  kpIssue (.kpTrap b imm8) b (fun s => sqTrap (mSq s b.val fun x => { x with targ := imm8 }) b.val 0x04) s

/-- R291 BR. -/
def execKpBr (b : Fin 32) (imm8 : W8) (s : State) : Out := kpBranch (.kpBr b imm8) b imm8 (fun _ => true) s

/-- R291, R292 CALL. -/
def execKpCall (b : Fin 32) (imm8 : W8) (s : State) : Out := kpCtl (.kpCall b imm8) b (fun x => kpCallTo x (kpRel x imm8)) s

/-- R291, R292 RET. -/
def execKpRet (b : Fin 32) (s : State) : Out :=
  kpCtl (.kpRet b) b (fun x => match x.stack with
    | [] => .error 0x03
    | a :: t => .ok { x with pc := a, stack := t }) s

/-- R291 JV. -/
def execKpJv (b : Fin 32) (src : Fin 8) (s : State) : Out :=
  kpCtl (.kpJv b src) b (fun x => .ok { x with pc := (kv x src).extractLsb' 0 12 }) s

/-- R291, R292 CALLV. -/
def execKpCallv (b : Fin 32) (src : Fin 8) (s : State) : Out :=
  kpCtl (.kpCallv b src) b (fun x => kpCallTo x ((kv x src).extractLsb' 0 12)) s

/-- R291 BZ. -/
def execKpBz (b : Fin 32) (imm8 : W8) (s : State) : Out := kpBranch (.kpBz b imm8) b imm8 (fun x => x.z) s

/-- R291 BNZ. -/
def execKpBnz (b : Fin 32) (imm8 : W8) (s : State) : Out := kpBranch (.kpBnz b imm8) b imm8 (fun x => !x.z) s

/-- R291 BC. -/
def execKpBc (b : Fin 32) (imm8 : W8) (s : State) : Out := kpBranch (.kpBc b imm8) b imm8 (fun x => x.c) s

/-- R291 BNC. -/
def execKpBnc (b : Fin 32) (imm8 : W8) (s : State) : Out := kpBranch (.kpBnc b imm8) b imm8 (fun x => !x.c) s

/-- R291 BT. -/
def execKpBt (b : Fin 32) (imm8 : W8) (s : State) : Out := kpBranch (.kpBt b imm8) b imm8 (fun x => x.t) s

/-- R291 BF. -/
def execKpBf (b : Fin 32) (imm8 : W8) (s : State) : Out := kpBranch (.kpBf b imm8) b imm8 (fun x => !x.t) s

/-- R291, R292 DJNZ: the branch tests the new LC. -/
def execKpDjnz (b : Fin 32) (imm8 : W8) (s : State) : Out :=
  kpCtl (.kpDjnz b imm8) b (fun x => .ok { x with
    lc := x.lc - 1, pc := if x.lc - 1 ≠ 0 then kpRel x imm8 else x.pc + 1 }) s

/-! ### Registers (R290, R291) -/

/-- R291 MOV. -/
def execKpMov (b : Fin 32) (d src : Fin 8) (s : State) : Out := kpReg (.kpMov b d src) b (fun x => kvSet x d (kv x src)) s

/-- R291 ADD. -/
def execKpAdd (b : Fin 32) (d src : Fin 8) (s : State) : Out := kpReg (.kpAdd b d src) b (fun x => kpA x d (kpAddF (kv x d) (kv x src))) s

/-- R291 SUB. -/
def execKpSub (b : Fin 32) (d src : Fin 8) (s : State) : Out := kpReg (.kpSub b d src) b (fun x => kpA x d (kpSubF (kv x d) (kv x src))) s

/-- R291 AND. -/
def execKpAnd (b : Fin 32) (d src : Fin 8) (s : State) : Out := kpReg (.kpAnd b d src) b (fun x => kpL x d (kv x d &&& kv x src)) s

/-- R291 OR. -/
def execKpOr (b : Fin 32) (d src : Fin 8) (s : State) : Out := kpReg (.kpOr b d src) b (fun x => kpL x d (kv x d ||| kv x src)) s

/-- R291 XOR. -/
def execKpXor (b : Fin 32) (d src : Fin 8) (s : State) : Out := kpReg (.kpXor b d src) b (fun x => kpL x d (kv x d ^^^ kv x src)) s

/-- R291 NOT. -/
def execKpNot (b : Fin 32) (d src : Fin 8) (s : State) : Out := kpReg (.kpNot b d src) b (fun x => kpL x d (~~~ kv x src)) s

/-- R291 CMP. -/
def execKpCmp (b : Fin 32) (d src : Fin 8) (s : State) : Out :=
  kpReg (.kpCmp b d src) b (fun x => { x with z := (kpSubF (kv x d) (kv x src)).2.1, c := (kpSubF (kv x d) (kv x src)).2.2 }) s

/-- R291 ADDI. -/
def execKpAddi (b : Fin 32) (d : Fin 8) (imm5 : BitVec 5) (s : State) : Out :=
  kpReg (.kpAddi b d imm5) b (fun x => kpA x d (kpAddF (kv x d) (imm5.signExtend 16))) s

/-- R291 LDI. -/
def execKpLdi (b : Fin 32) (d : Fin 8) (imm5 : BitVec 5) (s : State) : Out :=
  kpReg (.kpLdi b d imm5) b (fun x => kvSet x d (imm5.signExtend 16)) s

/-- R291 LDB0. -/
def execKpLdb0 (b : Fin 32) (imm8 : W8) (s : State) : Out := kpReg (.kpLdb0 b imm8) b (fun x => kvSet x 0 (imm8.setWidth 16)) s

/-- R291 LDH0. -/
def execKpLdh0 (b : Fin 32) (imm8 : W8) (s : State) : Out :=
  kpReg (.kpLdh0 b imm8) b (fun x => kvSet x 0 (imm8 ++ (kv x 0).extractLsb' 0 8)) s

/-- R288, R291 SHL. -/
def execKpShl (b : Fin 32) (d : Fin 8) (imm5 : BitVec 5) (s : State) : Out :=
  let n := imm5.toNat
  kpBad (.kpShl b d imm5) (decide (16 ≤ n)) b (fun x =>
    { kpL x d (kv x d <<< n) with c := decide (n ≠ 0) && (kv x d).getLsbD (16 - n) }) s

/-- R288, R291 SHR. -/
def execKpShr (b : Fin 32) (d : Fin 8) (imm5 : BitVec 5) (s : State) : Out :=
  let n := imm5.toNat
  kpBad (.kpShr b d imm5) (decide (16 ≤ n)) b (fun x =>
    { kpL x d (kv x d >>> n) with c := decide (n ≠ 0) && (kv x d).getLsbD (n - 1) }) s

/-- R291 RLT. -/
def execKpRlt (b : Fin 32) (d : Fin 8) (s : State) : Out :=
  kpReg (.kpRlt b d) b (fun x => { kpL x d ((kv x d).extractLsb' 0 15 ++ BitVec.ofBool x.t) with c := (kv x d).msb }) s

/-- R288, R291 TBV. -/
def execKpTbv (b : Fin 32) (d : Fin 8) (imm5 : BitVec 5) (s : State) : Out :=
  kpBad (.kpTbv b d imm5) (decide (16 ≤ imm5.toNat)) b (fun x => { x with t := (kv x d).getLsbD imm5.toNat }) s

/-- A word of DM as the present ec found it (R287). -/
def dmBefore (x : Sq) (w : Nat) : W16 := (tget none x.dmEc w).getD (tget 0 x.dm w)

/-- R287, R291 LD. -/
def execKpLd (b : Fin 32) (d src : Fin 8) (s : State) : Out :=
  kpReg (.kpLd b d src) b (fun x => kvSet x d (dmBefore x ((kv x src).toNat % 512))) s

/-- R287, R291 ST. -/
def execKpSt (b : Fin 32) (d src : Fin 8) (s : State) : Out :=
  kpReg (.kpSt b d src) b (fun x => { x with
    dm := tset 0 x.dm ((kv x src).toNat % 512) (kv x d), stEc := ((kv x src).toNat % 512) :: x.stEc }) s

/-- R291 LDLC. -/
def execKpLdlc (b : Fin 32) (imm8 : W8) (s : State) : Out := kpReg (.kpLdlc b imm8) b (fun x => { x with lc := imm8.setWidth 16 }) s

/-- R291 TOLC. -/
def execKpTolc (b : Fin 32) (src : Fin 8) (s : State) : Out := kpReg (.kpTolc b src) b (fun x => { x with lc := kv x src }) s

/-- R291 FRLC. -/
def execKpFrlc (b : Fin 32) (d : Fin 8) (s : State) : Out := kpReg (.kpFrlc b d) b (fun x => kvSet x d x.lc) s

/-! ### Streams (R291, R293, R297) -/

/-- A word enters the outbound FIFO. -/
def strPush (s : State) (b : Nat) (w : W16) : State :=
  mBank s b fun k => { k with sout := { k.sout with
    fifo := k.sout.fifo ++ [w], since := k.sout.since ++ [s.ec] } }

/-- The next word leaves the inbound FIFO for V[d]. -/
def strPull (s : State) (b d : Nat) : State :=
  let w := (gBank s b).sin.fifo.headD 0
  mSq (mBank s b fun k => { k with sin := { k.sin with fifo := k.sin.fifo.tail } }) b fun x => kvSet x d w

/-- The next word follows. -/
def sqNext (s : State) (b : Nat) : State :=
  mSq s b fun x => sqStepEnd { x with st := .run, wait := none, pc := x.pc + 1, bpPass := false }

/-- R291, R297 PUSH. -/
def execKpPush (b : Fin 32) (src : Fin 8) (s : State) : Out :=
  let w := kv (gSq s b.val) src
  kpIssue (.kpPush b src) b (fun s =>
    if !(gBank s b.val).sout.en then sqTrap s b.val 0x05
    else if (gBank s b.val).sout.fifo.length < 64 then sqNext (strPush s b.val w) b.val
    else sqWaitOn s b.val (.push w)) s

/-- R291, R297 PULL. -/
def execKpPull (b : Fin 32) (d : Fin 8) (s : State) : Out :=
  kpIssue (.kpPull b d) b (fun s =>
    if !(gBank s b.val).sin.en then sqTrap s b.val 0x05
    else if !(gBank s b.val).sin.fifo.isEmpty then sqNext (strPull s b.val d) b.val
    else sqWaitOn s b.val (.pull d)) s

/-! ### Epoch, cues, captures (R291, R294, R295) -/

/-- R291 EPNOW. -/
def execKpEpnow (b : Fin 32) (s : State) : Out := kpReg (.kpEpnow b) b (fun x => { x with ep := tbPc s }) s

/-- R291 EPADD. -/
def execKpEpadd (b : Fin 32) (src : Fin 8) (s : State) : Out :=
  kpReg (.kpEpadd b src) b (fun x => { x with ep := x.ep + (kv x src).setWidth 64 }) s

/-- R291 EPADDI. -/
def execKpEpaddi (b : Fin 32) (imm8 : W8) (s : State) : Out :=
  kpReg (.kpEpaddi b imm8) b (fun x => { x with ep := x.ep + 16 * imm8.setWidth 64 }) s

/-- A cue of the sequencer at EP. -/
def kpPostEp (b j : Nat) (a : BitVec 4) (s : State) : State := kpPost b j (gSq s b).ep a s

/-- R291 CUE. -/
def execKpCue (b : Fin 32) (j act8 : Fin 8) (s : State) : Out :=
  kpAct (.kpCue b j act8) b (kpPostEp b.val j.val (BitVec.ofNat 4 act8.val)) s

/-- R291 CUEC. -/
def execKpCuec (b : Fin 32) (j : Fin 8) (s : State) : Out :=
  kpAct (.kpCuec b j) b (fun s => kpPostEp b.val j.val (if (gSq s b.val).c then 6 else 5) s) s

/-- R291 CUEIMG. -/
def execKpCueimg (b : Fin 32) (src : Fin 8) (drive : Bool) (s : State) : Out :=
  let w := kv (gSq s b.val) src
  kpAct (.kpCueimg b src drive) b (fun s => foldNat (fun acc j =>
    if w.getLsbD (8 + j) then
      kpPostEp b.val j (match drive, w.getLsbD j with
        | false, false => 0
        | false, true => 1
        | true, false => 5
        | true, true => 6) acc
    else acc) s (List.range 8)) s

/-- R291, R294 MARKNOW. -/
def execKpMarknow (b : Fin 32) (j : Fin 8) (s : State) : Out :=
  kpAct (.kpMarknow b j) b (fun s => kpPost b.val j.val (tbPcNext s) 7 s) s

/-- R291 EPCR. -/
def execKpEpcr (b : Fin 32) (s : State) : Out := kpReg (.kpEpcr b) b (fun x => { x with ep := x.crT }) s

/-- The pin image (R283). -/
def pinImage (s : State) (b : Nat) : Nat :=
  foldNat (fun acc j => acc + b2n (gPin s (bankPin b j)).sync * 2 ^ j) 0 (List.range 8)

/-- R291 INP. -/
def execKpInp (b : Fin 32) (d : Fin 8) (s : State) : Out :=
  kpReg (.kpInp b d) b (fun x => kvSet x d (BitVec.ofNat 16 (pinImage s b.val))) s

/-- R291 TPIN. -/
def execKpTpin (b : Fin 32) (j : Fin 8) (s : State) : Out :=
  kpReg (.kpTpin b j) b (fun x => { x with t := (gPin s (bankPin b.val j.val)).sync }) s

/-- R291, R295 CAPR. -/
def execKpCapr (b : Fin 32) (j : Fin 8) (s : State) : Out :=
  let pin := bankPin b.val j.val
  kpAct (.kpCapr b j) b (fun s => match capSeen s pin with
    | [] => mSq s b.val fun x => { x with t := false }
    | c :: _ => mSq (popCapture s pin) b.val fun x => { x with
        crT := c.t, crE := BitVec.ofNat 3 (capCode c), t := true }) s

/-- R291 CRD: the difference is clamped to 0 to 0xFFFF. -/
def execKpCrd (b : Fin 32) (d : Fin 8) (s : State) : Out :=
  kpReg (.kpCrd b d) b (fun x =>
    let diff : Int := (x.crT.toNat : Int) - x.ep.toNat
    let w : W16 := if diff < 0 then 0 else if 0xFFFF < diff then 0xFFFF else BitVec.ofInt 16 diff
    { kvSet x d w with z := decide (w = 0), c := decide (diff < 0 ∨ 0xFFFF < diff) }) s

/-- R291 CRE. -/
def execKpCre (b : Fin 32) (d : Fin 8) (s : State) : Out := kpReg (.kpCre b d) b (fun x => kvSet x d (x.crE.setWidth 16)) s

/-! ### Mailboxes (R291, R296) -/

def mMbx (s : State) (b : Nat) (f : Mbx → Mbx) : State := mBank s b fun k => { k with mbx := f k.mbx }

/-- R291, R296 MBR: a write to the word in the same ec applies after it. -/
def execKpMbr (b : Fin 32) (r : Fin 8) (k : Fin 4) (s : State) : Out :=
  let m := (gBank s b.val).mbx
  kpAct (.kpMbr b r k) b (fun s => match tget none m.inEc k.val with
    | none => mSq (mMbx s b.val fun x => { x with inFull := clrBit x.inFull k.val }) b.val fun x =>
        { kvSet x r (tget 0 m.mbin k.val) with t := m.inFull.getLsbD k.val }
    | some (old, full, ovw) => mSq (mMbx s b.val fun x => { x with
        inOvw := if ovw then x.inOvw else clrBit x.inOvw k.val }) b.val fun x => { kvSet x r old with t := full }) s

/-- R291, R296 MBW. -/
def execKpMbw (b : Fin 32) (r : Fin 8) (k : Fin 4) (s : State) : Out :=
  kpAct (.kpMbw b r k) b (fun s => mMbx s b.val fun x => { x with
    mbout := tset 0 x.mbout k.val (kv (gSq s b.val) r)
    outOvw := if x.outFull.getLsbD k.val then setBit x.outOvw k.val else x.outOvw
    outFull := setBit x.outFull k.val, outEc := setBit x.outEc k.val }) s

/-- The bytes of a 16-bit word that byte enables replace. -/
def mergeHalf (old new : W16) (lo hi : Bool) : W16 :=
  (if hi then new.extractLsb' 8 8 else old.extractLsb' 8 8) ++ (if lo then new.extractLsb' 0 8 else old.extractLsb' 0 8)

/-- A write to SEQ_MBIN under byte enables (R296). -/
def mbinPut (s : State) (b : Nat) (be : W8) (data : W64) : State :=
  foldNat (fun acc k =>
    let lo := be.getLsbD (2 * k)
    let hi := be.getLsbD (2 * k + 1)
    if lo || hi then
      mMbx acc b fun x => { x with
        mbin := tset 0 x.mbin k (mergeHalf (tget 0 x.mbin k) (data.extractLsb' (16 * k) 16) lo hi)
        inOvw := if x.inFull.getLsbD k then setBit x.inOvw k else x.inOvw
        inFull := setBit x.inFull k
        inEc := if (tget none x.inEc k).isSome then x.inEc
          else tset none x.inEc k (some (tget 0 x.mbin k, x.inFull.getLsbD k, x.inOvw.getLsbD k)) }
    else acc) s (List.range 4)

/-- R296 SEQ_MBIN_WRITE. -/
def execSeqMbinWrite (b : Fin 32) (be : W8) (data : W64) (s : State) : Out :=
  act (up s) (fun s => mbinPut s b.val be data) s

/-! ### Program and data memory (R286, R287) -/

/-- A write to program memory (R286). -/
def pmPut (s : State) (b w : Nat) (x : W16) : State :=
  mSq s b fun q =>
    if q.st = .stopped ∨ q.st = .trapped then { q with pm := tset 0 q.pm w (x.extractLsb' 0 14) }
    else { q with pmwErr := true }

/-- R286 PROGRAM_MEMORY_WRITE. -/
def execProgramMemoryWrite (b : Fin 32) (w : BitVec 12) (data : W16) (s : State) : Out :=
  act (up s) (fun s => pmPut s b.val w.toNat data) s

/-- A write to DM by another party: the word that ST has written in the same ec remains (R287). -/
def dmPut (s : State) (b w : Nat) (x : W16) : State :=
  mSq s b fun q =>
    if q.stEc.contains w then q
    else { q with dm := tset 0 q.dm w x, dmEc := if (tget none q.dmEc w).isSome then q.dmEc
                                                 else tset none q.dmEc w (some (tget 0 q.dm w)) }

/-- R287 DM_WRITE. -/
def execDmWrite (b : Fin 32) (w : BitVec 9) (data : W16) (s : State) : Out :=
  act (up s) (fun s => dmPut s b.val w.toNat data) s

/-! ### Waits (R293) -/

/-- R293 WAITEP: EP below TB_2p sets LATE. -/
def execKpWaitep (b : Fin 32) (s : State) : Out :=
  kpIssue (.kpWaitep b) b (fun s =>
    let ep := (gSq s b.val).ep.toNat
    let s1 := if ep < (tbPc s).toNat then mSq s b.val fun x => { x with late := true } else s
    sqWaitOn s1 b.val .ep) s

/-- A wait of 1 + n pc. -/
def kpWaitCount (i : Instr) (b : Fin 32) (n : Nat) (s : State) : Out :=
  kpIssue i b (fun s => sqWaitOn s b.val (.count n)) s

/-- R293 WAITN. -/
def execKpWaitn (b : Fin 32) (imm8 : W8) (s : State) : Out := kpWaitCount (.kpWaitn b imm8) b imm8.toNat s

/-- R293 WAITV. -/
def execKpWaitv (b : Fin 32) (src : Fin 8) (s : State) : Out := kpWaitCount (.kpWaitv b src) b (kv (gSq s b.val) src).toNat s

/-- The condition of a wait holds (R293). -/
def sqHolds (s : State) (b : Nat) : SqWait → Bool
  | .ep => decide ((gSq s b).ep.toNat ≤ (tbPc s).toNat)
  | .count n => decide (n = 0)
  | .cap j => !(capSeen s (bankPin b j)).isEmpty
  | .mb k => (gBank s b).mbx.inFull.getLsbD k
  | .room j => decide ((gPin s (bankPin b j)).cueQ.length < 16)
  | .push _ => !(gBank s b).sout.en || decide ((gBank s b).sout.fifo.length < 64)
  | .pull _ => !(gBank s b).sin.en || !(gBank s b).sin.fifo.isEmpty

/-- A wait for what a thread, a pin or memory sets. -/
def kpWaitFor (i : Instr) (b : Fin 32) (w : SqWait) (s : State) : Out :=
  kpIssue i b (fun s => sqWaitOn s b.val w) s

/-- R293 WCAP. -/
def execKpWcap (b : Fin 32) (j : Fin 8) (s : State) : Out := kpWaitFor (.kpWcap b j) b (.cap j.val) s

/-- R293 WMB. -/
def execKpWmb (b : Fin 32) (k : Fin 4) (s : State) : Out := kpWaitFor (.kpWmb b k) b (.mb k.val) s

/-- R293 WROOM. -/
def execKpWroom (b : Fin 32) (j : Fin 8) (s : State) : Out := kpWaitFor (.kpWroom b j) b (.room j.val) s

/-- The wait of bank b's sequencer ends at the start of the present pc: another pc than that of its word has come, and its
condition holds (R293). -/
def waitOver (s : State) (b : Nat) : Bool :=
  let x := gSq s b
  live s && (decide (x.st = .run) || decide (x.st = .wait)) && decide (s.ec % 2 = 0) && decide (x.lastPc ≠ some (s.ec / 2)) &&
    match x.wait with
    | none => false
    | some w => sqHolds s b w

/-- R285, R293 KP_WAIT_END: the wait's condition holds, and the next word issues in the present pc. A PUSH or PULL whose
ring is no longer enabled traps (R297). -/
def execKpWaitEnd (b : Fin 32) (s : State) : Out :=
  match (gSq s b.val).wait with
  | none => .next s
  | some w => act (waitOver s b.val) (fun s => match w with
      | .push v => if (gBank s b.val).sout.en then sqNext (strPush s b.val v) b.val else sqTrap s b.val 0x05
      | .pull d => if (gBank s b.val).sin.en then sqNext (strPull s b.val d) b.val else sqTrap s b.val 0x05
      | _ => sqNext s b.val) s

/-- A pc of a WAITN or WAITV has passed (R293). -/
def waitPassed : Option SqWait → Option SqWait
  | some (.count (n + 1)) => some (.count n)
  | w => w

/-- A pc begins for a sequencer with a wait: a pc that it has spent in WAIT has passed, and a wait that goes on from RUN is a
WAIT (R285, R293). -/
def sqWaiting (s : State) (b : Nat) : State :=
  match (gSq s b).st with
  | .wait => mSq s b fun x => { x with wait := waitPassed x.wait }
  | .run => if (gSq s b).wait.isSome && !waitOver s b then mSq s b fun x => { x with st := .wait } else s
  | _ => s

/-- A pc boundary acts on one of a sequencer's requests (R285, R302, R481). -/
def sqBoundary (s : State) (b : Nat) (r : SqReq) : State :=
  let x := gSq s b
  if x.st = .run ∨ x.st = .wait then
    match r with
    | .stop => mSq s b sqStopNow
    | .pause => mSq s b fun x => { x with st := .paused, kept := x.st }
    | .halt => mSq s b fun x => { x with st := .halt, kept := x.st, stepping := false }
    | .restart => s
  else if x.st = .stopped ∨ x.st = .trapped then
    match r with
    | .restart => mSq (sqStart s b) b fun x => { x with lastPc := none }
    | .pause => mSq s b fun x => { x with st := .paused, kept := x.st }
    | .stop | .halt => s
  else s

/-- What waits for a pc boundary, in the order in which it acts: a pause keeps the state that the rest leaves (R285). -/
def sqReqs (x : Sq) : List SqReq :=
  (x.req.filter fun r => decide (r ≠ .pause)) ++ x.req.filter fun r => decide (r = .pause)

/-- The start of a pc at bank b: requests, then the waits (R284, R285, R293). -/
def sqPc (s : State) (b : Nat) : State :=
  let rs := sqReqs (gSq s b)
  sqWaiting (rs.foldl (fun acc r => sqBoundary acc b r) (mSq s b fun x => { x with req := [] })) b

/-- What the end of an ec leaves of a bank's notes of the ec (R12, R287, R296). -/
def bankEcEnd (k : Bank) : Bank :=
  { k with sq := { k.sq with dmEc := [], stEc := [] }, mbx := { k.mbx with inEc := [], outEc := 0 } }

/-- A kept state goes on: a WAITEP is evaluated again and sets LATE when EP has passed (R303, R481). -/
def sqGoOn (s : State) (x : Sq) : Sq :=
  { x with
    st := x.kept, lastPc := some (s.ec / 2)
    late := x.late || (decide (x.wait = some .ep) && decide (x.ep.toNat < (tbPc s).toNat)) }

/-! ### Stream rings (R297) -/

def strWords (r : Strm) : Nat := 32 * 2 ^ r.size.toNat

/-- Words of a ring between its indices. -/
def strUsed (r : Strm) : Nat := (r.wr - r.rd).toNat

/-- A ring enters error: EN and STRERR, and event 0x6303 with cause 0x05 (R297). -/
def strError (s : State) (b : Nat) (inbound : Bool) : State :=
  let s1 := mBank s b fun k =>
    if inbound then { k with sin := { k.sin with en := false } } else { k with sout := { k.sout with en := false } }
  logEv (mSq s1 b fun x => { x with strErr := true }) 0x6303 [b, (gSq s b).pc.toNat, 0x05]

/-- 16-bit words of bytes, and bytes of words. -/
def words16 (bs : List W8) (n : Nat) : List W16 :=
  (List.range n).map fun i => BitVec.ofNat 16 (leNat ((bs.drop (2 * i)).take 2))
def bytes16 (ws : List W16) : List W8 := (ws.map fun (w : W16) => leBytes 2 w.toNat).flatten

/-- R297 STREAM_IN_FETCH: as many words as the ring, its end and the FIFO allow. -/
def execStreamInFetch (b : Fin 32) (ans : MemAns) (s : State) : Out :=
  let r := (gBank s b.val).sin
  let i := r.rd.toNat % strWords r
  let n := min (min (strUsed r) (64 - r.fifo.length)) (strWords r - i)
  act (live s && r.en) (fun s =>
    if strWords r < strUsed r then strError s b.val true
    else if n = 0 then s
    else match moverRead s (srcId 0 (bankId b.val)) 3 (r.base.toNat + 2 * i) (2 * n) ans with
      | (s1, some bs) => mBank s1 b.val fun k => { k with sin := { k.sin with
          fifo := k.sin.fifo ++ words16 bs n, rd := k.sin.rd + BitVec.ofNat 32 n } }
      | (s1, none) => strError s1 b.val true) s

/-- R297 STREAM_OUT_FLUSH: the words of the FIFO go out when it holds 32 or when one has waited 256 pc, as far as the ring
and its end have room. -/
def execStreamOutFlush (b : Fin 32) (ans : MemAns) (s : State) : Out :=
  let r := (gBank s b.val).sout
  let i := r.wr.toNat % strWords r
  let n := min (min (strWords r - strUsed r) r.fifo.length) (strWords r - i)
  act (live s && r.en && (decide (32 ≤ r.fifo.length) || r.since.any fun t => decide (t + 512 ≤ s.ec))) (fun s =>
    if strWords r < strUsed r then strError s b.val false
    else if n = 0 then s
    else match moverWrite s (srcId 1 (bankId b.val)) 3 (r.base.toNat + 2 * i) (bytes16 (r.fifo.take n)) ans with
      | (s1, true) => mBank s1 b.val fun k => { k with sout := { k.sout with
          fifo := k.sout.fifo.drop n, since := k.sout.since.drop n, wr := k.sout.wr + BitVec.ofNat 32 n } }
      | (s1, false) => strError s1 b.val false) s

end Sys2Proof.Machine
end

