-- ==== Sys2Proof/Machine/Dma.lean ====
section
/-! DEFINITION. The DMA channels (spec/11 R394–R406). Answers settle as they arrive; the read issuer and the write issuer each give
one slot at the end of an ec (R395, log 14). -/

namespace Sys2Proof.Machine

/-- Master ID of channel c (R394). -/
def dcId (c : Nat) : Nat := 0x800 + c

/-- [a, a+n) lies inside one of the three regions (R394). -/
def dmaRegion (a n : Nat) : Bool :=
  decide (extBase ≤ a ∧ a + n ≤ 0x8000000000) || decide (0x20000000 ≤ a ∧ a + n ≤ 0x22000000) ||
    decide (0x10000000 ≤ a ∧ a + n ≤ 0x11100000)

/-- DMADONE becomes pending at the threads that name channel c (R215). -/
def dmaDone (s : State) (c : Nat) : State :=
  s.en.emap.foldl (fun acc e => foldNat (fun acc t =>
    let k := e.2 * 32 + t
    if (gThr acc k).evDma.toNat = c then latchEv acc k 13 else acc) acc (List.range 32)) s

/-! ### Data movement (R394, R401, R402, R404) -/

/-- Bytes staged or outstanding, `DC_STAT.STAGED` (R405). -/
def dcStaged (d : Dc) : Nat := d.rdOut.foldl (fun n r => n + r.2) d.stage.length

def dcFill (d : Dc) : Bool := d.act.flags.getLsbD 2
def dcBar (d : Dc) : Bool := d.act.flags.getLsbD 0

/-- Error code of a failed response (R401). -/
def dmaCode : MpSt → W8
  | .okay => 0x00
  | .decErr => 0x01
  | .dataErr => 0x02
  | .timeout => 0x03

/-- The channel moves data: RUN or PAUSING, and no request of it has failed. -/
def dcMoves (d : Dc) : Bool := (decide (d.st = .run) || decide (d.st = .pausing)) && d.bad.isNone

/-- A request has failed: the first failure counts (R401). -/
def dcFail (d : Dc) (code : W8) (a : Nat) : Dc := if dcMoves d then { d with bad := some (code, BitVec.ofNat 48 a) } else d

/-- The oldest outstanding read has been answered: its data are staged, or discarded. -/
def dcSettleRd (s : State) (c : Nat) : Option State :=
  let d := gDc s c
  match d.rdOut with
  | (j, _) :: t =>
    if jobDone s j then
      let ans := jobAns s j
      some (mDc (takeJob s j) c fun d =>
        let d1 := { d with rdOut := t }
        match worst ans with
        | .okay => if dcMoves d then { d1 with stage := d.stage ++ jobData ans } else d1
        | e => dcFail d1 (dmaCode e) (d.act.src.toNat + d.wrPos + d.stage.length))
    else none
  | [] => none

/-- The oldest outstanding write has been answered. -/
def dcSettleWr (s : State) (c : Nat) : Option State :=
  let d := gDc s c
  match d.wrOut with
  | (j, n, pos) :: t =>
    if jobDone s j then
      let ans := jobAns s j
      some (mDc (takeJob s j) c fun d =>
        let d1 := { d with wrOut := t }
        match worst ans with
        | .okay => if d.wrBad then d1 else { d1 with acked := d.acked + n }
        | e => { dcFail d1 (dmaCode e) (if n = 0 then pos else d.act.dst.toNat + pos) with wrBad := d.wrBad || decide (n ≠ 0) })
    else none
  | [] => none

/-- The next write of staged data: to external memory at most one 256-byte piece, on chip at most 64 bytes. A freeze lets what has
been read be written (R402, R461). -/
def dcWrite (s : State) (c : Nat) : Option State :=
  let d := gDc s c
  let a := d.act.dst.toNat + d.wrPos
  if !dcMoves d || d.stage.isEmpty then none
  else
    let near (f : State → List W8 → State) : State :=
      let bs := d.stage.take (64 - a % 64)
      mDc (f s bs) c fun d => { d with
        stage := d.stage.drop bs.length, wrPos := d.wrPos + bs.length, acked := d.acked + bs.length }
    match spaceOf a with
    | .ext off =>
      let bs := d.stage.take (256 - off % 256)
      let j := s.ms.nextJob
      let s1 := mDc (newJob s) c fun d => { d with
        stage := d.stage.drop bs.length, wrPos := d.wrPos + bs.length, wrOut := d.wrOut ++ [(j, bs.length, d.wrPos)] }
      some (mpWrite s1 off bs (srcId 1 (dcId c)) d.pri j)
    | .wings off => some (near fun s bs => wingsWrite s off bs)
    | .mesh p off =>
      if peOn s p then some (near fun s bs => lmWrite s false p off bs)
      else some (mDc s c fun d => { dcFail d 0x05 a with wrBad := true })
    | _ => none

/-- The channel has bytes left to read and room in its staging (R395). -/
def dcLeft (d : Dc) : Nat := min (d.act.len - d.rdPos) (2048 - dcStaged d)

/-- Data that have been read are staged. -/
def dcStagePut (s : State) (c : Nat) (bs : List W8) : State :=
  mDc s c fun d => { d with stage := d.stage ++ bs, rdPos := d.rdPos + bs.length }

/-- The next read, while fewer than 2,048 bytes are staged or outstanding. -/
def dcRead (s : State) (c : Nat) : Option State :=
  let d := gDc s c
  let a := d.act.src.toNat + d.rdPos
  let room := dcLeft d
  if d.st ≠ .run || !dcMoves d || dcFill d || room = 0 || s.mg.sm.frozen then none
  else
    let near := min room (64 - a % 64)
    match spaceOf a with
    | .ext off =>
      let n := min room (256 - off % 256)
      let j := s.ms.nextJob
      let s1 := mDc (newJob s) c fun d => { d with rdPos := d.rdPos + n, rdOut := d.rdOut ++ [(j, n)] }
      some (mpRead s1 off n (srcId 0 (dcId c)) d.pri j)
    | .wings off => match wingsRead s off near with
      | some bs => some (dcStagePut s c bs)
      | none => some (mDc (wingsEcc s off (dcId c)) c fun d => dcFail d 0x02 a)
    | .mesh p off =>
      if !peOn s p then some (mDc s c fun d => dcFail d 0x05 a)
      else match lmRead s false p off near with
        | some bs => some (dcStagePut s c bs)
        | none => some (mDc (logEv s 0x2412 [p, off / 0x20000, off, dcId c]) c fun d => dcFail d 0x02 a)
    | _ => none

/-- A FILL channel stages its pattern and reads nothing (R396). -/
def dcPattern (s : State) (c : Nat) : State :=
  let d := gDc s c
  if d.st ≠ .run || !dcMoves d || !dcFill d || s.mg.sm.frozen then s
  else dcStagePut s c ((List.range (dcLeft d)).map fun i => (leBytes 4 d.act.pat.toNat).getD ((d.rdPos + i) % 4) 0)

/-- Settles what has been answered, oldest first; the fuel is the number of requests outstanding. -/
def dcSettleN (c : Nat) : Nat → State → State
  | 0, s => s
  | n + 1, s =>
    match dcSettleRd s c with
    | some s1 => dcSettleN c n s1
    | none => match dcSettleWr s c with
      | some s1 => dcSettleN c n s1
      | none => s

def dcSettle (s : State) (c : Nat) : State :=
  let d := gDc s c
  dcSettleN c (d.rdOut.length + d.wrOut.length) s

/-- Every channel takes the answers that have arrived. -/
def dmaSettle (s : State) : State := (s.mv.dc.map Prod.fst).foldl dcSettle s

/-- The channel that a slot goes to: the highest PRI of those that can use it, and among equal ones the next by number after the one
that had that PRI's slot before (R395). -/
def slotFor (s : State) (last : Tab Nat) (can : Nat → Bool) : Option Nat :=
  let cs := (s.mv.dc.map Prod.fst).filter can
  let top := cs.foldl (fun m c => max m (gDc s c).pri.toNat) 0
  let key (c : Nat) : Nat := (c + 63 - tget 63 last top) % 64
  (cs.filter fun c => decide ((gDc s c).pri.toNat = top)).foldl (fun a c => match a with
    | none => some c
    | some b => if key c < key b then some c else some b) none

/-- The turn of a PRI moves on to channel c (R395). -/
def turnTo (s : State) (last : Tab Nat) (c : Nat) : Tab Nat := tset 63 last (gDc s c).pri.toNat c

/-- The write issuer's slot. -/
def dmaWriteSlot (s : State) : State :=
  match slotFor s s.mv.wrTurn fun c => (dcWrite s c).isSome with
  | none => s
  | some c => match dcWrite s c with
    | some s1 => { s1 with mv := { s1.mv with wrTurn := turnTo s s.mv.wrTurn c } }
    | none => s

/-- The read issuer's slot. -/
def dmaReadSlot (s : State) : State :=
  match slotFor s s.mv.rdTurn fun c => (dcRead s c).isSome with
  | none => s
  | some c => match dcRead s c with
    | some s1 => { s1 with mv := { s1.mv with rdTurn := turnTo s s.mv.rdTurn c } }
    | none => s

/-- The DMA unit's share of the end of an ec: one request from each issuer (log 14). -/
def dmaEnd (s : State) : State :=
  if s.mv.dc.isEmpty then s
  else
    let s1 := dmaSettle s
    dmaReadSlot (dmaWriteSlot ((s1.mv.dc.map Prod.fst).foldl dcPattern s1))

/-! ### Starting and ending a transfer (R396, R397, R399, R404) -/

/-- The set breaks a rule of R396. -/
def dsetBad (x : DSet) : Bool :=
  decide (x.len = 0) || !dmaRegion x.dst.toNat x.len || (!x.flags.getLsbD 2 && !dmaRegion x.src.toNat x.len)

/-- ERROR is entered (R400, R401). -/
def dcEnterError (s : State) (c : Nat) (code : W8) (a : Option W48) : State :=
  mDc s c fun d => { d with
    st := .error, errCode := code, errAddr := a.getD d.errAddr, stage := [], bad := none, errOpen := true }

/-- Address of descriptor NEXT (R397). -/
def descAddr (d : Dc) : Nat := d.ringBase.toNat + d.next.toNat % 2 ^ d.log2.toNat * 32

/-- Writes bytes at an engine-view address from channel c, whose response nothing waits for. -/
def dcPost (s : State) (c a : Nat) (bs : List W8) : State :=
  match spaceOf a with
  | .wings off => wingsWrite s off bs
  | .ext off => mpWrite s off bs (srcId 2 (dcId c)) (gDc s c).pri 0
  | .mesh p off => if peOn s p then lmWrite s false p off bs else s
  | _ => s

/-- Every outstanding response has arrived. -/
def dcDrained (s : State) (d : Dc) : Bool :=
  d.rdOut.all (fun r => jobDone s r.1) && d.wrOut.all fun w => jobDone s w.1

/-- ERROR with nothing outstanding: the write-back in ring mode, which moves NEXT on as at completion (R397, R401; DEDUCED log 14), the
report, the event (R400). -/
def dcFinishError (s : State) (c : Nat) : State :=
  let d := gDc s c
  let s1 := if d.rehearsal || d.errCode = 0x06 then s
    else mDc (dcPost s c (descAddr d + 30) [d.errCode, 0]) c fun d => { d with next := d.next + 1 }
  let s2 := mDc s1 c fun d => { d with err := true, errOpen := false, loaded := false }
  let s3 := { s2 with mv := { s2.mv with errMap := setBit s2.mv.errMap c } }
  logEv (dmaDone s3 c) 0x2201 [c, d.errCode.toNat, d.errAddr.toNat]

/-- A request has failed, or a set has been refused: ERROR, with its end at once when nothing is outstanding. -/
def dcError (s : State) (c : Nat) (code : W8) (a : Option W48) : State :=
  let s1 := dcSettle (dcEnterError s c code a) c
  if dcDrained s1 (gDc s1 c) then dcFinishError s1 c else s1

/-- A set is loaded and runs, or is refused with code 0x04 (R396, R399). -/
def dcLoad (s : State) (c : Nat) (x : DSet) (stop : Bool) : State :=
  let s1 := mDc s c fun d => { d with
    act := x, stop := stop, stage := [], rdPos := 0, wrPos := 0, acked := 0, loaded := true, bad := none, wrBad := false }
  if dsetBad x then dcError s1 c 0x04 none else mDc s1 c fun d => { d with st := .run }

/-- A channel in IDLE: PAUSED when PAUSE is 1; in rehearsal mode an armed shadow set starts (R399, R400). A transfer whose end a pause
has kept back completes first. -/
def dcIdle (s : State) (c : Nat) : State :=
  let d := gDc s c
  if d.st ≠ .idle || d.loaded then s
  else if d.pause then mDc s c fun d => { d with st := .paused }
  else if d.rehearsal && d.shValid then dcLoad (mDc s c fun d => { d with shValid := false }) c d.shd false
  else s

/-- A write of 1 to DC_CTL.EN (R400, R405). -/
def dcOn (s : State) (c : Nat) : State :=
  let d := gDc s c
  if d.st ≠ .off then s
  else if !d.rehearsal && (decide (d.log2.toNat < 2) || decide (16 < d.log2.toNat)) then
    mDc s c fun d => { d with en := false, cfgErr := true }
  else dcIdle (mDc s c fun d => { d with en := true, st := .idle, fetch := !d.rehearsal }) c

/-- The channel stops in the middle: ABORTING (R400, R403). -/
def dcAbort (s : State) (c : Nat) : State :=
  let d := gDc s c
  if d.st = .run ∨ d.st = .pausing ∨ d.st = .paused then
    mDc s c fun d => { d with st := .aborting, stage := [], bad := none, fetch := false }
  else s

/-- OFF: what is still outstanding is discarded where it arrives, and the active set is kept. -/
def dcToOff (s : State) (c : Nat) : State :=
  let d := gDc s c
  let s1 := (d.rdOut.map Prod.fst ++ d.wrOut.map Prod.fst).foldl dropJob s
  mDc s1 c fun d => { d with
    st := .off, en := false, rdOut := [], wrOut := [], stage := [], fetch := false, loaded := false, errOpen := false }

/-- A write of 0 to DC_CTL.EN (R400). -/
def dcOff (s : State) (c : Nat) : State :=
  match (gDc s c).st with
  | .run => dcAbort (mDc s c fun d => { d with en := false }) c
  | .pausing => dcAbort (mDc s c fun d => { d with en := false }) c
  | .idle => dcToOff s c
  | .paused => dcToOff s c
  | .error => dcToOff s c
  | _ => mDc s c fun d => { d with en := false }

/-- A write of 1 to DC_CTL.PAUSE (R400). -/
def dcPauseSet (s : State) (c : Nat) : State :=
  mDc s c fun d => { d with
    pause := true
    st := match d.st with
      | .idle => .paused
      | .run => .pausing
      | x => x }

/-- PAUSED with PAUSE at 0: a transfer with bytes left goes on, otherwise IDLE, where one that the pause kept from its completion
completes (R400, R402, log 14). -/
def dcResume (s : State) (c : Nat) : State :=
  let d := gDc s c
  if d.st ≠ .paused || d.pause then s
  else if d.loaded && decide (d.wrPos < d.act.len) then mDc s c fun d => { d with st := .run }
  else dcIdle (mDc s c fun d => { d with st := .idle }) c

/-- A write of 0 to DC_CTL.PAUSE. -/
def dcPauseClr (s : State) (c : Nat) : State := dcResume (mDc s c fun d => { d with pause := false }) c

/-- ARM (R399). -/
def dcArm (s : State) (c : Nat) : State := dcIdle (mDc s c fun d => { d with shValid := true }) c

/-! ### The rows -/

/-- R400 DC_ENABLE. -/
def execDcEnable (c : Fin 64) (s : State) : Out := act (up s) (fun s => dcOn s c.val) s

/-- R400 DC_DISABLE. -/
def execDcDisable (c : Fin 64) (s : State) : Out := act (up s) (fun s => dcOff s c.val) s

/-- R400, R402 PAUSE. -/
def execPause (c : Fin 64) (s : State) : Out := act (up s) (fun s => dcPauseSet s c.val) s

/-- R400, R402 PAUSE_CLEAR. -/
def execPauseClear (c : Fin 64) (s : State) : Out := act (up s) (fun s => dcPauseClr s c.val) s

/-- R403 DMA_ABORT. -/
def execDmaAbort (c : Fin 64) (s : State) : Out := act (up s) (fun s => dcAbort s c.val) s

/-- R399 ARM. -/
def execArm (c : Fin 64) (s : State) : Out := act (up s) (fun s => dcArm s c.val) s

/-- R397 DOORBELL. -/
def execDoorbell (c : Fin 64) (s : State) : Out :=
  act (up s) (fun s => mDc s c.val fun d => { d with dbPend := true }) s

/-- The fields of a descriptor's 32 bytes: the set, STOP, OWN, and whether a reserved field is not 0 (R396). -/
def descOf (bs : List W8) : DSet × Bool × Bool × Bool :=
  let n (i k : Nat) : Nat := leNat ((bs.drop i).take k)
  ({ src := BitVec.ofNat 48 (n 0 6), dst := BitVec.ofNat 48 (n 8 6), len := n 16 3
     flags := BitVec.ofNat 3 (n 20 4), pat := BitVec.ofNat 32 (n 24 4) },
   bitOf (n 20 4) 3, bitOf (n 31 1) 7,
   decide (n 6 2 ≠ 0) || decide (n 14 2 ≠ 0) || decide (n 19 1 ≠ 0) || decide (16 ≤ n 20 4) || decide (n 31 1 % 128 ≠ 0))

/-- A channel reads or writes its ring inside one step. -/
def ringRead (s : State) (c a n : Nat) (ans : MemAns) : State × Option (List W8) :=
  match spaceOf a with
  | .mesh p off =>
    if !peOn s p then (s, none)
    else match lmRead s false p off n with
      | some bs => (s, some bs)
      | none => (logEv s 0x2412 [p, off / 0x20000, off, dcId c], none)
  | _ => moverRead s (srcId 2 (dcId c)) (gDc s c).pri a n ans

def ringWrite (s : State) (c a : Nat) (bs : List W8) (ans : MemAns) : State × Bool :=
  match spaceOf a with
  | .mesh p off => if peOn s p then (lmWrite s false p off bs, true) else (s, false)
  | _ => moverWrite s (srcId 2 (dcId c)) (gDc s c).pri a bs ans

/-- R396, R397 DMA_DESCRIPTOR_FETCH. -/
def execDmaDescriptorFetch (c : Fin 64) (ans : MemAns) (s : State) : Out :=
  let d := gDc s c.val
  let a := descAddr d
  act (live s && decide (d.st = .idle) && !d.loaded && !d.rehearsal && (d.fetch || d.dbPend)) (fun s =>
    let s1 := mDc s c.val fun d => { d with fetch := false, dbPend := false }
    match ringRead s1 c.val a 32 ans with
    | (s2, none) => dcError s2 c.val 0x06 (some (BitVec.ofNat 48 a))
    | (s2, some bs) =>
      let x := descOf bs
      if !x.2.2.1 then s2
      else if x.2.2.2 then
        dcError (mDc s2 c.val fun d => { d with act := x.1, acked := 0, rdPos := 0, wrPos := 0 }) c.val 0x04 none
      else dcLoad s2 c.val x.1 x.2.1) s

/-- The transfer's bytes have all been issued as writes, and with BAR acknowledged (R404). -/
def dcComplete (d : Dc) : Bool :=
  (decide (d.st = .run) || decide (d.st = .idle)) && d.loaded && d.bad.isNone && decide (d.wrPos = d.act.len) && (!dcBar d || d.wrOut.isEmpty)

/-- What completion leaves: the active set has no bytes left, and writes still outstanding stand with their addresses. -/
def dcDoneSet (d : Dc) : Dc :=
  { d with
    st := .idle, loaded := false, done := true, doneCnt := d.doneCnt + 1, acked := d.act.len
    wrOut := d.wrOut.map fun w => (w.1, 0, if w.2.1 = 0 then w.2.2 else d.act.dst.toNat + w.2.2) }

/-- R404, R397, R399 DMA_COMPLETION: the write-back in ring mode, the report, and the next transfer. -/
def execDmaCompletion (c : Fin 64) (writeBack : MemAns) (s : State) : Out :=
  let d := gDc s c.val
  let a := descAddr d
  let finish (s : State) : State :=
    let s1 := mDc s c.val dcDoneSet
    let s2 := if d.act.flags.getLsbD 1 then { s1 with mv := { s1.mv with doneMap := setBit s1.mv.doneMap c.val } } else s1
    dmaDone s2 c.val
  act (live s && dcComplete d) (fun s =>
    if d.rehearsal then dcIdle (finish s) c.val
    else match ringWrite s c.val (a + 30) [0, 0] writeBack with
      | (s1, false) => dcError s1 c.val 0x06 (some (BitVec.ofNat 48 (a + 30)))
      | (s1, true) => dcIdle (finish (mDc s1 c.val fun d => { d with next := d.next + 1, fetch := !d.stop })) c.val) s

/-- R400, R401 DMA_ERROR: a request of the channel has failed; or, in ERROR, the last outstanding response has arrived. -/
def execDmaError (c : Fin 64) (s : State) : Out :=
  let d := gDc s c.val
  match d.bad with
  | some (code, a) =>
    act (up s && (decide (d.st = .run) || decide (d.st = .pausing))) (fun s => dcError s c.val code (some a)) s
  | none => act (up s && decide (d.st = .error) && d.errOpen && dcDrained s d) (fun s => dcFinishError (dcSettle s c.val) c.val) s

/-- R400, R402 DMA_PAUSED. -/
def execDmaPaused (c : Fin 64) (s : State) : Out :=
  let d := gDc s c.val
  act (up s && decide (d.st = .pausing) && d.bad.isNone && d.stage.isEmpty && d.rdOut.isEmpty && d.wrOut.isEmpty) (fun s =>
    dcResume (mDc s c.val fun d => { d with st := .paused }) c.val) s

/-- R400, R403 DMA_ABORT_DONE. -/
def execDmaAbortDone (c : Fin 64) (s : State) : Out :=
  act (up s && decide ((gDc s c.val).st = .aborting) && dcDrained s (gDc s c.val)) (fun s =>
    dcToOff (dcSettle s c.val) c.val) s

/-! ### Registers (R405, R406) -/

/-- The active set as it reads: its written prefix has gone (R402). -/
def dcActSrc (d : Dc) : W48 := d.act.src + BitVec.ofNat 48 d.acked
def dcActDst (d : Dc) : W48 := d.act.dst + BitVec.ofNat 48 d.acked
def dcActLen (d : Dc) : Nat := d.act.len - d.acked

def dcStNum : DcSt → Nat
  | .off => 0
  | .idle => 1
  | .run => 2
  | .pausing => 3
  | .paused => 4
  | .aborting => 5
  | .error => 6

def dcStatWord (d : Dc) : Nat :=
  dcStNum d.st + 8 * b2n d.shValid + 16 * b2n d.done + 32 * b2n d.err + 64 * b2n d.shwErr + 128 * b2n d.cfgErr +
    256 * d.errCode.toNat + 2 ^ 16 * dcStaged d + 2 ^ 28 * b2n d.dbPend + 2 ^ 32 * d.doneCnt.toNat

/-- Registers of a channel by offset; none: no register. -/
def dcGet (d : Dc) (off : Nat) : Option Nat :=
  match off with
  | 0x000 => some (b2n d.rehearsal + 2 * d.pri.toNat)
  | 0x008 => some (b2n d.en + 2 * b2n d.pause + 4 * b2n (decide (d.st = .aborting)))
  | 0x010 => some (dcStatWord d)
  | 0x018 => some (d.ringBase.toNat + 2 ^ 48 * d.log2.toNat)
  | 0x020 => some d.next.toNat
  | 0x028 => some d.errAddr.toNat
  | 0x040 => some (dcActSrc d).toNat
  | 0x048 => some (dcActDst d).toNat
  | 0x050 => some (dcActLen d)
  | 0x058 => some d.act.flags.toNat
  | 0x060 => some d.act.pat.toNat
  | 0x080 => some d.shd.src.toNat
  | 0x088 => some d.shd.dst.toNat
  | 0x090 => some d.shd.len
  | 0x098 => some d.shd.flags.toNat
  | 0x0A0 => some d.shd.pat.toNat
  | _ => none

/-- A write that only an OFF channel takes (R405). -/
def dcCfgPut (s : State) (c : Nat) (f : Dc → Dc) : State :=
  mDc s c fun d => if d.st = .off then f d else { d with cfgErr := true }

/-- A write to the shadow set (R399). -/
def dcShdPut (s : State) (c : Nat) (f : DSet → DSet) : State :=
  mDc s c fun d => if d.shValid then { d with shwErr := true } else { d with shd := f d.shd }

/-- DC_CTL as it is written: EN and PAUSE take their bits, then ABORT, ARM and DOORBELL act. -/
def dcCtlPut (s : State) (c : Nat) (d : W64) : State :=
  let s1 := if d.getLsbD 0 then dcOn s c else dcOff s c
  let s2 := if d.getLsbD 1 then dcPauseSet s1 c else dcPauseClr s1 c
  let s3 := if d.getLsbD 2 then dcAbort s2 c else s2
  let s4 := if d.getLsbD 3 then dcArm s3 c else s3
  if d.getLsbD 4 then mDc s4 c fun d => { d with dbPend := true } else s4

/-- W1C bits of DC_STAT. -/
def dcStatClr (s : State) (c : Nat) (d : W64) : State :=
  mDc s c fun x => { x with
    done := x.done && !d.getLsbD 4, err := x.err && !d.getLsbD 5, shwErr := x.shwErr && !d.getLsbD 6
    cfgErr := x.cfgErr && !d.getLsbD 7 }

/-- A write of the whole register at `off`; none: no register. `d` holds the register's old value where no byte is
written; the W1S and W1C bits among them are 0. -/
def dcPut (s : State) (c off : Nat) (d : W64) : Option State :=
  match off with
  | 0x000 => some (dcCfgPut s c fun x => { x with rehearsal := d.getLsbD 0, pri := d.extractLsb' 1 2 })
  | 0x008 => some (dcCtlPut s c d)
  | 0x010 => some (dcStatClr s c d)
  | 0x018 => some (dcCfgPut s c fun x => { x with
      ringBase := d.extractLsb' 5 43 ++ (0 : BitVec 5), log2 := d.extractLsb' 48 5 })
  | 0x020 => some (dcCfgPut s c fun x => { x with next := d.extractLsb' 0 32 })
  | 0x080 => some (dcShdPut s c fun x => { x with src := d.extractLsb' 0 48 })
  | 0x088 => some (dcShdPut s c fun x => { x with dst := d.extractLsb' 0 48 })
  | 0x090 => some (dcShdPut s c fun x => { x with len := fld d 0 24 })
  | 0x098 => some (dcShdPut s c fun x => { x with flags := d.extractLsb' 0 3 })
  | 0x0A0 => some (dcShdPut s c fun x => { x with pat := d.extractLsb' 0 32 })
  | _ => (dcGet {} off).map fun _ => s

end Sys2Proof.Machine
end

