-- ==== Sys2Proof/Machine/Reset.lean ====
section
/-! DEFINITION. The curtain, the resets and the supply rows (spec/02 R74–R82, spec/03 R86–R100, spec/13 R471, R475). -/

namespace Sys2Proof.Machine

/-- The cause that stands on the wrapper's inputs and latches, the highest rank first (R74); 0: none, and start-up goes on. -/
def levelReason (a : Aon) : W8 :=
  if !a.porN then 0x01
  else if a.blkDisable then 0x06
  else if !a.corePwrOk then 0x03
  else if a.clkLoss then 0x05
  else if !a.blkRstN then 0x02
  else if a.isolate then 0x04
  else 0

/-- The reason that REASON shows, the highest rank first (R74): 0x01, 0x03 and 0x02 last until the stage manager releases the
host port; 0: none. -/
def shownReason (a : Aon) : W8 :=
  if !a.porN || a.porDue then 0x01
  else if a.blkDisable then 0x06
  else if !a.corePwrOk || a.pwrDue then 0x03
  else if a.clkLoss then 0x05
  else if !a.blkRstN || a.rstDue then 0x02
  else if a.isolate then 0x04
  else 0

/-- The reasons after a change of what they depend on (R74, R80). When none holds any longer, the last one stays until the
stage manager releases the host port (R82). -/
def curtainReason (a : Aon) : Aon :=
  let a := { a with porDue := a.porDue || !a.porN, pwrDue := a.pwrDue || !a.corePwrOk, rstDue := a.rstDue || !a.blkRstN }
  if shownReason a = 0 then a
  else { a with reason := shownReason a, lastReason := if a.reason = 0 then shownReason a else a.lastReason }

/-- A request that is left to the curtain responder (R77). -/
def hreqCurtain (r : HReq) : HReq := if r.curtain then r else { r with curtain := true, early := true }

/-- The write whose first k data beats had been presented at entry is finished with beats that enable nothing (R76); one that
had presented none, or all, is left as it is. The data of the added beats the manual leaves open; the parity is that of the data
(log 32). -/
def wdCut (k : Nat) (l : List MpWd) : List MpWd :=
  if k = 0 then [] else l.take k ++ (l.drop k).map fun b => { b with be := 0 }

/-- Entry to the curtain at a memory port: every tag is abandoned and the port idles (R76). How many data beats of the write
under way had been presented, the manual leaves open (log 4). -/
def mpCurtain (x : W64) (p : Mp) : Mp :=
  match p.wdTag with
  | some _ => { wd := wdCut (x.toNat % (p.wd.length + 1)) p.wd }
  | none => {}

/-- Outputs at rest (R40, R75): the lanes are quiet, the ports hold nothing, the pins are low and not driven. The driven values
kept for the reader of the state are those of the signals' last transfer. -/
def outputsRest (s : State) : State :=
  { s with
    ms := { s.ms with mp := tmap {} (mpCurtain (freeVal s)) s.ms.mp, fin := [] }
    pin := tmap {} (fun p => { p with out := false, oe := false, lpbk := false }) s.pin
    bank := tmap {} (fun b => { b with driven := false }) s.bank
    tr := { s.tr with
      lane := tmap {} (fun l => { l with tx := { l.tx with quiet := true, last := none } }) s.tr.lane
      dp := tmap {} (fun d => { d with hold := false, lastTx := none, pres := none }) s.tr.dp
      box := { s.tr.box with pool := tmap {} (fun p => { p with lastFree := none }) s.tr.box.pool } } }

/-- What entry to the curtain does: the requests that have no answer are left to the curtain responder (R77), the memory tags
are abandoned (R76), and every output goes to rest (R75). -/
def curtainEntry (s : State) : State :=
  outputsRest (useFree { s with hp := { s.hp with q := s.hp.q.map hreqCurtain, apJob := none } })

/-- A reason has come or gone. -/
def curtainUpd (s : State) : State :=
  if s.aon.reason = 0 ∧ levelReason s.aon ≠ 0 then curtainEntry (mAon s curtainReason) else mAon s curtainReason

/-- AON_STAT (R80). -/
def aonStat (a : Aon) : W64 :=
  BitVec.ofNat 64 (a.reason.toNat + 256 * a.lastReason.toNat + 2 ^ 16 * b2n a.corePwrOk + 2 ^ 17 * b2n a.isolate)

/-- Log records in MRAM stay; the next number follows the newest one (R91, R427). -/
def logKept (l : LogSt) : LogSt :=
  { ring := l.ring, seq := match l.ring with | r :: _ => r.seq + 1 | [] => 0 }

/-- An access that DBGACC has under way when the block is reset ends with CURTAIN (R472). -/
def tapBlkReset (t : Tap) : Tap :=
  if t.busy then { t with busy := false, job := none, status := 1 } else t

/-- Capture queues that a reset finds with OVR set: event 0x6201 with the pin and its DROP (R278), or with the timer of physical
engine p and its DROP (R268, log 30). -/
def pinOvrs (s : State) : List (W16 × List Nat) :=
  (s.pin.filter fun x => x.2.ovr).map fun x => (0x6201, [x.1, x.2.drop.toNat])
def tmrOvrs (s : State) (p : Nat) : List (W16 × List Nat) :=
  ((gEng s p).tmr.filter fun x => x.2.ovr).map fun x =>
    (0x6201, [0x100 + (logicalOf s p).getD p * 4 + x.1, x.2.drop.toNat])

/-- What the block reset leaves to the log: it is held until the log opens (R115, log 34). -/
def resetOvrs (s : State) : List (W16 × List Nat) := pinOvrs s ++ s.en.eng.flatMap fun x => tmrOvrs s x.1

/-- The state after a reset of the whole block (R91). `hard` is power-on or core power loss, otherwise it is the block reset:
that keeps the memories (which step 6 of start-up zeroes), the holdings, the rate correction and the test access. What lies
outside the block stays: MRAM, checkpoint slots, the levels on its inputs. -/
def coreReset (s : State) (hard : Bool) : State :=
  { State.reset with
    pending := s.pending, fresh := s.fresh, aon := s.aon
    hp := { q := s.hp.q.map hreqCurtain, rsp := s.hp.rsp }
    ram := if hard then {} else { s.ram with rsWp := [] }
    tb := if hard then {} else { corr := s.tb.corr, corrLive := s.tb.corr, corrJrn := s.tb.corrJrn }
    ms := { mp := if hard then [] else tmap {} (fun m => { wd := m.wd }) s.ms.mp }
    pin := tmap {} (fun p => { inp := p.inp, in1 := p.inp, sync := p.inp }) s.pin
    tr := { lane := tmap {} (fun l => { rx := { lock := l.rx.lock } }) s.tr.lane
            dp := tmap {} (fun d => { rstN := d.rstN, clkRun := d.clkRun }) s.tr.dp }
    mv := { au := if hard then [] else tmap {} (fun a => { holdings := a.holdings }) s.mv.au }
    mg := { log := { logKept s.mg.log with early := if hard then [] else resetOvrs s }
            mram := { s.mg.mram with wrErr := false }, lock := { chal := s.mg.lock.chal }
            tap := if hard then {} else tapBlkReset s.mg.tap, ckA := s.mg.ckA, ckB := s.mg.ckB } }

/-- Start-up begins from step 2 (R100, R102). -/
def toBoot (s : State) : State :=
  mBlk (mAon s fun a => { a with power := .boot }) fun b => { b with bootStep := 2 }

/-! ### Rails, power-on and core power (R98, R100) -/

/-- R100 VDD_AON_UP. -/
def execVddAonUp (s : State) : Out :=
  act (!s.aon.vddAon) (fun s => mAon s fun a => curtainReason { a with vddAon := true, power := .aon }) s

/-- R98 VDD_AON_LOSS: the wrapper loses its state, and the block is in OFF. -/
def execVddAonLoss (s : State) : Out :=
  act s.aon.vddAon (fun s =>
    mAon (coreReset s true) fun a => {
      porN := a.porN, blkRstN := a.blkRstN, corePwrOk := a.corePwrOk, blkDisable := a.blkDisable, keys := a.keys
      vddAon := false, power := .off }) s

/-- The level of `por_n` while it is low. -/
def porLow (a : Aon) : Aon :=
  { a with porN := false, isolate := false, clkLoss := false, reason := 0x01, lastReason := 0x01, power := .aon
           owedClk := none, owedPwr := none, owedRst := none, cold := true
           porDue := true, pwrDue := !a.corePwrOk, rstDue := !a.blkRstN }

/-- R74, R91 POR_N_ASSERT. -/
def execPorNAssert (s : State) : Out :=
  act (s.aon.vddAon && s.aon.porN) (fun s => mAon (coreReset s true) porLow) s

/-- R100 POR_N_RELEASE. -/
def execPorNRelease (s : State) : Out :=
  act (s.aon.vddAon && !s.aon.porN) (fun s =>
    let s1 := curtainUpd (mAon s fun a => { a with porN := true })
    if s.aon.corePwrOk then toBoot s1 else s1) s

/-- R91, R100 CORE_PWR_OK_FALL. -/
def execCorePwrOkFall (s : State) : Out :=
  act (s.aon.vddAon && s.aon.corePwrOk) (fun s =>
    let s1 := mAon s fun a => { a with corePwrOk := false, power := .aon, cold := true }
    if s.aon.porN then
      mAon (coreReset (curtainUpd s1) true) fun a => { a with owedPwr := some (aonStat a) }
    else s1) s

/-- R100 CORE_PWR_OK_RISE. -/
def execCorePwrOkRise (s : State) : Out :=
  act (s.aon.vddAon && !s.aon.corePwrOk) (fun s =>
    let s1 := curtainUpd (mAon s fun a => { a with corePwrOk := true })
    if s.aon.porN then toBoot s1 else s1) s

/-! ### Block reset, isolation and clock loss (R74, R81, R86, R91) -/

/-- The block reset, once its cause has been set in the wrapper; the reason is owed to the log as event 0x1011 (R91, R115). -/
def blockReset (s : State) : State :=
  let s1 := coreReset (curtainUpd s) false
  let s2 := mAon s1 fun a => { a with owedRst := some a.reason }
  if s.aon.power = .ready ∨ s.aon.power = .recovery ∨ s.aon.power = .boot then mAon s2 fun a => { a with power := .boot }
  else s2

/-- The block's reset has ended: start-up runs from step 2 when the block is in BOOT (R94, R100). -/
def resetEnd (s : State) : State :=
  let s1 := curtainUpd s
  if s.aon.power = .boot then toBoot s1 else s1

/-- R91 BLK_RST_N_ASSERT. -/
def execBlkRstNAssert (s : State) : Out :=
  act (s.aon.vddAon && s.aon.blkRstN) (fun s => blockReset (mAon s fun a => { a with blkRstN := false })) s

/-- R74, R102 BLK_RST_N_RELEASE: the pulse also ends a clock-loss reason. -/
def execBlkRstNRelease (s : State) : Out :=
  act (s.aon.vddAon && !s.aon.blkRstN) (fun s =>
    resetEnd (mAon s fun a => { a with blkRstN := true, clkLoss := false })) s

/-- `AON_CTL` can be reached (R79). -/
def aonOpen (s : State) : Bool := s.aon.vddAon && decide (s.aon.reason ≠ 0x01 ∧ s.aon.reason ≠ 0x06)

/-- `AON_CTL.ISOLATE` := 1 (R81). -/
def isolateSet (s : State) : State :=
  if aonOpen s && !s.aon.isolate then blockReset (mAon s fun a => { a with isolate := true }) else s

/-- `AON_CTL.ISOLATE` := 0 (R74). -/
def isolateClr (s : State) : State :=
  if aonOpen s && s.aon.isolate then resetEnd (mAon s fun a => { a with isolate := false }) else s

/-- R81 ISOLATE. -/
def execIsolate (s : State) : Out := .next (isolateSet s)

/-- R74 ISOLATE_CLEAR. -/
def execIsolateClear (s : State) : Out := .next (isolateClr s)

/-! ### MRAM supply (R95, R98) -/

/-- Half i of the journal. -/
def jHalf (s : State) (i : Nat) : JHalf := if i = 0 then s.mg.mram.j0 else s.mg.mram.j1
def mJHalf (s : State) (i : Nat) (f : JHalf → JHalf) : State :=
  mMram s fun m => if i = 0 then { m with j0 := f m.j0 } else { m with j1 := f m.j1 }

/-- R431: half i has a header and a FLIP of its generation. -/
def jRules (h : JHalf) : Bool := h.hdr.isSome && decide (h.flip = h.hdr)

/-- R431: the ruling half. -/
def rulingHalf (s : State) : Option Nat :=
  match jRules s.mg.mram.j0, jRules s.mg.mram.j1 with
  | true, true => some (if s.mg.mram.j1.hdr.getD 0 < s.mg.mram.j0.hdr.getD 0 then 0 else 1)
  | true, false => some 0
  | false, true => some 1
  | false, false => none

/-- A unit that was being written is torn (R95). Whether a journal record was being written between two steps, the manual leaves
open (log 4); its torn unit follows the records of the ruling half. Units of the log, the calibration page and the image slots that
are cut belong to records and operations that do not count yet (log 34). -/
def mramCut (s : State) : State :=
  match rulingHalf s with
  | none => s
  | some i => if freeBit s then mJHalf (useFree s) i fun h => { h with torn := true } else useFree s

/-- R95 VDD_MRAM_LOSS. -/
def execVddMramLoss (s : State) : Out := .next (mramCut s)

/-- R86, R87, R95 WRAPPER_CLOCK_LOSS: the wrapper cannot measure while REFCLK is missing. Loss of MCLK also cuts the unit that was
being written. -/
def execWrapperClockLoss (id : Fin 3) (s : State) : Out :=
  act (s.aon.vddAon && s.aon.porN && !s.aon.clkLoss && !s.tb.holdover) (fun s =>
    let s1 := curtainUpd (mAon s fun a => { a with clkLoss := true, owedClk := some id.val })
    if id = 2 then mramCut s1 else s1) s

/-! ### Test access resets (R91, R471, R475) -/

/-- R91, R471 TAP_RESET. -/
def execTapReset (s : State) : Out := act s.aon.vddAon (fun s => mTap s fun _ => {}) s

/-- R475 WRSTN_ASSERT: `AON_CTL.ISOLATE` stays as it is. -/
def execWrstnAssert (s : State) : Out :=
  act s.aon.vddAon (fun s => mTap s fun t => { t with wir := 0, wirOn := false, cells := [] }) s

end Sys2Proof.Machine
end

