-- ==== Sys2Proof/Machine/Journal.lean ====
section
/-! DEFINITION. The log, the journal and the MRAM (spec/12 R423–R436): what the records hold, appending, compaction, and the
calibration page. -/

namespace Sys2Proof.Machine

/-! ### The log (R427, R428) -/

/-- The n oldest buffered records reach the ring, which keeps its newest 260,096 records. -/
def logFlush (s : State) (n : Nat) : State :=
  mLog s fun l => { l with
    ring := ((l.buf.take n).foldl (fun r x => x :: r) l.ring).take 260096, buf := l.buf.drop n }

/-- Records of the buffer that complete the unit of its oldest one: a unit holds an even-numbered record and the next one. -/
def unitPart (l : LogSt) : Nat :=
  match l.buf with
  | r :: _ => 2 - r.seq.toNat % 2
  | [] => 0

/-- R428 LOG_UNIT_WRITE: the unit of the oldest buffered record, half full or full. -/
def execLogUnitWrite (s : State) : Out :=
  act (up s && s.mg.log.opened && !s.mg.sm.restart) (fun s => logFlush s (unitPart s.mg.log)) s

/-! ### Journal records (R429, R430) -/

/-- Data bytes of a record; fields whose width the manual does not give count one byte. -/
def jLen : JRec → Nat
  | .config _ v => 2 + v.length
  | .configDefault _ _ => 2
  | .fwAct _ _ => 5
  | .fwInvalid _ => 1
  | .repAct _ _ => 49
  | .repInvalid _ => 1
  | .tbRate _ => 4
  | .calStage _ _ => 1442
  | .calDone => 4
  | .opStart _ _ _ => 59
  | .opEnd _ _ => 3
  | .engRetire _ => 1
  | .engReturn _ => 1
  | .secverMin _ => 4
  | .swapCommit _ _ _ => 51

/-- Units of a record (R429). -/
def jUnits (r : JRec) : Nat := (12 + jLen r + 63) / 64

/-- A record goes to the end of the ruling half, over any torn tail (R431, R432). -/
def jAppend (s : State) (r : JRec) : State :=
  match rulingHalf s with
  | some i => mJHalf s i fun h => { h with recs := h.recs ++ [r], units := h.units + jUnits r, torn := false }
  | none => s

/-- A 32-bit number as the bytes that carry the key of an item (R443): CLKWIN and SENSTHR values name a clock or a sensor. -/
def cfgKey (item : W16) (v : List W8) : Nat :=
  if item = 0x0001 then leNat (v.take 4) else if item = 0x0003 then leNat (v.take 1) else 0

/-- The items without the one of this key, and with it. -/
def cfgDel (l : List CfgItem) (item : W16) (key : Nat) : List CfgItem :=
  l.filter fun c => !(decide (c.item = item) && decide (c.key = key))
def cfgPut (l : List CfgItem) (c : CfgItem) : List CfgItem := cfgDel l c.item c.key ++ [c]

/-- What the records say, taken in file order (R103, R431). -/
structure JView where
  /-- R103: slot of the last FW_ACT, its version, and whether a later FW_INVALID names that slot. -/
  fw : Option Nat := none
  fwBad : Bool := false
  fwVer : W32 := 0
  /-- Boot-repertory slot in force and its digest. -/
  rep : Option (Nat × BitVec 384) := none
  tbRate : Option W32 := none
  secver : Option W32 := none
  retired : List Nat := []
  cfg : List CfgItem := []
  /-- OP_START records without their OP_END. -/
  ops : List (W16 × W8 × List W8) := []
  /-- CAL_STAGE without its CAL_DONE. -/
  cal : Option (W16 × Mem) := none
  deriving DecidableEq, Repr

/-- One record applied. A SWAP_COMMIT that names a slot activates it (R446). -/
def jApply (v : JView) : JRec → JView
  | .config item x => { v with cfg := cfgPut v.cfg { item := item, key := cfgKey item x, val := x, persist := true } }
  | .configDefault item k => { v with cfg := cfgDel v.cfg item k }
  | .fwAct n ver => { v with fw := some n, fwVer := ver, fwBad := false }
  | .fwInvalid n => if v.fw = some n then { v with fwBad := true } else v
  | .repAct n d => { v with rep := some (n, d) }
  | .repInvalid n => if v.rep.map Prod.fst = some n then { v with rep := none } else v
  | .tbRate c => { v with tbRate := some c }
  | .secverMin x => { v with secver := some x }
  | .engRetire p => { v with retired := insAsc p v.retired }
  | .engReturn p => { v with retired := v.retired.filter fun q => decide (q ≠ p) }
  | .calStage x m => { v with cal := some (x, m) }
  | .calDone => { v with cal := none }
  | .opStart h o c => { v with ops := v.ops ++ [(h, o, c)] }
  | .opEnd h _ => { v with ops := v.ops.filter fun o => decide (o.1 ≠ h) }
  | .swapCommit _ d n => if n < 2 then { v with rep := some (n, d) } else v

def jView (recs : List JRec) : JView := recs.foldl jApply {}

/-- The firmware slot that the records choose (R103); none: no FW_ACT. -/
def fwChosen (v : JView) : Option Nat := v.fw.map fun n => if v.fwBad then 1 - n else n

/-- What the ruling half says; a journal that no half rules says nothing. -/
def journal (s : State) : JView :=
  match rulingHalf s with
  | some i => jView (jHalf s i).recs
  | none => {}

/-! ### Compaction (R432, R433) -/

/-- The live image of what the journal says (R432). -/
def jImage (v : JView) : List JRec :=
  (match fwChosen v with | some n => [.fwAct n v.fwVer] | none => []) ++
  (match v.rep with | some (n, d) => [.repAct n d] | none => []) ++
  (match v.tbRate with | some c => [.tbRate c] | none => []) ++
  (match v.secver with | some x => [.secverMin x] | none => []) ++
  v.retired.map (fun p => .engRetire p) ++
  v.cfg.map (fun c => .config c.item c.val) ++
  v.ops.map (fun o => .opStart o.1 o.2.1 o.2.2) ++
  (match v.cal with | some (x, m) => [.calStage x m] | none => [])

def unitsOf (l : List JRec) : Nat := l.foldl (fun n r => n + jUnits r) 0

/-- Generation of the ruling half. -/
def jGen (s : State) : Nat :=
  match rulingHalf s with
  | some i => (jHalf s i).hdr.getD 0
  | none => 0

/-- Step 1 of R432: the other half takes a header of the next generation and has no FLIP. -/
def compactBegin (s : State) : State :=
  match rulingHalf s with
  | some i => mJHalf s (1 - i) fun _ => { hdr := some (jGen s + 1), units := 1 }
  | none => s

/-- Steps 2–4 of R432: the image of the first n records, the records appended since, and the FLIP. -/
def compactEnd (s : State) (n : Nat) : State :=
  match rulingHalf s with
  | some i =>
    let recs := (jHalf s i).recs
    let img := jImage (jView (recs.take n))
    let s1 := mJHalf s (1 - i) fun _ => {
      hdr := some (jGen s + 1), flip := some (jGen s + 1), recs := img ++ recs.drop n
      units := 2 + unitsOf (img ++ recs.drop n) }
    logEv s1 0x7010 [jGen s + 1, 64 * unitsOf img]
  | none => s

/-- Steps of R432 without a break. -/
def compactAll (s : State) : State :=
  match rulingHalf s with
  | some i => compactEnd (compactBegin s) (jHalf s i).recs.length
  | none => s

/-- The ruling half is 75 % full, so T2 compacts (R432). -/
def compactDue (s : State) : Bool :=
  match rulingHalf s with
  | some i => decide (3 * 2 ^ 20 ≤ (jHalf s i).units * 64)
  | none => false

/-- R432 JOURNAL_COMPACTION. -/
def execJournalCompaction (s : State) : Out :=
  act (up s && s.mg.log.opened && !s.mg.sm.restart && compactDue s && !s.mg.mram.wrErr) compactAll s

/-! ### Units (R424) -/

/-- R424 MRAM_UNIT_WRITE: a unit whose read-back still differs after its retries is logged, and the command that needs it
will end with MRAMERR; what such a unit then holds, the manual leaves open (log 4). -/
def execMramUnitWrite (off : Nat) (data : List W8) (good : Bool) (s : State) : Out :=
  act (up s && !s.mg.sm.restart) (fun s =>
    if good then mMram s fun m => { m with bytes := mwrite m.bytes off data }
    else logEv (mMram { s with fresh := s.fresh + 8 } fun m => { m with
      bytes := mwrite m.bytes off (freeBytes s 8), wrErr := true }) 0x7012 [off]) s

/-- A command needs an MRAM write: the failure that MRAM_UNIT_WRITE left for it, taken away (R424). -/
def takeWrErr (s : State) : State := mMram s fun m => { m with wrErr := false }

/-! ### The calibration page (R434–R436) -/

def calBase : Nat := 0x1000000

/-- n bytes of the page from offset a. -/
def calBytes (s : State) (a n : Nat) : List W8 := mread s.mg.mram.bytes (calBase + a) n

/-- CRC-32C of the page's bytes 0x0004–0xFFFF, and the stored one. -/
def calCrc (s : State) : W32 := crc32Of polyCrc32c (calBytes s 4 0xFFFC)
def calStored (s : State) : W32 := BitVec.ofNat 32 (leNat (calBytes s 0 4))
def calOk (s : State) : Bool := decide (calCrc s = calStored s)

/-- TRIM of a pin, entry i of bank b's linearity table, OFFSET and GAIN of a sensor, in force: nominal while UNCAL (R107,
R434). -/
def calTrim (s : State) (pin : Nat) : W8 := mget s.mg.mram.bytes (calBase + 0x40 + pin)
def calLin (s : State) (b i : Nat) : W16 := BitVec.ofNat 16 (leNat (calBytes s (0x140 + b * 32 + i * 2) 2))
def calOffset (s : State) (i : Nat) : Int :=
  if s.blk.uncal then 0 else (BitVec.ofNat 16 (leNat (calBytes s (0x540 + i * 4) 2))).toInt
def calGain (s : State) (i : Nat) : Nat := if s.blk.uncal then 0x8000 else leNat (calBytes s (0x542 + i * 4) 2)

/-- The pin banks take the page's trims and tables. -/
def calLoadBank (s : State) (b : Nat) : State :=
  let s1 := foldNat (fun acc j => mPin acc (8 * b + j) fun p => { p with trim := calTrim s (8 * b + j) }) s (List.range 8)
  mBank s1 b fun k => { k with
    lin := foldNat (fun t i => tset 0 t i (calLin s b i)) [] (List.range 16) }

def calLoad (s : State) : State :=
  mSm (foldNat calLoadBank s (List.range 32)) fun m => { m with calSource := BitVec.ofNat 16 (leNat (calBytes s 6 2)) }

/-- The content of 0x0040–0x05DF as sparse bytes. -/
def calContent (s : State) : Mem := mwrite [] 0x40 (calBytes s 0x40 0x5A0)

/-- The page is written from a CAL_STAGE record: its content, SOURCE, the timebase of the commit, and its CRC (R434, R435). -/
def calWritePage (s : State) (source : W16) (content : Mem) : State :=
  let put (x : State) (a : Nat) (bs : List W8) : State :=
    mMram x fun m => { m with bytes := mwrite m.bytes (calBase + a) bs }
  let s1 := put s 0 (leBytes 4 0 ++ leBytes 2 1 ++ leBytes 2 source.toNat ++ leBytes 8 s.tb.now.toNat ++
    List.replicate 48 0)
  let s2 := put s1 0x40 (mread content 0x40 0x5A0)
  put s2 0 (leBytes 4 (calCrc s2).toNat)

/-- Steps 1–4 of R435 with the page's new content. -/
def calReplace (s : State) (source : W16) (content : Mem) : State :=
  let s1 := jAppend s (.calStage source content)
  let s2 := calWritePage s1 source content
  let s3 := mBlk (calLoad s2) fun b => { b with uncal := false }
  logEv (jAppend s3 .calDone) 0x7020 [source.toNat, (calStored s3).toNat]

end Sys2Proof.Machine
end

