-- ==== Sys2Proof/Machine/Code8b10b.lean ====
section
/-! DEFINITION. The 8b/10b code that R7, R308 and R329 name (PRESUMED from the standard, log 6). Bit 0 of a code group is the bit
sent first; running disparity `true` is positive. -/

namespace Sys2Proof.Machine

/-- The 6-bit sub-blocks of D.x at negative running disparity. -/
def subs6 : List Nat :=
  [57, 46, 45, 35, 43, 37, 38, 7, 39, 41, 42, 11, 44, 13, 14, 58] ++
  [54, 49, 50, 19, 52, 21, 22, 23, 51, 25, 26, 27, 28, 29, 30, 53]

/-- The 4-bit sub-blocks of D.x.y at negative running disparity, and of K.28.y at positive running disparity. -/
def subs4 : List Nat := [13, 9, 10, 3, 11, 5, 6, 7]
def subsK : List Nat := [2, 9, 10, 12, 4, 5, 6, 1]

/-- Ones among the n low bits. -/
def onesNat (n v : Nat) : Nat := ((List.range n).filter fun i => bitOf v i).length

/-- The running disparity after a sub-block of n bits. -/
def subRd (rd : Bool) (n v : Nat) : Bool := if 2 * onesNat n v = n then rd else !rd

/-- A sub-block at positive running disparity: the complement of an unbalanced one, and of the two balanced ones that alternate. -/
def flipSub (rd : Bool) (n v : Nat) : Nat :=
  if rd && (decide (2 * onesNat n v ≠ n) || decide (n = 6 ∧ v = 7) || decide (n = 4 ∧ v = 3)) then 2 ^ n - 1 - v else v

/-- The bytes whose K code exists: K.28.y, K.23.7, K.27.7, K.29.7, K.30.7. -/
def isK (b : W8) : Bool :=
  decide (b.toNat % 32 = 28) || decide (b = 0xF7) || decide (b = 0xFB) || decide (b = 0xFD) || decide (b = 0xFE)

/-- The code group of a data byte or of a K byte, and the next running disparity. That of a byte without a K code is free. -/
def enc8b10b (rd : Bool) (b : W8) (k : Bool) : BitVec 10 × Bool :=
  let x := b.toNat % 32
  let y := b.toNat / 32
  if k && !isK b then Config.badK8b10b rd b
  else
    let six := flipSub rd 6 (if k && x = 28 then 60 else subs6.getD x 0)
    let r := subRd rd 6 six
    let alt := decide (y = 7) && (if r then decide (x = 11 ∨ x = 13 ∨ x = 14) else decide (x = 17 ∨ x = 18 ∨ x = 20))
    let four := if k then (if r then subsK.getD y 0 else 15 - subsK.getD y 0)
      else if alt then (if r then 1 else 14)
      else flipSub r 4 (subs4.getD y 0)
    (BitVec.ofNat 10 (six + 64 * four), subRd r 4 four)

/-- The bytes with their K flags that have a code. -/
def codeChars : List (W8 × Bool) :=
  (List.range 256).map (fun b => (BitVec.ofNat 8 b, false)) ++
  ((List.range 256).filter fun b => isK (BitVec.ofNat 8 b)).map fun b => (BitVec.ofNat 8 b, true)

/-- The byte with its K flag whose code group this is at a running disparity. -/
def charOf (rd : Bool) (c : BitVec 10) : Option (W8 × Bool) := codeChars.find? fun x => decide ((enc8b10b rd x.1 x.2).1 = c)

/-- The decoder: byte, K flag, code error, disparity error, next running disparity. A group of the other running disparity is a
disparity error; the byte of a group that is not in the code, and the running disparity after it, are free. -/
def dec8b10b (rd : Bool) (c : BitVec 10) : W8 × Bool × Bool × Bool × Bool :=
  match charOf rd c with
  | some (b, k) => (b, k, false, false, (enc8b10b rd b k).2)
  | none => match charOf (!rd) c with
    | some (b, k) => (b, k, false, true, (enc8b10b (!rd) b k).2)
    | none => ((Config.bad8b10b rd c).1, false, true, false, (Config.bad8b10b rd c).2)

end Sys2Proof.Machine
end

