-- ==== Sys2Proof/Machine/Lanes.lean ====
section
/-! DEFINITION. The receive side of the lanes (spec/09 R305–R325): alignment, scrambling, deskew, links and the framer. -/

namespace Sys2Proof.Machine

/-! ### Configuration fields (R336, R338) -/

def lcCode (c : W64) : Nat := fld c 0 3
def lcWidth (c : W64) : Nat := 2 ^ fld c 3 3
def lcScr (c : W64) : Nat := fld c 6 2
def lcCrc (c : W64) : Nat := fld c 8 2
def lcFramer (c : W64) : Nat := fld c 10 2
def lcMkInt (c : W64) : Nat := if fld c 32 16 = 0 then 65536 else fld c 32 16
def lcMarkers (c : W64) : Bool := decide (1 < lcWidth c) || c.getLsbD 48

/-- Live configuration of lane k's group. -/
def liveOf (s : State) (k : Nat) : W64 := (gLg s (k / 8)).live

/-- First lane of the link that lane k belongs to (R312). -/
def linkOf (s : State) (k : Nat) : Nat := k / lcWidth (liveOf s k) * lcWidth (liveOf s k)

/-- Lanes of the link with first lane f, in order: of its span, the groups with the first group's live configuration (R312). -/
def lanesOf (s : State) (f : Nat) : List Nat :=
  ((List.range (lcWidth (liveOf s f))).map fun i => f + i).filter fun k => decide (liveOf s k = liveOf s f)

/-- First lanes of the links that group g has a lane of, under its live configuration. A span whose first group holds another
configuration is no link (R312, R317). -/
def linksOf (s : State) (g : Nat) : List Nat :=
  let c := (gLg s g).live
  let w := lcWidth c
  if 8 < w then [8 * g / w * w].filter fun f => decide (liveOf s f = c) else (List.range (8 / w)).map fun i => 8 * g + i * w

/-- The link's receive side is at work. -/
def linkOn (l : Link) : Bool := decide (l.st = .locking) || decide (l.st = .up) || decide (l.st = .rebonding)

/-- The lane is locked (R309); a lane of a disabled group is not (log 16). -/
def laneLocked (s : State) (k : Nat) : Bool :=
  (gLg s (k / 8)).en && (gLane s k).rx.lock && !(gLane s k).rx.clkBad && (gLane s k).rx.aligned

def mRx (s : State) (k : Nat) (f : LaneRx → LaneRx) : State := mLane s k fun l => { l with rx := f l.rx }
def mTx (s : State) (k : Nat) (f : LaneTx → LaneTx) : State := mLane s k fun l => { l with tx := f l.tx }
def mFr (s : State) (f : Nat) (h : Framer → Framer) : State := mLink s f fun l => { l with fr := h l.fr }
def mAsm (s : State) (f : Nat) (h : Asm → Asm) : State := mLink s f fun l => { l with asm := h l.asm }

/-! ### Bits, scrambling (R305, R310, R311) -/

/-- Bits of bytes, and of a number, least significant first. -/
def numBits (n v : Nat) : List Bool := (List.range n).map fun i => bitOf v i
def bytesBits (bs : List W8) : List Bool := (bs.map fun (b : W8) => numBits 8 b.toNat).flatten

/-- The number that bits, least significant first, spell. -/
def bitsNum : List Bool → Nat
  | [] => 0
  | b :: t => b2n b + 2 * bitsNum t

def bitsBytes (bs : List Bool) : List W8 := leBytes (bs.length / 8) (bitsNum bs)

/-- The self-synchronous scrambler of R310; `rx` descrambles. The state's bit 0 is the latest bit. -/
def scrRun (rx : Bool) : BitVec 58 → List Bool → List Bool × BitVec 58
  | st, [] => ([], st)
  | st, b :: t =>
    let o := xor b (xor (st.getLsbD 38) (st.getLsbD 57))
    let r := scrRun rx ((st <<< 1) ||| (BitVec.ofBool (if rx then b else o)).setWidth 58) t
    (o :: r.1, r.2)

/-- Degree of POLY (R311). -/
def polyDeg (poly : Nat) : Nat := Nat.log2 poly + 1

/-- The additive LFSR of R311. -/
def lfsrRun (poly : Nat) : Nat → List Bool → List Bool × Nat
  | st, [] => ([], st)
  | st, b :: t =>
    let n := polyDeg poly
    let o := bitOf st (n - 1)
    let f := parNat n (Nat.land st (poly % 2 ^ n))
    let r := lfsrRun poly ((st * 2 + b2n f) % 2 ^ n) t
    (xor b o :: r.1, r.2)

/-- The LFSR's state as SEED loads it. -/
def seedOf (s : State) (k : Nat) : W32 :=
  BitVec.ofNat 32 ((gLane s k).seed.toNat % 2 ^ polyDeg (fld (gLg s (linkOf s k / 8)).lfsr 0 32))

/-- Additive scrambling of a block's payload under LG_LFSR: the payload, and the lane's next state (R311). The byte that
RSTBYTE is compared with is the unscrambled one (DEDUCED log 17). -/
def lfsrBlk (s : State) (k : Nat) (rx : Bool) (st : W32) (u : LBlk) : LBlk × W32 :=
  let c := (gLg s (linkOf s k / 8)).lfsr
  let dhdr := decide (u.hdr.toNat = fld c 42 2)
  let r := if c.getLsbD 41 && !dhdr then (bytesBits u.pay, st.toNat) else lfsrRun (fld c 0 32) st.toNat (bytesBits u.pay)
  let out := { u with pay := bitsBytes r.1 }
  let plain := if rx then out else u
  if c.getLsbD 40 && !dhdr && decide ((plain.pay.headD 0).toNat = fld c 32 8) then (out, seedOf s k)
  else (out, BitVec.ofNat 32 r.2)

/-- Logical position whose marker the block is, in the link with first lane f (R313). -/
def markerPos (s : State) (f : Nat) (u : LBlk) : Option Nat :=
  if u.hdr = 1 ∧ u.pay.length = 8 then
    (List.range (lcWidth (liveOf s f))).find? fun i => decide ((gLane s (f + i)).mkpat.toNat = leNat u.pay)
  else none

/-- The block is a marker of a link that carries markers. -/
def isMarker (s : State) (f : Nat) (u : LBlk) : Bool := lcMarkers (liveOf s f) && (markerPos s f u).isSome

/-- The block carries the marker of a lane that is not of its link (R314; DESIGN CHOICE log 25). -/
def foreignMark (s : State) (u : LBlk) : Bool :=
  decide (u.hdr = 1 ∧ u.pay.length = 8) && s.tr.lane.any fun e => decide (e.2.mkpat ≠ 0 ∧ e.2.mkpat.toNat = leNat u.pay)

/-- A link that collects its first markers finds such a block, whose lane then matches no position (R314). -/
def deskewForeign (s : State) (f : Nat) (u : LBlk) : Bool :=
  lcMarkers (liveOf s f) && decide ((gLink s f).dsk = 0) && foreignMark s u

/-- The block as lane k descrambles it; the first one after an unlock is marked (R310, R311). -/
def rxDescr (s : State) (k : Nat) (u : LBlk) : LBlk × State :=
  let c := liveOf s k
  if isMarker s (linkOf s k) u || deskewForeign s (linkOf s k) u then (u, s)
  else if lcScr c = 1 then
    let r := scrRun true (gLane s k).rx.descr (bytesBits u.pay)
    ({ u with pay := bitsBytes r.1, kf := if (gLane s k).rx.stale then [1] else [] },
      mRx s k fun x => { x with descr := r.2, stale := false })
  else if lcScr c = 2 then
    let r := lfsrBlk s k true (gLane s k).rx.lfsr u
    (r.1, mRx s k fun x => { x with lfsr := r.2 })
  else (u, s)

/-! ### The framer (R318–R325) -/

/-- Bytes that the receive store of group g holds (R318, R337). -/
def storeUsed (s : State) (g : Nat) : Nat :=
  foldNat (fun n i =>
    let fr := (gLink s (8 * g + i)).fr
    n + (match fr.cur with | some bs => if fr.drop then 0 else bs.length | none => 0) +
      fr.inq.waiting.foldl (fun a p => a + p.bytes.length) 0 + fr.inq.writing.foldl (fun a w => a + w.pkt.bytes.length) 0)
    0 (List.range 8)

/-- Outside frames. -/
def frClear (x : Framer) : Framer := { x with cur := none, sfd := false, codeErr := false, trunc := false, drop := false }

/-- A frame starts, unless the receive side starts none (R332). -/
def frStart (s : State) (f : Nat) (sfd : Bool) : State :=
  mFr s f fun x => if x.hold then x else { frClear x with cur := some [], sfd := sfd }

/-- The frame in progress goes, with the buffers that it has taken (R317, R323, R325, R332). -/
def frDrop (s : State) (f : Nat) : State := boxRun (inqCancel (mFr s f frClear) f)

/-- Bytes join the frame in progress (R318, R323, R325). -/
def frAdd (s : State) (f : Nat) (bs : List W8) : State :=
  match (gLink s f).fr.cur with
  | none => s
  | some old =>
    let fr := (gLink s f).fr
    let g := f / 8
    if fr.drop then mFr s f fun x => { x with cur := some (old ++ bs) }
    else if 262144 < storeUsed s g + bs.length then
      let s1 := mLink (boxRun (inqCancel (mFr s f fun x => { x with cur := some (old ++ bs), drop := true }) f)) f fun l =>
        { l with storeDrop := satInc l.storeDrop }
      if (gLg s g).storeOvf then s1 else logEv (mLg s1 g fun x => { x with storeOvf := true }) 0x4020 [f]
    else
      let raw := decide (lcFramer (liveOf s f) = 2)
      let now := if raw then old ++ bs else (old ++ bs).take 65536
      inqGrow (mFr s f fun x => { x with
        cur := some now, trunc := x.trunc || (!raw && decide (65536 < old.length + bs.length)) }) f now.length

def frCodeErr (s : State) (f : Nat) : State := mFr s f fun x => { x with codeErr := true }

/-- The reflected polynomial that CRC selects (R322); without one, that of CRC-32 (log 17). -/
def crcPoly (c : W64) : Nat := if lcCrc c = 2 then polyCrc32c else polyCrc32

/-- The last 4 bytes are the check value of the bytes before them. -/
def crcGood (poly : Nat) (bs : List W8) : Bool :=
  decide (4 ≤ bs.length) && decide (bs.drop (bs.length - 4) = leBytes 4 (crc32Of poly (bs.take (bs.length - 4))).toNat)

/-- The frame in progress ends with bytes `bs`; `down` says that the loss of lock or alignment ended it (R322–R324). -/
def frDeliver (s : State) (f : Nat) (bs : List W8) (down : Bool) : State :=
  let fr := (gLink s f).fr
  let g := gLg s (f / 8)
  let c := g.live
  let crcChk := decide (lcCrc c ≠ 0) && !fr.trunc
  let crcBad := crcChk && !crcGood (crcPoly c) bs
  let runt := decide (bs.length < fld g.frm 0 16)
  let frmErr (s : State) : State := mLink s f fun l => { l with frmErr := satInc l.frmErr }
  if bs.isEmpty then boxRun (inqCancel (frmErr s) f)
  else
    let s1 := mLink s f fun l => { l with
      crcBad := if crcBad then satInc l.crcBad else l.crcBad, runt := if runt then satInc l.runt else l.runt
      truncCnt := if fr.trunc then satInc l.truncCnt else l.truncCnt }
    if c.getLsbD 13 && (crcBad || fr.codeErr || runt || down) then boxRun (inqCancel (frmErr s1) f)
    else boxRun (inqPush s1 f bs (BitVec.ofNat 16 (b2n crcChk + 2 * b2n crcBad + 4 * b2n fr.codeErr + 8 * b2n fr.trunc +
      16 * b2n runt + 32 * b2n down + 256 * f)) 0 0 0)

/-- The frame in progress ends. -/
def frEnd (s : State) (f : Nat) (down : Bool) : State :=
  match (gLink s f).fr.cur with
  | none => s
  | some bs =>
    if (gLink s f).fr.drop then frDrop s f
    else if (gLink s f).fr.sfd then mLink (frDrop s f) f fun l => { l with frmErr := satInc l.frmErr }
    else mFr (frDeliver s f bs down) f frClear

/-- Payload bytes before the terminate character of a control block type (R319). -/
def termLen (ty : Nat) : Option Nat :=
  match ty with
  | 0x87 => some 0
  | 0x99 => some 1
  | 0xAA => some 2
  | 0xB4 => some 3
  | 0xCC => some 4
  | 0xD2 => some 5
  | 0xE1 => some 6
  | 0xFF => some 7
  | _ => none

/-- A block of control characters (type 0x1E) that holds an /E/; without one it is an idle block (R319). -/
def holdsE (pay : List W8) : Bool :=
  (List.range 8).any fun i => decide (leNat (pay.drop 1) / 2 ^ (7 * i) % 128 = 0x1E)

/-- The control characters after the terminate character of a block with n payload bytes hold an /E/: 7 bits each, at the end
of the block, as IEEE 802.3 lays them out (R319, PRESUMED log 17). -/
def termE (n : Nat) (pay : List W8) : Bool :=
  (List.range (7 - n)).any fun i => decide (leNat (pay.drop 1) / 2 ^ (7 * (n + 1 + i)) % 128 = 0x1E)

/-- R319 ETH66. -/
def ethFeed (s0 : State) (f : Nat) (u : LBlk) : State :=
  let s := if (gLink s0 f).fr.cur.isSome && !u.kf.isEmpty then frCodeErr s0 f else s0
  let inside := (gLink s f).fr.cur.isSome
  let ty := (u.pay.headD 0).toNat
  let start (s : State) : State :=
    if ty = 0x33 then frStart s f true
    else if u.pay.getD 7 0 = 0xD5 then frStart s f false
    else mLink s f fun l => { l with frmErr := satInc l.frmErr }
  let ordered (s : State) : State :=
    if ty = 0x4B then mLink s f fun l => { l with os := BitVec.ofNat 64 (leNat u.pay) } else s
  let isStart := decide (u.hdr = 1) && (decide (ty = 0x78) || (decide (ty = 0x33) && decide (lcWidth (liveOf s f) = 1)))
  if inside && (gLink s f).fr.sfd then
    -- the block after a start of type 0x33: three preamble bytes, the SFD, four bytes of the frame
    if u.hdr = 2 ∧ u.pay.getD 3 0 = 0xD5 then frAdd (mFr s f fun x => { x with sfd := false }) f (u.pay.drop 4)
    else
      let s1 := frEnd s f false
      if isStart then start s1 else if u.hdr = 1 then ordered s1 else s1
  else if u.hdr = 2 then (if inside then frAdd s f u.pay else s)
  else if u.hdr ≠ 1 then (if inside then frCodeErr s f else s)
  else if isStart then start (if inside then frEnd (frCodeErr s f) f false else s)
  else if !inside then ordered s
  else match termLen ty with
    | some n =>
      let s1 := frAdd s f ((u.pay.drop 1).take n)
      frEnd (if termE n u.pay then frCodeErr s1 f else s1) f false
    | none => if ty = 0x1E && !holdsE u.pay then frEnd (frCodeErr s f) f false else frCodeErr s f

/-- R320 DELIM. -/
def delimFeed (s : State) (f : Nat) (u : LBlk) : State :=
  let frm := (gLg s (f / 8)).frm
  let b := u.pay.headD 0
  let k := u.kf.headD 0
  let inside := (gLink s f).fr.cur.isSome
  let s1 := if inside && decide (2 ≤ k.toNat) then frCodeErr s f else s
  if !k.getLsbD 0 || k.getLsbD 1 then (if inside then frAdd s1 f [b] else s1)
  else if b.toNat = fld frm 32 8 then frStart (if inside then frEnd (frCodeErr s1 f) f false else s1) f false
  else if !inside then s1
  else if b.toNat = fld frm 40 8 then frEnd s1 f false
  else frEnd (frCodeErr s1 f) f false

/-- Payload of an idle block (R329); a 128b/130b block repeats it (log 17). -/
def idlePay (s : State) (f : Nat) : List W8 :=
  let p := leBytes 8 (gLg s (f / 8)).idle.toNat
  if lcCode (liveOf s f) = 2 then p ++ p else p

/-- Record of a unit in RAW framing (R321). -/
def rawRecord (code : Nat) (u : LBlk) : List W8 :=
  if code = 3 then u.pay ++ u.kf.map fun k => k.setWidth 8 else BitVec.ofNat 8 u.hdr.toNat :: u.pay

/-- Packets of CHUNK bytes are cut from the stream (R321). -/
def rawCut (f chunk : Nat) : Nat → State → State
  | 0, s => s
  | n + 1, s => match (gLink s f).fr.cur with
    | some bs =>
      if bs.length < chunk then s
      else
        let s1 := if (gLink s f).fr.drop then frDrop s f
          else mFr (frDeliver s f (bs.take chunk) false) f frClear
        if (gLink s f).fr.hold then s1 else rawCut f chunk n (mFr s1 f fun x => { x with cur := some (bs.drop chunk) })
    | none => s

/-- R321 RAW. -/
def rawFeed (s : State) (f : Nat) (u : LBlk) : State :=
  let g := gLg s (f / 8)
  let code := lcCode g.live
  let chunk := if fld g.frm 16 16 = 0 then 65536 else fld g.frm 16 16
  if code ≠ 3 && decide (u.hdr = 1) && decide (u.pay = idlePay s f) && !g.frm.getLsbD 56 then s
  else
    let s1 := if (gLink s f).fr.cur.isNone then frStart s f false else s
    let bad := if code = 3 then u.kf.any fun k => k.getLsbD 1
      else !u.kf.isEmpty || ((code = 1 || code = 2) && (u.hdr = 0 || u.hdr = 3))
    let s2 := frAdd s1 f (rawRecord code u)
    rawCut f chunk 2 (if bad && (gLink s2 f).fr.cur.isSome then frCodeErr s2 f else s2)

/-- A unit of a deskewed link reaches the framer. -/
def frFeed (s : State) (f : Nat) (u : LBlk) : State :=
  match lcFramer (liveOf s f) with
  | 0 => ethFeed s f u
  | 1 => delimFeed s f u
  | _ => rawFeed s f u

/-! ### Links and deskew (R313–R317) -/

/-- Every lane of the link starts deskew again from step 1 (R314). -/
def deskewRestart (s : State) (f : Nat) : State :=
  (lanesOf s f).foldl (fun acc k => mRx acc k fun x => { x with fifo := [], pos := none, deskewed := false, skew := 0 })
    (mLink s f fun l => { l with dsk := 0, rounds := 0, badInt := 0 })

/-- The link is up (R317). -/
def linkUp (s : State) (f : Nat) : State :=
  let w := lcWidth (liveOf s f)
  let s1 := (lanesOf s f).foldl (fun acc k => mRx acc k fun x => { x with deskewed := true })
    (mLink s f fun l => { l with dsk := 2 })
  if (gLink s f).st = .locking then logEv (mLink s1 f fun l => { l with st := .up }) 0x4010 [f, w] else s1

/-- A ×1 link without markers is deskewed as soon as its lane is locked (R314). -/
def linkTry (s : State) (f : Nat) : State :=
  if (gLink s f).st = .locking ∧ !lcMarkers (liveOf s f) ∧ laneLocked s f then
    linkUp (mRx s f fun x => { x with pos := some 0 }) f
  else s

/-- The link enters LOCKING: its lanes leave quiet, the LFSRs take their seeds, deskew starts (R311, R317). -/
def enterLocking (s : State) (f : Nat) : State :=
  let s1 := (lanesOf s f).foldl (fun acc k => mLane acc k fun l => { l with
      rx := { l.rx with lfsr := seedOf s k }, tx := { l.tx with lfsr := seedOf s k, quiet := false } })
    (deskewRestart s f)
  linkTry (mLink s1 f fun l => { l with st := .locking, refused := false, fr := { l.fr with hold := false } }) f

/-- A lane unlocked (cause 1) or alignment was lost (cause 2): the frame in progress ends with LINKDOWN (R317, R321). -/
def linkDown (s : State) (f cause : Nat) : State :=
  let raw := decide (lcFramer (liveOf s f) = 2)
  let s1 := match (gLink s f).fr.cur with
    | some bs => if raw && bs.isEmpty then frDrop s f else frEnd s f true
    | none => s
  if (gLink s f).st = .up then enterLocking (logEv s1 0x4011 [f, cause]) f else deskewRestart s1 f

/-- Deskew is refused (R314); the coding of the lanes concerned is open (log 4). -/
def deskewRefuse (s : State) (f skew : Nat) : State :=
  let s1 := deskewRestart s f
  if (gLink s f).refused then s1
  else logEv (useFree (mLink s1 f fun l => { l with refused := true })) 0x4012 [f, (freeVal s).toNat, skew]

/-- Group of lane k and that of its link's first lane have the same live configuration, so that the lane is part of the link (R312). -/
def inLink (s : State) (k : Nat) : Bool := decide (liveOf s (linkOf s k) = liveOf s k)

/-- Words held in the deskew buffer of lane k. -/
def fifoLen (s : State) (k : Nat) : Nat := (gLane s k).rx.fifo.length

/-- Every lane has shown a marker: the check of step 2, and the start of step 3 with the markers removed (R314). -/
def deskewCheck (s : State) (f : Nat) : State :=
  let ks := lanesOf s f
  let most := ks.foldl (fun n k => max n (fifoLen s k)) 0
  let least := ks.foldl (fun n k => min n (fifoLen s k)) 64
  let twice := ks.any fun k => ks.any fun j => decide (k ≠ j) && decide ((gLane s k).rx.pos = (gLane s j).rx.pos)
  if twice || decide (48 < most - least) || ks.any fun k => decide ((gLane s k).rx.pos = some 64) then deskewRefuse s f (most - least)
  else ks.foldl (fun acc k => mRx acc k fun x => { x with fifo := x.fifo.tail, skew := most - fifoLen s k })
    (mLink s f fun l => { l with dsk := 1, rounds := 0 })

/-- The lane at logical position p of the link. -/
def laneAt (s : State) (f p : Nat) : Option Nat := (lanesOf s f).find? fun k => decide ((gLane s k).rx.pos = some p)

/-- The stripe in which a marker is due on every lane (R314, R316). -/
def markerStripe (s : State) (f : Nat) : State :=
  let ks := lanesOf s f
  let bad := ks.filter fun k => match (gLane s k).rx.fifo with
    | u :: _ => decide (markerPos s f u ≠ (gLane s k).rx.pos)
    | [] => true
  let s1 := ks.foldl (fun acc k => mRx acc k fun x => { x with fifo := x.fifo.tail })
    (mLink s f fun l => { l with rounds := 0 })
  if (gLink s f).dsk = 1 then (if bad.isEmpty then linkUp s1 f else deskewRestart s1 f)
  else
    let s2 := bad.foldl (fun acc k => mLane acc k fun l => { l with mkErr := satInc l.mkErr }) s1
    if bad.isEmpty then mLink s2 f fun l => { l with badInt := 0 }
    else if 2 ≤ (gLink s f).badInt then linkDown s2 f 2
    else mLink s2 f fun l => { l with badInt := l.badInt + 1 }

/-- A round of one unit from each lane, in logical order (R315); a marker out of its place is removed (R313). -/
def dataStripe (s : State) (f : Nat) : State :=
  let us := (List.range (lcWidth (liveOf s f))).filterMap fun p => (laneAt s f p).bind fun k => (gLane s k).rx.fifo.head?
  let s1 := (lanesOf s f).foldl (fun acc k => mRx acc k fun x => { x with fifo := x.fifo.tail })
    (mLink s f fun l => { l with rounds := l.rounds + 1 })
  if (gLink s f).dsk = 2 then us.foldl (fun acc u => if isMarker s f u then acc else frFeed acc f u) s1 else s1

/-- Rounds leave the deskew buffers while every lane holds a unit. -/
def stripeRun (f : Nat) : Nat → State → State
  | 0, s => s
  | n + 1, s =>
    if (gLink s f).dsk = 0 || (lanesOf s f).any fun k => decide (fifoLen s k = 0) then s
    else if lcMarkers (liveOf s f) && decide ((gLink s f).rounds + 1 = lcMkInt (liveOf s f)) then
      stripeRun f n (markerStripe s f)
    else stripeRun f n (dataStripe s f)

/-- A unit of locked lane k crosses into FCLK (R314–R316). A buffer that would hold more than 64 units loses alignment. -/
def laneCross (s : State) (k : Nat) (u : LBlk) : State :=
  let f := linkOf s k
  let l := gLink s f
  let push (s : State) : State := mRx s k fun x => { x with fifo := x.fifo ++ [u] }
  if !linkOn l || !inLink s k then s
  else if l.dsk = 0 then
    if (lanesOf s f).any fun j => !laneLocked s j then s
    else if (gLane s k).rx.pos.isSome then
      if 64 ≤ fifoLen s k then deskewRefuse s f 64 else push s
    else match (if !lcMarkers (liveOf s f) then none else match markerPos s f u with
        | some p => some p
        | none => if deskewForeign s f u then some 64 else none) with
      | none => s
      | some p =>
        let s1 := push (mRx s k fun x => { x with pos := some p })
        if (lanesOf s f).all fun j => (gLane s1 j).rx.pos.isSome then stripeRun f 64 (deskewCheck s1 f) else s1
  else if 64 ≤ fifoLen s k then linkDown s f 2
  else stripeRun f 64 (push s)

/-! ### Lane lock (R307–R309) -/

/-- Lane k becomes locked. -/
def laneLock (s : State) (k : Nat) : State := linkTry (logEv s 0x4002 [k, (gLane s k).rx.offset]) (linkOf s k)

/-- Lane k, which was locked, becomes unlocked by `f`: the count, the event with its cause, and the link (R309, R317). -/
def laneUnlock (s : State) (k cause : Nat) (f : LaneRx → LaneRx) : State :=
  let s1 := mLane (mRx s k fun x => { f x with stale := true }) k fun l => { l with unlock := satInc l.unlock }
  let s2 := logEv s1 0x4001 [k, cause]
  if linkOn (gLink s2 (linkOf s k)) && inLink s k then linkDown s2 (linkOf s k) 1 else s2

/-- The aligner starts anew, at the start of a lane word. -/
def rxHunt (x : LaneRx) : LaneRx := { x with bits := [], offset := 0, good := 0, hist := [], aligned := false }

/-- Validity history with one more unit (R307, R308). -/
def histPush (h : List Bool) (bad : Bool) (n : Nat) : List Bool := (bad :: h).take n
def badCount (h : List Bool) : Nat := (h.filter id).length

/-- One block of 64B/66B or 128b/130b with `b` bits (R307). -/
def takeBlock (s : State) (k b : Nat) : State :=
  let x := (gLane s k).rx
  let u : LBlk := { hdr := BitVec.ofNat 2 (bitsNum (x.bits.take 2)), pay := bitsBytes ((x.bits.take b).drop 2), kf := [] }
  let bad := u.hdr = 0 || u.hdr = 3
  let s1 := if bad then mLane s k fun l => { l with hdrErr := satInc l.hdrErr } else s
  let slip (x : LaneRx) : LaneRx :=
    { x with bits := x.bits.drop 1, offset := (x.offset + 1) % b, good := 0, hist := [], aligned := false }
  if !x.aligned then
    if bad then mRx s1 k slip
    else
      let s2 := mRx s1 k fun x => { x with bits := x.bits.drop b, good := x.good + 1 }
      if 64 ≤ x.good + 1 then laneLock (mRx s2 k fun x => { x with aligned := true, hist := [] }) k else s2
  else
    let h := histPush x.hist bad 64
    if 16 ≤ badCount h then laneUnlock s1 k 2 slip
    else
      let s2 := mRx s1 k fun x => { x with bits := x.bits.drop b, hist := h }
      let r := rxDescr s2 k u
      laneCross r.2 k r.1

/-- The next seven bits are the comma of K28.5 (R308). -/
def isComma (bs : List Bool) : Bool :=
  decide (bs.take 7 = [false, false, true, true, true, true, true]) ||
    decide (bs.take 7 = [true, true, false, false, false, false, false])

/-- One 8b/10b code group, or one bit of the search for a comma (R308). DESIGN CHOICE (log 25): OFFSET counts the positions
modulo 10, one code group; the manual speaks of the 60 positions of a lane word. -/
def takeGroup (s : State) (k : Nat) : State :=
  let x := (gLane s k).rx
  let r := dec8b10b x.disp (BitVec.ofNat 10 (bitsNum (x.bits.take 10)))
  let code := r.2.2.1
  let next (x : LaneRx) : LaneRx := { x with bits := x.bits.drop 10, disp := r.2.2.2.2 }
  let s1 := mLane s k fun l => { l with
    hdrErr := if code then satInc l.hdrErr else l.hdrErr
    dispErr := if r.2.2.2.1 then satInc l.dispErr else l.dispErr }
  let slip (x : LaneRx) : LaneRx :=
    { x with bits := x.bits.drop 1, offset := (x.offset + 1) % 10, good := 0, hist := [], aligned := false }
  if x.aligned then
    let h := histPush x.hist code 16
    if 4 ≤ badCount h then laneUnlock s1 k 2 slip
    else laneCross (mRx s1 k fun x => { next x with hist := h }) k
      { hdr := 0, pay := [r.1], kf := [BitVec.ofNat 3 (b2n r.2.1 + 2 * b2n code + 4 * b2n r.2.2.2.1)] }
  else if x.good = 0 then mRx s k fun x => if isComma x.bits then { next x with good := 1 } else slip x
  else if code then mRx s1 k slip
  else if !isComma x.bits then mRx s1 k next
  else if 3 ≤ x.good + 1 then laneLock (mRx s1 k fun x => { next x with aligned := true, good := 3 }) k
  else mRx s1 k fun x => { next x with good := x.good + 1 }

/-- Takes units from the lane's bits while there are enough. -/
def laneTake (k : Nat) : Nat → State → State
  | 0, s => s
  | n + 1, s =>
    let len := (gLane s k).rx.bits.length
    match lcCode (liveOf s k) with
    | 1 => if 66 ≤ len then laneTake k n (takeBlock s k 66) else s
    | 2 => if 130 ≤ len then laneTake k n (takeBlock s k 130) else s
    | _ => if 10 ≤ len then laneTake k n (takeGroup s k) else s

/-! ### Lanes that stop sending (R67, R331–R333) -/

/-- Every lane of the list goes quiet (R67). -/
def quietLanes (s : State) (ks : List Nat) : State :=
  ks.foldl (fun acc k => mTx acc k fun x => { x with quiet := true, q := [], bits := [], owed := 0 }) s

/-- The link sends no frame, and every word that holds a part of its last one has transferred. -/
def linkIdle (s : State) (f : Nat) : Bool :=
  !(gLink s f).asm.busy && (lanesOf s f).all fun k => decide ((gLane s k).tx.owed = 0)

/-- The lanes of the link in groups that are disabled go quiet once its frame has been sent (R67). -/
def offQuiet (s : State) (f : Nat) : State :=
  if linkIdle s f then quietLanes s ((lanesOf s f).filter fun k => !(gLg s (k / 8)).en && !(gLane s k).tx.quiet) else s

/-- A re-bond's drain is over: no link of the group has a frame in progress in either direction; its lanes go quiet (R332). -/
def rbAdvance (s : State) (g : Nat) : State :=
  if (gLg s g).rb = .drain ∧ (linksOf s g).all fun f => (gLink s f).fr.cur.isNone && linkIdle s f then
    quietLanes (mLg s g fun x => { x with rb := .quiet }) ((List.range 8).map fun i => 8 * g + i)
  else s

/-- Every group whose re-bond may go on. -/
def rbAll (s : State) : State := foldNat rbAdvance s (List.range 8)

/-- R305 LANE_RX_WORD. -/
def execLaneRxWord (lane : Fin 64) (ctl : BitVec 2) (data : W64) (s : State) : Out :=
  let k := lane.val
  let x := (gLane s k).rx
  act (up s && (gLg s (k / 8)).en && x.lock && !x.clkBad) (fun s => rbAll <|
    match lcCode (liveOf s k) with
    | 0 => laneCross s k { hdr := ctl, pay := leBytes 8 data.toNat, kf := [] }
    | 3 => laneTake k 80 (mRx s k fun x => { x with bits := x.bits ++ numBits 60 data.toNat })
    | _ => laneTake k 140 (mRx s k fun x => { x with bits := x.bits ++ numBits 2 ctl.toNat ++ numBits 64 data.toNat })) s

/-- The lane's alignment when its level, clock or configuration lets it start: BYPASS is aligned at once (R306). -/
def laneBegin (s : State) (k : Nat) : State :=
  let s1 := mRx s k rxHunt
  if lcCode (liveOf s k) = 0 && (gLg s (k / 8)).en && (gLane s k).rx.lock && !(gLane s k).rx.clkBad then
    laneLock (mRx s1 k fun x => { x with aligned := true, offset := 0 }) k
  else s1

/-- R66, R309 LN_RX_LOCK_CHANGE. -/
def execLnRxLockChange (lane : Fin 64) (level : Bool) (s : State) : Out :=
  let k := lane.val
  act (decide ((gLane s k).rx.lock ≠ level)) (fun s =>
    if !up s then mRx s k fun x => { x with lock := level }
    else if level then laneBegin (mRx s k fun x => { x with lock := true }) k
    else if laneLocked s k then rbAll (laneUnlock s k 1 fun x => { rxHunt x with lock := false })
    else mRx s k fun x => { rxHunt x with lock := false }) s

/-- Level of `ln_tx_quiet`: 1 too while the group's LCLK is outside its window (R67, R85). -/
def laneQuiet (s : State) (k : Nat) : Bool := (gLane s k).tx.quiet || (gLane s k).rx.clkBad

/-- The LCLK of group g leaves or enters its window (R85, R309). -/
def groupClk (s : State) (g : Nat) (bad : Bool) : State :=
  foldNat (fun acc i =>
    let k := 8 * g + i
    if (gLane acc k).rx.clkBad = bad then acc
    else if !bad then laneBegin (mRx acc k fun x => { x with clkBad := false }) k
    else if laneLocked acc k then rbAll (laneUnlock acc k 3 fun x => { rxHunt x with clkBad := true })
    else mRx acc k fun x => { rxHunt x with clkBad := true }) s (List.range 8)

end Sys2Proof.Machine
end

