-- ==== Sys2Proof/Machine/Clocks.lean ====
section
/-! DEFINITION. The timebase's discipline, the clock measurements and the sensors (spec/03 R85–R88, R104, R113, spec/07
R249–R256, R499, spec/12 R425, R426). -/

namespace Sys2Proof.Machine

/-! ### The timebase (R249–R254, R499) -/

/-- 262,144 ticks in units of 2^-16 tick. -/
def nomX : Int := 262144 * 65536

/-- The loop restarts with k, S and E at 0 and no reference (R251). -/
def tbRestart (t : Tb) : Tb := { t with k := 0, sAcc := 0, eAcc := 0, ref := none, unsettled := true }

/-- CORR within ±200 ppm; CLAMP tells of a change (R251). -/
def tbClamp (t : Tb) (c : Int) : Tb :=
  if 13743895 < c then { t with corr := BitVec.ofInt 32 13743895, clamp := true }
  else if c < -13743895 then { t with corr := BitVec.ofInt 32 (-13743895), clamp := true }
  else { t with corr := BitVec.ofInt 32 c }

/-- One sample of the loop (R251). D, S, E and X count 2^-16 tick. -/
def tbSample (t : Tb) : Tb :=
  match t.ref with
  | none => { t with ref := some t.now }
  | some prev =>
    let d := ((t.now - prev).toNat : Int) * 65536 - t.x
    let e := t.eAcc + d
    let t1 := { t with ref := some t.now, k := t.k + 1, eAcc := e }
    if t1.k < 16 then { t1 with sAcc := t.sAcc + d }
    else if t1.k = 16 then tbClamp { t1 with unsettled := false } (t.corr.toInt - (t.sAcc + d).tdiv 4)
    else tbClamp t1 (t.corr.toInt - (d * 4 + e.tdiv (8 * 65536) * 2 ^ 18))

/-- R251 TB_SAMPLE. -/
def execTbSample (s : State) : Out :=
  act (up s && s.tb.running && s.tb.discEn && !s.tb.holdover) (fun s => mTb s tbSample) s

/-- R499 REFCLK_GAP. The rule names no DISC_EN: with DISC_EN at 0 the gap sets GAP and UNSETTLED too, and R251's 'UNSETTLED
keeps its value' is read of the samples (DEDUCED, log 21). -/
def execRefclkGap (s : State) : Out :=
  act (up s && s.tb.running && !s.tb.holdover) (fun s =>
    mTb s fun t => { tbRestart t with gap := true }) s

/-- A clock leaves its stage-manager window, or is back inside it: CLK_MON_STAT (R113). -/
def clkOutSet (s : State) (id : Nat) : State :=
  mClk s fun c => { c with out := setBit c.out id, seen := setBit c.seen id }
def clkOutClr (s : State) (id : Nat) : State := mClk s fun c => { c with out := clrBit c.out id }
def clkIsOut (s : State) (id : Nat) : Bool := bitOf s.clk.out.toNat id

/-- R253: REFCLK is lost. -/
def refclkLost (s : State) : State :=
  if s.tb.holdover then s
  else logEv (mTb (clkOutSet s 4) fun t => { t with holdover := true }) 0x1003 [s.tb.corr.toNat]

/-- R253: REFCLK is back. -/
def refclkBack (s : State) : State :=
  if s.tb.holdover then
    logEv (mTb (clkOutClr s 4) fun t => { tbRestart t with holdover := false }) 0x1002 [4]
  else s

/-- R253 REFCLK_LOSS. -/
def execRefclkLoss (s : State) : Out := act (up s && s.tb.running) refclkLost s

/-- R253 REFCLK_RETURN. -/
def execRefclkReturn (s : State) : Out := act (up s && s.tb.running) refclkBack s

/-- The pulse comes 1 s ± 1 ms after the previous one (R252). -/
def ppsNear (d : Nat) : Bool := decide (39960000000 ≤ d ∧ d ≤ 40040000000)

/-- R85, R113, R252 PPS_PULSE: a pulse whose spacing is outside 1 s ± 1 ms is outside the window; only a missing one is logged. -/
def execPpsPulse (s : State) : Out :=
  act (up s && s.tb.running) (fun s =>
    let at_ := s.tb.now &&& ~~~ (15 : W64)
    let d := (at_ - s.tb.pps).toNat
    let near := decide (1 ≤ s.tb.ppsSeen) && ppsNear d
    let s1 := mTb s fun t => { t with
      pps := at_, ppsSeen := min 2 (t.ppsSeen + 1), ppsLock := t.ppsLock || (near && t.ppsEn)
      x := if t.ppsLock && near then ((262144 * 40000000000 * 65536 / d : Nat) : Int) else t.x }
    if decide (1 ≤ s.tb.ppsSeen) && !near then clkOutSet (mTb s1 fun t => { t with ppsLost := true }) 5
    else if clkIsOut s 5 && near then logEv (clkOutClr (mTb s1 fun t => { t with ppsLost := false }) 5) 0x1002 [5] else s1) s

/-- R85, R252 PPS_MISSING, once two pulses have been seen. -/
def execPpsMissing (s : State) : Out :=
  act (up s && s.tb.running && decide (s.tb.ppsSeen = 2)) (fun s =>
    logEv (mTb (clkOutSet s 5) fun t => { t with ppsLock := false, x := nomX, ppsSeen := 0, ppsLost := true }) 0x1004
      [s.tb.pps.toNat]) s

/-- R254 TB_RATE_JOURNAL. -/
def execTbRateJournal (s : State) : Out :=
  act (up s && s.mg.log.opened && !s.mg.mram.wrErr && decide (68719 < (s.tb.corr.toInt - s.tb.corrJrn.toInt).natAbs))
    (fun s => mTb (jAppend s (.tbRate s.tb.corr)) fun t => { t with corrJrn := t.corr }) s

/-! ### Clock windows (R85, R113) -/

/-- Value of a configuration item in force (R443). -/
def cfgVal (s : State) (item : W16) (key : Nat) : Option (List W8) :=
  (s.mg.sm.cfg.find? fun c => decide (c.item = item) && decide (c.key = key)).map CfgItem.val

/-- f Hz lies within ppm of nom Hz. -/
def within (f nom ppm : Nat) : Bool := decide (((f : Int) - nom).natAbs * 1000000 ≤ nom * ppm)

/-- Nominal frequency and tolerance that a CLKWIN item sets: kHz and ppm (R443). -/
def clkWin (s : State) (id : Nat) : Option (Nat × Nat) :=
  (cfgVal s 0x0001 id).map fun v => (leNat ((v.drop 4).take 4) * 1000, leNat ((v.drop 8).take 4))

/-- The clock lies inside its stage-manager window (R85). A stopped DUT clock is legal. -/
def clkInside (s : State) (id f : Nat) : Bool :=
  match clkWin s id with
  | some (nom, ppm) => within f nom ppm || (decide (16 ≤ id) && decide (f = 0))
  | none =>
    if id = 0 then within f s.clk.nomE 5000
    else if id = 1 then within f s.clk.nomF 5000
    else if id = 2 then within f 500000000 5000
    else if id = 3 then decide (50000000 ≤ f ∧ f ≤ 1000000000)
    else if id = 4 then within f 156250000 100
    else if id < 8 then true
    else if id < 16 then decide (10000000 ≤ f ∧ f ≤ 500000000)
    else decide (f ≤ 255000000)

/-- The monitors look at the clock: an LCLK only while its group is enabled. -/
def clkWatched (s : State) (id : Nat) : Bool :=
  if id < 5 then true else if id < 8 then false else if id < 16 then (gLg s (id - 8)).en else decide (id < 32)

/-- DCLKn is too fast: an enabled port stops and holds (R88). -/
def dclkFast (s : State) (n f : Nat) : State :=
  logEv (mDp s n fun d =>
    if d.en then { d with fast := true, hold := true, holds := if d.hold then d.holds else satInc d.holds } else d) 0x1006 [n, f]

/-- A clock's measurement has left its window. -/
def clkLeaves (s : State) (id f : Nat) : State :=
  if id = 4 then refclkLost s
  else if 16 ≤ id then dclkFast (clkOutSet s id) (id - 16) f
  else
    let s1 := logEv (clkOutSet s id) 0x1001 [id, f]
    if 8 ≤ id then groupClk s1 (id - 8) true else s1

/-- A clock's measurement is back inside its window. -/
def clkReturns (s : State) (id : Nat) : State :=
  if id = 4 then refclkBack s
  else
    let s1 := logEv (clkOutClr s id) 0x1002 [id]
    if 8 ≤ id ∧ id < 16 then groupClk s1 (id - 8) false else s1

/-- One measurement of CLOCK_POLL. A port enabled while its clock is still too fast stops at the next measurement (R88). While REFCLK is missing no other clock can be measured (R87). -/
def clkMeasure (s : State) (m : Nat × Nat) : State :=
  if !clkWatched s m.1 || (s.tb.holdover && decide (m.1 ≠ 4)) then s
  else
    let s1 := mClk s fun c => { c with meas := tset 0 c.meas m.1 m.2 }
    let inside := clkInside s m.1 m.2
    if !inside && !clkIsOut s m.1 then clkLeaves s1 m.1 m.2
    else if !inside && decide (16 ≤ m.1) && (gDp s (m.1 - 16)).en && !(gDp s (m.1 - 16)).fast then dclkFast s1 (m.1 - 16) m.2
    else if inside && clkIsOut s m.1 then clkReturns s1 m.1
    else s1

/-- The stage manager's own block reset: as a pulse of `blk_rst_n` (R87, R91). -/
def smReset (s : State) : State :=
  let s1 := blockReset (mAon s fun a => { a with blkRstN := false })
  resetEnd (mAon s1 fun a => { a with blkRstN := true })

/-- R85, R87, R88, R113 CLOCK_POLL. DESIGN CHOICE (log 21): the measurements are made in READY only; whether the ROM makes them
in RECOVERY, the manual does not say. -/
def execClockPoll (meas : List (Nat × Nat)) (s : State) : Out :=
  act (up s && decide (s.aon.power = .ready)) (fun s =>
    if s.tb.holdover && meas.any (fun m => decide (m.1 < 2 ∧ m.2 = 0)) then smReset s
    else meas.foldl clkMeasure s) s

/-! ### Sensors (R425, R426) -/

/-- Range of a supply's rail in mV (R484). -/
def railLow (i : Nat) : Nat := if i < 32 then 700 else if i < 34 then 760 else if i < 35 then 700 else 1140
def railHigh (i : Nat) : Nat := if i < 32 then 800 else if i < 34 then 840 else if i < 35 then 800 else 1260

/-- Thresholds of a sensor in force: WARN action, CRIT action, WARN, CRIT, low WARN (R425, R426, R443). -/
structure Thr4 where
  wAct : Nat
  cAct : Nat
  warn : Int
  crit : Option Int
  low  : Int
  deriving DecidableEq, Repr

/-- A 16-bit field of a value. -/
def at16 (v : List W8) (i : Nat) : Nat := leNat ((v.drop i).take 2)

def sensThr (s : State) (i : Nat) : Thr4 :=
  match cfgVal s 0x0003 i with
  | some v =>
    let b := leNat ((v.drop 1).take 1)
    let num (n : Nat) : Int := if i < 24 then (BitVec.ofNat 16 n).toInt else n
    { wAct := b % 4, cAct := b / 4 % 4, warn := num (at16 v 2)
      crit := if 24 ≤ i ∧ at16 v 4 = 0 then none else some (num (at16 v 4)), low := at16 v 6 }
  | none =>
    if i < 24 then { wAct := 1, cAct := 2, warn := 800, crit := some 896, low := 0 }
    else if i < 36 then { wAct := 1, cAct := 1, warn := railHigh i, crit := none, low := railLow i }
    else { wAct := 1, cAct := 1, warn := 1, crit := none, low := 0 }

/-- VALUE of a raw reading: (raw + OFFSET) × GAIN ÷ 0x8000, rounded toward zero. -/
def sensExact (s : State) (i : Nat) (raw : Int) : Int := ((raw + calOffset s i) * calGain s i).tdiv 0x8000

/-- VALUE fits its 16 bits: signed for a thermal sensor. -/
def sensFits (i : Nat) (v : Int) : Bool := if i < 24 then decide (-32768 ≤ v ∧ v < 32768) else decide (0 ≤ v ∧ v < 65536)

/-- VALUE as a number. -/
def sensNum (i : Nat) (v : W16) : Int := if i < 24 then v.toInt else v.toNat

/-- VALUE meets the WARN threshold, or has left it by the hysteresis. -/
def warnMet (i : Nat) (t : Thr4) (v : Int) : Bool :=
  if 24 ≤ i ∧ i < 36 then decide (t.warn < v ∨ v < t.low) else decide (t.warn ≤ v)
def warnOver (i : Nat) (t : Thr4) (v : Int) : Bool :=
  if i < 24 then decide (v ≤ t.warn - 16)
  else if i < 36 then decide (t.low + 10 ≤ v ∧ v ≤ t.warn - 10) else decide (v < t.warn)

def critMet (t : Thr4) (v : Int) : Bool := match t.crit with | some c => decide (c ≤ v) | none => false
def critOver (i : Nat) (t : Thr4) (v : Int) : Bool :=
  match t.crit with
  | some c => if i < 24 then decide (v ≤ c - 16) else if i < 36 then decide (v ≤ c - 10) else decide (v < c)
  | none => true

/-- Event of an episode's start (R465). -/
def sensEvent (s : State) (i : Nat) (crit : Bool) (v : W16) (action : Nat) : State :=
  if i < 24 then if crit then logEv s 0x7102 [i, v.toNat, action] else logEv s 0x7101 [i, v.toNat]
  else if i < 36 then logEv s 0x7103 [i, v.toNat] else logEv s 0x7104 [i, v.toNat]

def gSens (s : State) (i : Nat) : Sens := tget {} s.mg.sm.sens i
def mSens (s : State) (i : Nat) (f : Sens → Sens) : State :=
  mSm s fun m => { m with sens := tset {} m.sens i (f (tget {} m.sens i)) }

/-- ACTION at an episode's start: 1 and 2 set `SM_STAT.SENS` (R426). -/
def sensAct (s : State) (action : Nat) : State := if 1 ≤ action then mSm s fun m => { m with sensBit := true } else s

/-- The episodes of one sensor after a reading; the flag says that ACTION 2 isolates the block. -/
def sensEpisodes (s : State) (i : Nat) (v : W16) : State × Bool :=
  let t := sensThr s i
  let x := gSens s i
  let n := sensNum i v
  let wIn := !x.warn && warnMet i t n
  let wOut := x.warn && warnOver i t n
  let cIn := !x.crit && critMet t n
  let cOut := x.crit && critOver i t n
  let s1 := mSens s i fun x => { value := v, warn := (x.warn || wIn) && !wOut, crit := (x.crit || cIn) && !cOut }
  let s2 := if wIn then sensAct (sensEvent s1 i false v t.wAct) t.wAct else s1
  let s3 := if cIn then sensAct (sensEvent s2 i true v t.cAct) t.cAct else s2
  let s4 := if wOut then logEv s3 0x7105 [i, v.toNat] else s3
  let s5 := if cOut then logEv s4 0x7105 [i, v.toNat] else s4
  (s5, decide (i < 24) && ((wIn && decide (t.wAct = 2)) || (cIn && decide (t.cAct = 2))))

/-- One reading. A value outside the register's format is left open (log 4). -/
def sensRead (x : State × Bool) (r : Nat × Int) : State × Bool :=
  if 40 ≤ r.1 then x
  else
    let v := sensExact x.1 r.1 r.2
    let y := if sensFits r.1 v then sensEpisodes x.1 r.1 (BitVec.ofInt 16 v)
      else sensEpisodes (useFree x.1) r.1 ((freeVal x.1).extractLsb' 0 16)
    (y.1, x.2 || y.2)

/-- R425, R426 SENSOR_POLL: ACTION 2 isolates the block once the log holds the record. -/
def execSensorPoll (raw : List (Nat × Int)) (s : State) : Out :=
  act (up s && s.mg.sm.alive && decide (s.aon.power = .ready)) (fun s =>
    let x := raw.foldl sensRead (mSm s fun m => { m with heartbeat := m.heartbeat + 1 }, false)
    if x.2 then isolateSet (logFlush x.1 x.1.mg.log.buf.length) else x.1) s

end Sys2Proof.Machine
end

