-- ==== Sys2Proof/Machine/MemPorts.lean ====
section
/-! DEFINITION. The memory ports' rows (spec/02 R52–R60, spec/11 R393, R410): acceptance, responses and timeouts, and the
masters that go on when their answers have come. -/

namespace Sys2Proof.Machine

/-- The memory ports are out of their rest values (R82, R102). -/
def mpUp (s : State) : Bool := up s && s.blk.portsOn

/-- Source ID of the host port's aperture (R393). -/
def hostSrc : W16 := srcId 0 0xF00

/-- How an aperture read that has ended is answered, and its data (R393). -/
def apAnswer (s : State) (j : Nat) : MpSt × W64 :=
  let st := worst (jobAns s j)
  (st, if st = .okay then BitVec.ofNat 64 (leNat (jobData (jobAns s j))) else 0)

/-- An error response, not a timeout, sets `MP_HWIN.ERR` (R393). -/
def apErr (s : State) (st : MpSt) : State :=
  if st = .decErr ∨ st = .dataErr then { s with ms := { s.ms with hwErr := true } } else s

/-- An aperture read of DBGACC that has ended completes it; one that timed out ends as ERROR, and its data are open (R393,
R472, log 4). -/
def tapSettle (s : State) : State :=
  match s.mg.tap.job with
  | some j =>
    if jobDone s j then
      let a := apAnswer s j
      if a.1 = .timeout then
        mTap (useFree (takeJob s j)) fun t => { t with data := freeVal s, status := 3, busy := false, job := none }
      else apErr (mTap (takeJob s j) fun t => { t with data := a.2, status := 0, busy := false, job := none }) a.1
    else s
  | none => s

/-- Movers go on after answers: chain records, the prompt book, the box office, the DMA channels, DBGACC. -/
def memGo (s : State) : State := tapSettle (dmaSettle (boxRun (chSettle (pbIssue (pbSettle s)))))

/-- A request has ended: a master that waits gets its answer; a failed aperture write sets WERR (R393). -/
def mpEnd (s : State) (r : MpReq) (st : MpSt) (data : List W8) : State :=
  let s1 := if r.write && decide (r.src = hostSrc) && decide (st ≠ .okay) then
      { s with ms := { s.ms with hwWerr := true } } else s
  finish s1 { job := r.job, off := r.off, n := r.n, st := st, data := data }

/-- R52, R53, R59 MP_REQUEST: the oldest staged request is accepted; its tag is one that is not in use, and which, the manual
leaves open (log 4). -/
def execMpRequest (m : Fin 8) (s : State) : Out :=
  let p := gMp s m.val
  let used := p.out.map Prod.fst ++ p.stuck
  match p.stage with
  | [] => .next s
  | r :: t => act (mpUp s && decide (used.length < 2048)) (fun s =>
      let tag := pickFree s used 2048
      mMp (useFree (useFree s)) m.val fun p => mpDrive (freeVal (useFree s)) (freeBit s) tag r (stageRefill { p with
        stage := t, out := tset none p.out tag (some r) })) s

/-- Status of one beat (R55, R56). -/
def beatSt (b : MpBeat) : MpSt :=
  if 2 ≤ b.status.toNat then .decErr else if b.status = 1 ∨ !b.parOk then .dataErr else .okay

/-- The worst of two statuses (R55). DESIGN CHOICE (log 32): the manual does not rank DATAERR, DECERR and a timeout among each
other; here a timeout is the worst and DECERR is worse than DATAERR. -/
def stMax : MpSt → MpSt → MpSt
  | .timeout, _ => .timeout
  | _, .timeout => .timeout
  | .decErr, _ => .decErr
  | _, .decErr => .decErr
  | .dataErr, _ => .dataErr
  | _, x => x

/-- A beat with a parity error (R56). -/
def beatPar (m tag : Nat) (s : State) (b : MpBeat) : State :=
  if b.parOk then s else logEv (mMp s m fun p => { p with rspPerr := true }) 0x2103 [m, tag]

/-- A discarded beat (R56). -/
def beatUnexp (m tag : Nat) (s : State) (_ : MpBeat) : State :=
  logEv (mMp s m fun p => { p with tagUnexp := true }) 0x2102 [m, tag]

/-- The response of the outstanding request r (R54–R56, R410, R420). -/
def mpAnswer (s : State) (m tag : Nat) (r : MpReq) (beats : List MpBeat) : State :=
  let want := if r.write then 1 else mpBeats r
  let good := beats.take want
  let st := good.foldl (fun a b => stMax a (beatSt b)) (if good.length < want then .dataErr else .okay)
  let s1 := good.foldl (beatPar m tag) (mMp s m fun p => wdDone tag { p with out := tdel p.out tag })
  let s2 := (beats.drop want).foldl (beatUnexp m tag) s1
  let s3 := if st = .okay then s2
    else logEv (mMp s2 m fun p => { p with errRsp := satInc p.errRsp }) 0x2104
      [m, r.src.toNat, localAddr r.off, if st = .dataErr then 1 else 2]
  let raw := (((good.map MpBeat.data).flatten).drop (r.off % 64)).take r.n
  let data := if r.write then [] else if r.src.toNat / 4096 = 15 then raw
    else auOverlay s3 (portOf r.off) (extBase + r.off) raw
  memGo (mpEnd s3 r st data)

/-- R54–R57 MP_RESPONSE. -/
def execMpResponse (m : Fin 8) (tag : BitVec 11) (beats : List MpBeat) (s : State) : Out :=
  let p := gMp s m.val
  act (mpUp s) (fun s => match tget none p.out tag.toNat with
    | some r => mpAnswer s m.val tag.toNat r beats
    | none =>
      if p.stuck.contains tag.toNat then
        mMp s m.val fun p => { p with stuck := p.stuck.filter fun t => decide (t ≠ tag.toNat) }
      else beats.foldl (beatUnexp m.val tag.toNat) s) s

/-- R57 MP_TIMEOUT: a request of access `job`, outstanding or else staged. -/
def execMpTimeout (m : Fin 8) (job : Nat) (s : State) : Out :=
  let p := gMp s m.val
  let mine (r : MpReq) : Bool := decide (r.job = job)
  let late := p.out.findSome? fun o => match o.2 with
    | some r => if mine r then some (o.1, r) else none
    | none => none
  match late, p.stage.find? mine with
  | some (tag, r), _ => act (mpUp s) (fun s =>
      let s1 := mMp s m.val fun p => { p with
        out := tdel p.out tag, stuck := insAsc tag p.stuck, tmos := satInc p.tmos }
      memGo (mpEnd (logEv s1 0x2101 [m.val, r.src.toNat, tag]) r .timeout [])) s
  | none, some r => act (mpUp s) (fun s =>
      let s1 := mMp s m.val fun p => stageRefill { p with stage := eraseFirst mine p.stage, tmos := satInc p.tmos }
      memGo (mpEnd (logEv s1 0x2101 [m.val, r.src.toNat]) r .timeout [])) s
  | none, none => .next s

end Sys2Proof.Machine
end

