-- ==== Sys2Proof/Machine/KeMem.lean ====
section
/-! DEFINITION. KE loads and stores, STI, the multiply-accumulate and carry-less instructions over memory, atomics and pairs
(spec/05 R161–R170, R178–R181, R185, R196, R198–R202; spec/04 R136, R137, R143). -/

namespace Sys2Proof.Machine

/-! ### Privilege in control space (R170) -/

/-- Registers that no thread may write: AON_STAT and AON_CTL, THR_CTL and THR_PC of a prompter. -/
def ctlNoWrite (a : Nat) : Bool :=
  decide (0xFF0 ≤ a ∧ a < 0x1000) ||
    (decide (0x100000 ≤ a ∧ a < 0x210000) &&
      decide ((a - 0x100000) % 0x4000 / 8 * 8 = 0x1008 ∨ (a - 0x100000) % 0x4000 / 8 * 8 = 0x1018))

/-- Registers that every thread may write: USH_ENTER, BOX_FREE, USH_ODCTL. -/
def ctlAnyWrite (a : Nat) : Bool :=
  decide (a / 8 * 8 = 0x300010 ∨ a / 8 * 8 = 0x380010) ||
    (decide (0x310000 ≤ a ∧ a < 0x314000) && decide (a % 0x40 / 8 = 4))

/-- The address is a bill register: the page's physical engine. -/
def billPage (a : Nat) : Option Nat :=
  if 0x100000 ≤ a ∧ a < 0x210000 ∧ (a - 0x100000) % 0x4000 < 0xA0 then some ((a - 0x100000) / 0x4000) else none

/-- Ranges that threads do not reach through control space. -/
def ctlHidden (a : Nat) : Bool :=
  decide (0x10000 ≤ a ∧ a < 0x20000) || decide (0x40000 ≤ a ∧ a < 0x50000) ||
    decide (0x2000000 ≤ a ∧ a < 0x3100000) || decide (0x4000000 ≤ a ∧ a < 0x6000000)

/-- Ranges whose write needs a supervisor thread: every mapped range of R27. Unmapped addresses behave as R28 says. -/
def ctlMapped (a : Nat) : Bool :=
  decide (a < 0x50000) || decide (0x100000 ≤ a ∧ a < 0x210000) || decide (0x300000 ≤ a ∧ a < 0x450000) ||
    decide (0x500000 ≤ a ∧ a < 0x580000) || decide (0x600000 ≤ a ∧ a < 0x680000) || decide (0x700000 ≤ a ∧ a < 0x900000)

/-- The thread with key k may make the access. -/
def ctlAllowed (s : State) (k a : Nat) (write : Bool) : Bool :=
  if ctlHidden a then false
  else if !write then true
  else if ctlNoWrite a then false
  else if ctlAnyWrite a then true
  else match billPage a with
    | some p => decide (k = p * 32)
    | none => !ctlMapped a || isSupv s k

/-- Fault of a data access in EX (R202): privilege, alignment, decode. -/
def exPriv (s : State) (k a : Nat) (write : Bool) : Bool :=
  match spaceOf a with
  | .ctl off => !ctlAllowed s k off write
  | _ => false

def exDecode (a n : Nat) : Bool :=
  match spaceOf a with
  | .unmapped => true
  | .ctl _ => decide (n ≠ 4 ∧ n ≠ 8)
  | _ => false

def accFault (s : State) (k a n : Nat) (write : Bool) : Option W8 :=
  if exPriv s k a write then some 0x07
  else if a % n ≠ 0 then some 0x04
  else if exDecode a n then some 0x05
  else none

/-! ### Loads -/

/-- What a loaded value writes (R178). -/
def loadWrites (dst : LDst) (n : Nat) (bs : List W8) : List RWr :=
  let v := leNat bs
  match dst with
  | .dSx r => [.d r (if n = 1 then (BitVec.ofNat 8 v).signExtend 32 else if n = 2 then (BitVec.ofNat 16 v).signExtend 32
      else BitVec.ofNat 32 v)]
  | .dZx r => [.d r (BitVec.ofNat 32 v)]
  | .dPair r => [.d r (BitVec.ofNat 32 v), .d (r + 1) (BitVec.ofNat 32 (v / 2 ^ 32))]
  | .aReg r => [.a r (BitVec.ofNat 48 v)]

/-- Registers a load writes, for the load-use rule (R497). -/
def loadRegs : LDst → List LReg
  | .dSx r => [.d r]
  | .dZx r => [.d r]
  | .dPair r => [.d r, .d (r + 1)]
  | .aReg r => [.a r]

/-- An uncorrectable word of local memory: the fault, and event 0x2412 (R391, R421). -/
def lmEccFault (s : State) (k p a master : Nat) (pc : W48) : State :=
  takeFault (logEv s 0x2412 [p, a / 0x20000, a, master]) k 0x06 pc

/-- Issues a load with the writes `ws` that are made with its data (R166). -/
def issueLoad (s : State) (g k : Nat) (a n : Nat) (dst : LDst) (ws : List RWr) : State :=
  let pc := (gThr s k).r.pc
  match spaceOf a with
  | .own => match lmRead s true (k / 32) a n with
    | some bs => retireNext s k (loadRegs dst) (ws ++ loadWrites dst n bs)
    | none => lmEccFault s k (k / 32) a g pc
  | .ext off =>
    let j := s.ms.nextJob
    hold (mpRead (newJob s) off n (srcId 0 g) 1 j) k (.loadExt j (BitVec.ofNat 48 a) n dst) ws
  | .ctl off => ctlQueue (hold s k (.ctlLoad off n dst none) ws) k
  | _ => hold s k (.load (BitVec.ofNat 48 a) n dst) ws

/-- A full load (R162, R178). -/
def loadForm (i : Instr) (n : Nat) (dst : Nat → LDst) (ok : Fin 16 → Bool) (g : Fin 2048) (r : Fin 16) (a : Fin 8) (mode : BitVec 2)
    (imm16 : W16) (s : State) : Out :=
  let k := thrKey s g.val
  keIssue i g (fun s =>
    let x := ea (gThr s k).r a mode imm16
    let pc := (gThr s k).r.pc
    if eaBad mode imm16 || !ok r then takeFault s k 0x01 pc
    else match accFault s k x.1.toNat n false with
      | some c => takeFault s k c pc
      | none => issueLoad s g k x.1.toNat n (dst r) x.2) s

/-- R178 LDB. -/
def execLdb (g : Fin 2048) (r : Fin 16) (a : Fin 8) (mode : BitVec 2) (imm16 : W16) (s : State) : Out :=
  loadForm (.ldb g r a mode imm16) 1 .dSx (fun _ => true) g r a mode imm16 s

/-- R178 LDBU. -/
def execLdbu (g : Fin 2048) (r : Fin 16) (a : Fin 8) (mode : BitVec 2) (imm16 : W16) (s : State) : Out :=
  loadForm (.ldbu g r a mode imm16) 1 .dZx (fun _ => true) g r a mode imm16 s

/-- R178 LDH. -/
def execLdh (g : Fin 2048) (r : Fin 16) (a : Fin 8) (mode : BitVec 2) (imm16 : W16) (s : State) : Out :=
  loadForm (.ldh g r a mode imm16) 2 .dSx (fun _ => true) g r a mode imm16 s

/-- R178 LDHU. -/
def execLdhu (g : Fin 2048) (r : Fin 16) (a : Fin 8) (mode : BitVec 2) (imm16 : W16) (s : State) : Out :=
  loadForm (.ldhu g r a mode imm16) 2 .dZx (fun _ => true) g r a mode imm16 s

/-- R178 LDW. -/
def execLdw (g : Fin 2048) (r : Fin 16) (a : Fin 8) (mode : BitVec 2) (imm16 : W16) (s : State) : Out :=
  loadForm (.ldw g r a mode imm16) 4 .dZx (fun _ => true) g r a mode imm16 s

/-- R178 LDD; r is even. -/
def execLdd (g : Fin 2048) (r : Fin 16) (a : Fin 8) (mode : BitVec 2) (imm16 : W16) (s : State) : Out :=
  loadForm (.ldd g r a mode imm16) 8 .dPair evenReg g r a mode imm16 s

/-- R178 LDA; r[3] is 0. -/
def execLda (g : Fin 2048) (r : Fin 16) (a : Fin 8) (mode : BitVec 2) (imm16 : W16) (s : State) : Out :=
  loadForm (.lda g r a mode imm16) 8 .aReg (fun r => decide (r.val < 8)) g r a mode imm16 s

/-! ### Stores -/

/-- Sends a posted store to its target and adds it to the thread's posted accesses (R151, R166). -/
def sendPosted (s : State) (g k a n : Nat) (data : W64) (pc : W48) : State :=
  let bs := leBytes n data.toNat
  match spaceOf a with
  | .mesh p off =>
    if peOn s p then post (lmWrite s false p off bs) k { pc := pc, job := none, fault := none, sti := none }
    else post s k { pc := pc, job := none, fault := some 0x05, sti := none }
  | .wings off => post (wingsWrite s off bs) k { pc := pc, job := none, fault := none, sti := none }
  | .ext off =>
    let j := s.ms.nextJob
    post (mpWrite (newJob s) off bs (srcId 0 g) 1 j) k { pc := pc, job := some j, fault := none, sti := none }
  | _ => s

/-- Issues a store with the register writes `ws` of its word (R164, R166–R168). -/
def issueStore (s : State) (g k : Nat) (a n : Nat) (data : W64) (ws : List RWr) : State :=
  let pc := (gThr s k).r.pc
  match spaceOf a with
  | .own => retireNext (lmWrite s true (k / 32) a (leBytes n data.toNat)) k [] ws
  | .ctl off => ctlQueue (hold s k (.ctlStore off n data) ws) k
  | _ =>
    if 8 ≤ (gThr s k).posted.length then hold s k (.ninthStore (BitVec.ofNat 48 a) n data) ws
    else retireNext (sendPosted s g k a n data pc) k [] ws

/-- A full store (R162, R178). -/
def storeForm (i : Instr) (n : Nat) (val : Regs → Nat → W64) (ok : Fin 16 → Bool) (g : Fin 2048)
    (r : Fin 16) (a : Fin 8) (mode : BitVec 2) (imm16 : W16) (s : State) : Out :=
  let k := thrKey s g.val
  keIssue i g (fun s =>
    let x := ea (gThr s k).r a mode imm16
    let pc := (gThr s k).r.pc
    if eaBad mode imm16 || !ok r then takeFault s k 0x01 pc
    else match accFault s k x.1.toNat n true with
      | some c => takeFault s k c pc
      | none => issueStore s g k x.1.toNat n (val (gThr s k).r r) x.2) s

/-- The low bytes of a D register as store data. -/
def dData (r : Regs) (n : Nat) : W64 := (rD r n).setWidth 64

/-- R178 STB. -/
def execStb (g : Fin 2048) (r : Fin 16) (a : Fin 8) (mode : BitVec 2) (imm16 : W16) (s : State) : Out :=
  storeForm (.stb g r a mode imm16) 1 dData (fun _ => true) g r a mode imm16 s

/-- R178 STH. -/
def execSth (g : Fin 2048) (r : Fin 16) (a : Fin 8) (mode : BitVec 2) (imm16 : W16) (s : State) : Out :=
  storeForm (.sth g r a mode imm16) 2 dData (fun _ => true) g r a mode imm16 s

/-- R178 STW. -/
def execStw (g : Fin 2048) (r : Fin 16) (a : Fin 8) (mode : BitVec 2) (imm16 : W16) (s : State) : Out :=
  storeForm (.stw g r a mode imm16) 4 dData (fun _ => true) g r a mode imm16 s

/-- R178 STD; r is even. -/
def execStd (g : Fin 2048) (r : Fin 16) (a : Fin 8) (mode : BitVec 2) (imm16 : W16) (s : State) : Out :=
  storeForm (.std g r a mode imm16) 8 rPair evenReg g r a mode imm16 s

/-- R178 STA; r[3] is 0. -/
def execSta (g : Fin 2048) (r : Fin 16) (a : Fin 8) (mode : BitVec 2) (imm16 : W16) (s : State) : Out :=
  storeForm (.sta g r a mode imm16) 8 (fun r n => (rA r n).setWidth 64) (fun r => decide (r.val < 8)) g r a mode imm16 s

/-! ### STI (R143, R161, R169) -/

/-- The word in every way of a cache array that holds its line (R143). -/
def icStore (s : State) (p a : Nat) (w : W32) : State :=
  mIc s p fun c => { c with
    sets := tset [] c.sets (a / 64 % 128) ((tget [] c.sets (a / 64 % 128)).map fun l =>
      if l.line = a / 64 then { l with words := tset 0 l.words (a % 64 / 4) w } else l) }

/-- The STI leaves the engine: its own cache array is written, and the word is on its way to the repertory store. -/
def sendSti (s : State) (k a : Nat) (w : W32) (pc : W48) : State :=
  post (icStore s (k / 32) a w) k { pc := pc, job := none, fault := none, sti := some (BitVec.ofNat 48 a, w) }

/-- The STI ends: the copy of its successor is kept (R143). -/
def retireSti (s : State) (k : Nat) (ws : List RWr) (succ : W32) : State :=
  mThr (retireNext s k [] ws) k fun t => { t with succ := some succ }

/-- R143, R178 STI: its successor's line is present when it issues (R120), and the copy of the successor is taken then. A
successor outside the instruction space, or unpinned at a FIXED thread, is a fault of the fetch (FETCH_MISS). -/
def execSti (g : Fin 2048) (r : Fin 16) (a : Fin 8) (mode : BitVec 2) (imm16 : W16) (s : State) : Out :=
  let k := thrKey s g.val
  let succ := (wordIn s (k / 32) ((gThr s k).r.pc + 4).toNat).getD 0
  keIssue (.sti g r a mode imm16) g (fun s =>
    let t := gThr s k
    let x := ea t.r a mode imm16
    let adr := x.1.toNat
    if eaBad mode imm16 then takeFault s k 0x01 t.r.pc
    else if !isSupv s k then takeFault s k 0x07 t.r.pc
    else if adr % 4 ≠ 0 then takeFault s k 0x04 t.r.pc
    else if 0x1000000 ≤ adr then takeFault s k 0x05 t.r.pc
    else if repProtected s adr then takeFault s k 0x10 t.r.pc
    else
      let s1 := fetchLine s (k / 32) ((t.r.pc + 4).toNat / 64)
      if 8 ≤ t.posted.length then hold s1 k (.ninthSti x.1 (rD t.r r) succ) x.2
      else retireSti (sendSti s1 k adr (rD t.r r) t.r.pc) k x.2 succ) s

/-! ### MACX, CLMACX, BCRC (R180, R181, R185) -/

/-- Checks and reads of the X and Y words (R181, R202): privilege, alignment, bank, ECC. -/
def macRead (s : State) (p : Nat) (r : Regs) (ax ay : Nat) : Except W8 (W32 × W32) :=
  let x := (rA r ax).toNat
  let y := (rA r ay).toNat
  if exPriv s (p * 32) x false || exPriv s (p * 32) y false then .error 0x07
  else if x % 4 ≠ 0 ∨ y % 4 ≠ 0 then .error 0x04
  else if ax = ay ∨ 0x20000 ≤ x ∨ y < 0x20000 ∨ 0x40000 ≤ y then .error 0x03
  else match lmRead s true p x 4, lmRead s true p y 4 with
    | some bx, some bY => .ok (BitVec.ofNat 32 (leNat bx), BitVec.ofNat 32 (leNat bY))
    | _, _ => .error 0x06

/-- One MACX or CLMACX: the accumulator and both steps. -/
def macOne (s : State) (p : Nat) (f : W80 → W32 → W32 → W80) (ac ax ay : Nat) (xm ym : BitVec 2) (r : Regs) : KRes :=
  match macRead s p r ax ay with
  | .error c => .error c
  | .ok (x, y) => .ok (.ac ac (f (rAc r ac) x y) :: (macStep r ax xm ++ macStep r ay ym))

/-- The address of the first word in error of the two, for the event of R421. -/
def macBadAddr (s : State) (p : Nat) (r : Regs) (ax ay : Nat) : Nat :=
  if (lmRead s true p (rA r ax).toNat 4).isNone then (rA r ax).toNat else (rA r ay).toNat

/-- The fault of a word that reads local memory through ax and ay. -/
def macFault (s : State) (k g : Nat) (r : Regs) (ax ay : Nat) (c : W8) (pc : W48) : State :=
  if c = 0x06 then lmEccFault s k (k / 32) (macBadAddr s (k / 32) r ax ay) g pc else takeFault s k c pc

/-- A KE word that reads local memory through ax and ay: as `keReg`, with the event of an uncorrectable word. -/
def keMac (i : Instr) (g : Fin 2048) (ax ay : Nat) (f : State → Nat → Regs → KRes) (s : State) : Out :=
  let k := thrKey s g.val
  keIssue i g (fun s =>
    let r := (gThr s k).r
    match f s (k / 32) r with
    | .error c => macFault s k g r ax ay c r.pc
    | .ok ws => retire s k [] ws 1 (r.pc + 4)) s

/-- R180 MACX. -/
def execMacx (g : Fin 2048) (ac : Fin 2) (ax ay : Fin 8) (xm ym sg : BitVec 2) (neg : Bool) (s : State) : Out :=
  keMac (.macx g ac ax ay xm ym sg neg) g ax ay (fun s p r => macOne s p (fun c x y => macAcc c x y sg neg) ac ax ay xm ym r) s

/-- R180 CLMACX. -/
def execClmacx (g : Fin 2048) (ac : Fin 2) (ax ay : Fin 8) (xm ym : BitVec 2) (s : State) : Out :=
  keMac (.clmacx g ac ax ay xm ym) g ax ay (fun s p r => macOne s p clmacAcc ac ax ay xm ym r) s

/-- Registers that a BCRC writes in its last iteration (R185). -/
def crcWrites (c : CrcOp) : List RWr := [.ac c.ac (rAc c.r c.ac), .a c.ax (rA c.r c.ax), .a c.ay (rA c.r c.ay)]

/-- The last iteration of the long operation of thread k writes its destinations, and the next word follows (R132). -/
def longEnd (s : State) (k : Nat) (ws : List RWr) : State := retire s k [] ws 1 ((gThr s k).r.pc + 4)

/-- One iteration of a BCRC on its working copy, with `left` more to run: a fault of this iteration, the next state of the
operation, or its end (R185). -/
def crcStep (s : State) (k left : Nat) (c : CrcOp) : State :=
  match macOne s (k / 32) clmacAcc c.ac c.ax c.ay c.xm c.ym c.r with
  | .error f => macFault s k (gOf s k) c.r c.ax c.ay f (gThr s k).r.pc
  | .ok ws =>
    let c1 : CrcOp := { c with r := applyWrs c.r ws }
    if left = 0 then longEnd s k (crcWrites c1)
    else mThr s k fun t => { t with
      long := some { left := left, writes := [], crc := some c1 }, loaded := [], dbg := { t.dbg with bpPass := false } }

/-- R185 BCRC: D[dn] iterations of CLMACX, one in each slot of the thread from the one in which it issues. -/
def execBcrc (g : Fin 2048) (ac : Fin 2) (ax ay : Fin 8) (xm ym : BitVec 2) (dn : Fin 16) (s : State) : Out :=
  let k := thrKey s g.val
  keIssue (.bcrc g ac ax ay xm ym dn) g (fun s =>
    let r := (gThr s k).r
    let n := (rD r dn).toNat
    if n = 0 then (if ax = ay then takeFault s k 0x03 r.pc else retireNext s k [] [])
    else crcStep s k (n - 1) { ac := ac, ax := ax, ay := ay, xm := xm, ym := ym, r := r }) s

/-- One iteration of the long operation of thread k in a slot of the thread (R132). -/
def longStep (s : State) (k : Nat) : State :=
  match (gThr s k).long with
  | none => s
  | some x => match x.crc with
    | some c => crcStep s k (x.left - 1) c
    | none =>
      if x.left ≤ 1 then longEnd s k x.writes
      else mThr s k fun t => { t with long := some { x with left := x.left - 1 } }

/-- Thread k spends a slot that it owes: a dead slot, an iteration, or the dead slot before a word that reads a loaded value
(R130, R131). -/
def paySlot (s : State) (k : Nat) : State :=
  let s1 := takeSlot s (k / 32) (k % 32)
  if (gThr s k).owe ≠ 0 then mThr s1 k fun t => endStep { t with owe := t.owe - 1, ownFirst := false }
  else if (gThr s k).long.isSome then longStep s1 k
  else mThr s1 k fun t => { t with loaded := [], ownFirst := false }

/-! ### Atomics (R196, R386) -/

/-- The operation of a held ATOM goes to its unit; the held access keeps its number. -/
def sendAtom (s : State) (g k : Nat) : State :=
  match (gThr s k).held with
  | some { op := .atom fn a x y d _, writes := ws } =>
    let j := s.ms.nextJob
    let s1 := mThr (newJob s) k fun t => { t with held := some { op := .atom fn a x y d j, writes := ws } }
    auSend s1 { master := g, fn := fn, addr := a, x := x, y := y, job := j }
  | _ => s

/-- The atomic waits for the thread's posted accesses first (R386). -/
def atomWaits (fn : Nat) : Bool := decide (fn = 0 ∨ fn = 1 ∨ fn = 3)

/-- An ATOM word: register constraints, alignment, address range; then it holds the thread. -/
def atomForm (i : Instr) (fn : Nat) (bad : Bool) (x y : Regs → W64) (d : Nat) (g : Fin 2048) (a : Fin 8)
    (s : State) : Out :=
  let k := thrKey s g.val
  keIssue i g (fun s =>
    let r := (gThr s k).r
    let adr := rA r a
    let inRange := match spaceOf adr.toNat with
      | .ext _ => true
      | .wings _ => true
      | _ => false
    if bad then takeFault s k 0x01 r.pc
    else if adr.toNat % auSize fn ≠ 0 then takeFault s k 0x04 r.pc
    else if !inRange then takeFault s k 0x05 r.pc
    else
      let s1 := hold s k (.atom fn adr (x r) (y r) d 0) []
      if atomWaits fn && !(gThr s k).posted.isEmpty then s1 else sendAtom s1 g k) s

/-- R196 CASW. -/
def execCasw (g : Fin 2048) (a : Fin 8) (d t : Fin 16) (s : State) : Out :=
  atomForm (.casw g a d t) 0 false (fun r => dData r d) (fun r => dData r t) d g a s

/-- R196 CASD; d and t are even. -/
def execCasd (g : Fin 2048) (a : Fin 8) (d t : Fin 16) (s : State) : Out :=
  atomForm (.casd g a d t) 1 (!evenReg d || !evenReg t) (fun r => rPair r d) (fun r => rPair r t)
    d g a s

/-- R196, R413 ACQ; d and t are even. -/
def execAcq (g : Fin 2048) (a : Fin 8) (d t : Fin 16) (s : State) : Out :=
  atomForm (.acq g a d t) 2 (!evenReg d || !evenReg t) (fun _ => 0) (fun r => rPair r t) d g a s

/-- R196, R414 REL. -/
def execRel (g : Fin 2048) (a : Fin 8) (s : State) : Out := atomForm (.rel g a) 3 false (fun _ => 0) (fun _ => 0) 0 g a s

/-- R196, R417 LWATCH. -/
def execLwatch (g : Fin 2048) (a : Fin 8) (s : State) : Out := atomForm (.lwatch g a) 4 false (fun _ => 0) (fun _ => 0) 0 g a s

/-- R196, R417 LUNWATCH. -/
def execLunwatch (g : Fin 2048) (a : Fin 8) (s : State) : Out := atomForm (.lunwatch g a) 5 false (fun _ => 0) (fun _ => 0) 0 g a s

/-- The writes of an answered atomic (R196). -/
def atomWrites (fn d : Nat) (ans : AuAns) : List RWr :=
  match fn with
  | 0 => [.d d (ans.old.extractLsb' 0 32), .t ans.t]
  | 1 => wPair d ans.old ++ [.t ans.t]
  | 2 => wPair d ans.old ++ [.t ans.t]
  | 4 => [.t ans.t]
  | _ => []

/-! ### Pairs (R136, R137, R198–R202) -/

/-- A memory operation of a short operation. -/
structure SMem where
  store : Bool
  d     : Nat
  a     : Nat
  n     : Nat
  mode  : BitVec 2

/-- What a short operation is. -/
inductive SKind where
  | reg
  | mem (m : SMem)
  | mac (ac ax ay : Nat) (mode : BitVec 2) (f : W80 → W32 → W32 → W80)

def shortKind : ShortOp → SKind
  | .sldw d a m => .mem { store := false, d := d, a := a, n := 4, mode := m }
  | .sldhu d a m => .mem { store := false, d := d, a := a, n := 2, mode := m }
  | .sldbu d a m => .mem { store := false, d := d, a := a, n := 1, mode := m }
  | .sstw d a m => .mem { store := true, d := d, a := a, n := 4, mode := m }
  | .ssth d a m => .mem { store := true, d := d, a := a, n := 2, mode := m }
  | .sstb d a m => .mem { store := true, d := d, a := a, n := 1, mode := m }
  | .smacx ac ax ay m sg => .mac ac ax ay m fun c x y => macAcc c x y sg false
  | .sclmacx ac ax ay m => .mac ac ax ay m clmacAcc
  | _ => .reg

/-- Step of the address register of an SM format (R198). -/
def smStep (r : Regs) (m : SMem) : List RWr :=
  match m.mode.toNat with
  | 0 => []
  | 1 => [.a m.a (rA r m.a + BitVec.ofNat 48 m.n)]
  | 2 => [.a m.a (stepMod r m.a (BitVec.ofNat 48 m.n))]
  | _ => [.a m.a (stepMod r m.a (-(BitVec.ofNat 48 m.n)))]

/-- Writes of a short operation that reads registers only (R199). -/
def shortWrites (r : Regs) : ShortOp → List RWr
  | .sadd d s t => [.d d (rD r s + rD r t)]
  | .ssub d s t => [.d d (rD r s - rD r t)]
  | .sand d s t => [.d d (rD r s &&& rD r t)]
  | .sor d s t => [.d d (rD r s ||| rD r t)]
  | .sxor d s t => [.d d (rD r s ^^^ rD r t)]
  | .smov d s => [.d d (rD r s)]
  | .snot d s => [.d d (~~~ rD r s)]
  | .sneg d s => [.d d (-(rD r s))]
  | .sselt d s t => [.d d (if r.fl.t then rD r s else rD r t)]
  | .scmp s t => [(subA (rD r s) (rD r t) false).2]
  | .steq s t => [.t (decide (rD r s = rD r t))]
  | .stlt s t => [.t ((rD r s).slt (rD r t))]
  | .saddi d i => [.d d (rD r d + i.signExtend 32)]
  | .smovi d i => [.d d (i.signExtend 32)]
  | .sshli d i => [.d d (rD r d <<< i.toNat)]
  | .sshri d i => [.d d (rD r d >>> i.toNat)]
  | .ssari d i => [.d d ((rD r d).sshiftRight i.toNat)]
  | .saadd a s => [.a a (rA r a + (rD r s).signExtend 48)]
  | .saaddi a i => [.a a (rA r a + i.signExtend 48)]
  | _ => []

/-- Destination classes of R200. -/
inductive SDest where
  | d (n : Nat)
  | a (n : Nat)
  | ac (n : Nat)
  | znvc
  | t
  deriving DecidableEq

def destOf : RWr → SDest
  | .d n _ => .d n
  | .a n _ => .a n
  | .ac n _ => .ac n
  | .znvc _ _ _ _ => .znvc
  | .v _ => .znvc
  | .t _ => .t

/-- Destinations of a short operation (R200). -/
def shortDests (r : Regs) (o : ShortOp) : List SDest :=
  match shortKind o with
  | .reg => (shortWrites r o).map destOf
  | .mem m => (if m.store then [] else [.d m.d]) ++ (smStep r m).map destOf
  | .mac ac ax ay mode _ => .ac ac :: (macStep r ax mode ++ macStep r ay mode).map destOf

/-- Memory addresses of a short operation with their sizes. -/
def shortAddrs (r : Regs) (o : ShortOp) : List (Nat × Nat × Bool) :=
  match shortKind o with
  | .reg => []
  | .mem m => [((rA r m.a).toNat, m.n, m.store)]
  | .mac _ ax ay _ _ => [((rA r ax).toNat, 4, false), ((rA r ay).toNat, 4, false)]

/-- X bank 0, Y bank 1, elsewhere 2. -/
def bankOf (a : Nat) : Nat := if a < 0x20000 then 0 else if a < 0x40000 then 1 else 2

def isMac (o : ShortOp) : Bool :=
  match shortKind o with
  | .mac _ _ _ _ _ => true
  | _ => false

/-- The bank rules of R136, R181 and R201. -/
def bankBad (r : Regs) (oa ob : ShortOp) : Bool :=
  let ma := shortAddrs r oa
  let mb := shortAddrs r ob
  let mac (o : ShortOp) : Bool := match shortKind o with
    | .mac _ ax ay _ _ => decide (ax = ay) || decide (bankOf (rA r ax).toNat ≠ 0) || decide (bankOf (rA r ay).toNat ≠ 1)
    | _ => false
  mac oa || mac ob || ((isMac oa || isMac ob) && !ma.isEmpty && !mb.isEmpty) ||
    match ma, mb with
    | [x], [y] => decide (¬ ((bankOf x.1 = 0 ∧ bankOf y.1 = 1) ∨ (bankOf x.1 = 1 ∧ bankOf y.1 = 0)))
    | _, _ => false

/-- First fault of a pair in DE and EX, in the order of R202. -/
def pairFault (s : State) (k : Nat) (r : Regs) (oa ob : ShortOp) : Option W8 :=
  let ms := shortAddrs r oa ++ shortAddrs r ob
  if !oa.wellFormed || !ob.wellFormed then some 0x01
  else if (shortDests r oa).any fun d => (shortDests r ob).contains d then some 0x02
  else if ms.any fun m => exPriv s k m.1 m.2.2 then some 0x07
  else if ms.any fun m => decide (m.1 % m.2.1 ≠ 0) then some 0x04
  else if bankBad r oa ob then some 0x03
  else if ms.any fun m => exDecode m.1 m.2.1 then some 0x05
  else none

/-- Writes of a short operation whose memory, if it has any, is the engine's own; none: an uncorrectable word, at the
address given. -/
def shortOwn (s : State) (p : Nat) (r : Regs) (o : ShortOp) : Except Nat (List RWr) :=
  match shortKind o with
  | .reg => .ok (shortWrites r o)
  | .mem m =>
    let a := (rA r m.a).toNat
    if m.store then .ok (smStep r m)
    else match lmRead s true p a m.n with
      | some bs => .ok (smStep r m ++ loadWrites (.dZx m.d) m.n bs)
      | none => .error a
  | .mac ac ax ay mode f => match macOne s p f ac ax ay mode mode r with
    | .ok ws => .ok ws
    | .error _ => .error (macBadAddr s p r ax ay)

/-- The store of a short operation into the engine's own local memory. -/
def shortStore (s : State) (p : Nat) (r : Regs) (o : ShortOp) : State :=
  match shortKind o with
  | .mem m => if m.store then lmWrite s true p (rA r m.a).toNat (leBytes m.n (rD r m.d).toNat) else s
  | _ => s

/-- Registers that a short operation loads in the pipeline. -/
def shortLoads (o : ShortOp) : List LReg :=
  match shortKind o with
  | .mem m => if m.store then [] else [.d m.d]
  | _ => []

/-- The memory operation of a pair that leaves the engine's own local memory, if any. -/
def farMem (r : Regs) (o : ShortOp) : Option SMem :=
  match shortKind o with
  | .mem m => if spaceOf (rA r m.a).toNat = .own then none else some m
  | _ => none

/-- R136 PAIR: both halves read the registers as they stand before the word and write together. -/
def execPair (g : Fin 2048) (a b : ShortOp) (s : State) : Out :=
  let k := thrKey s g.val
  keIssue (.pair g a b) g (fun s =>
    let r := (gThr s k).r
    let p := k / 32
    let far (m : SMem) (other : ShortOp) : State :=
      let ws := shortWrites r other ++ smStep r m
      let adr := (rA r m.a).toNat
      if m.store then issueStore s g k adr m.n (dData r m.d) ws
      else issueLoad s g k adr m.n (.dZx m.d) ws
    match pairFault s k r a b with
    | some c => takeFault s k c r.pc
    | none => match farMem r a, farMem r b with
      | some m, _ => far m b
      | none, some m => far m a
      | none, none => match shortOwn s p r a, shortOwn s p r b with
        | .ok wa, .ok wb =>
          retireNext (shortStore (shortStore s p r a) p r b) k (shortLoads a ++ shortLoads b) (wa ++ wb)
        | .error x, _ => lmEccFault s k p x g r.pc
        | _, .error x => lmEccFault s k p x g r.pc) s

end Sys2Proof.Machine
end

