-- ==== Sys2Proof/Machine/Threads.lean ====
section
/-! DEFINITION. The bill, instruction fetch, events, waits, the watchdog and restart (spec/04 R118–R151, spec/06
R203–R223). -/

namespace Sys2Proof.Machine

/-- Logical engine e is mapped and its physical engine is on. -/
def engUp (s : State) (e : Nat) : Bool := up s && isMapped s e && peOn s (physOf s e)

/-- The same for the engine of logical thread g, of a block that is not frozen (R461). -/
def thrUp (s : State) (g : Nat) : Bool := engUp s (g / 32) && !s.mg.sm.frozen

/-! ### The bill (R118, R122–R124) -/

/-- A write of 1 to BILL_CTL.COMMIT (R122, R129). -/
def commitSet (s : State) (p : Nat) : State :=
  mEng s p fun e => { e with
    commitEc := true
    commit := match e.commit with
      | some l => some l
      | none => some (s.ec / 64 + if s.ec % 64 ≤ 62 then 1 else 2) }

/-- COMMIT after a switch or a refusal: a write of 1 in the same ec keeps it, for the next lap (R13, R122). -/
def commitLeft (s : State) (e : Eng) : Option Nat := if e.commitEc then some (s.ec / 64 + 1) else none

/-- R122 COMMIT. -/
def execCommit (e : Fin 64) (s : State) : Out :=
  act (engUp s e.val) (fun s => commitSet s (physOf s e.val)) s

/-- One thread is named at two adjacent positions; 63 and 0 are adjacent (R118). -/
def billAdjacent (tab : Tab (Option W8)) : Bool :=
  (List.range 64).any fun n => (posThread tab n).isSome && decide (posThread tab n = posThread tab ((n + 1) % 64))

/-- T0 owns no position. -/
def billNoT0 (tab : Tab (Option W8)) : Bool := (List.range 64).all fun n => decide (posThread tab n ≠ some 0)

/-- The switch is refused with the reason `why` (R123). -/
def billRefuse (s : State) (e p : Nat) (why : BitVec 2) : State :=
  logEv (mEng s p fun x => { x with commit := commitLeft s x, reject := true, rejWhy := why }) 0x6010 [e, why.toNat]

/-- R122, R123 BILL_SWITCH, in the ec of position 0: shadow writes of the same ec are no part of it. -/
def execBillSwitch (e : Fin 64) (s : State) : Out :=
  let p := physOf s e.val
  let due := match (gEng s p).commit with
    | some l => decide (l ≤ s.ec / 64)
    | none => false
  act (engUp s e.val && decide (s.ec % 64 = 0) && due) (fun s =>
    let (tab, mode) := (gEng s p).shdWas.getD ((gEng s p).shd, (gEng s p).mode)
    if billAdjacent tab then billRefuse s e p 1
    else if billNoT0 tab then billRefuse s e p 2
    else mEng s p fun x => { x with live := tab, modeLive := mode, commit := commitLeft s x }) s

/-! ### Instruction fetch (R138–R142, R152, R160, R161) -/

/-- The address whose word thread k's next slot needs and does not find, or may not fetch: its own, or for an STI that of its
successor (R139, R141, R143). -/
def missAt (s : State) (k : Nat) : Option Nat :=
  let t := gThr s k
  let lacks (a : Nat) : Bool := !mayFetch s k a || (wordIn s (k / 32) a).isNone
  if t.succ.isNone && lacks t.r.pc.toNat then some t.r.pc.toNat
  else match nextWord s k with
    | some w => if isStiWord w && lacks (t.r.pc + 4).toNat then some (t.r.pc + 4).toNat else none
    | none => none

/-- Fault of a fetch from address a by thread k (R141, R161, R202). -/
def fetchFault (s : State) (k a : Nat) : Option W8 :=
  if !fetchable a then some 0x05
  else if isFixed (gEng s (k / 32)) (k % 32) && !linePinned s (k / 32) (a / 64) then some 0x0A
  else none

/-- The way of engine p's cache array that holds the line with an uncorrectable error (R152). -/
def badLine (s : State) (p line : Nat) : Option IcLine :=
  (tget [] (gIc s p).sets (line % 128)).find? fun l => decide (l.line = line) && decide (l.ecc = 2)

/-- A fill unit starts on a request. A fill from the repertory store makes its line present 24 ec later (R139); one from
external memory asks its port (R384). -/
def fillStart (s : State) (p : Nat) (r : FillReq) : State :=
  if r.line * 64 < 0x1000000 then
    mIc s p fun c => { c with fills := c.fills ++ [{
      line := r.line, waiters := r.waiters, pin := r.pin, job := none, due := s.ec + 24 }] }
  else
    let j := s.ms.nextJob
    let s1 := mIc (newJob s) p fun c => { c with fills := c.fills ++ [{
      line := r.line, waiters := r.waiters, pin := r.pin, job := some j, due := 0 }] }
    mpRead s1 (r.line * 64 - extBase) 64 r.src (if r.pin then 3 else 1) j

/-- A fill is asked for: it joins the one of the same line that is in flight or waits, starts, or waits for a unit (R140). -/
def fillRequest (s : State) (p : Nat) (r : FillReq) : State :=
  if (gIc s p).fills.any fun f => decide (f.line = r.line) then
    mIc s p fun c => { c with fills := c.fills.map fun f =>
      if f.line = r.line then { f with waiters := f.waiters ++ r.waiters, pin := f.pin || r.pin } else f }
  else if (gIc s p).fillWait.any fun f => decide (f.line = r.line) then
    mIc s p fun c => { c with fillWait := c.fillWait.map fun f =>
      if f.line = r.line then { f with waiters := f.waiters ++ r.waiters, pin := f.pin || r.pin } else f }
  else if (gIc s p).fills.length < 4 then fillStart s p r
  else mIc s p fun c => { c with fillWait := c.fillWait ++ [r] }

/-- Thread k is parked on the line (R139). -/
def parkOn (s : State) (k line : Nat) : State :=
  fillRequest (mThr s k fun t => { t with park := some line, loaded := [] }) (k / 32) {
    line := line, waiters := [k % 32], pin := false, src := srcId 1 (gOf s k) }

/-- A line with an uncorrectable error is found: it is invalidated and logged, and a pinned one is fetched again (R152). -/
def lineLost (s : State) (p : Nat) (l : IcLine) : State :=
  let s1 := mIc s p fun c => { c with
    sets := tset [] c.sets (l.line % 128) ((tget [] c.sets (l.line % 128)).filter fun x => decide (x.line ≠ l.line)) }
  let s2 := logEv s1 0x6021 [p, l.line % 128, l.way, b2n l.pinned]
  if l.pinned then fillRequest s2 p { line := l.line, waiters := [], pin := true, src := srcId 0 0x900 } else s2

/-- The fetch unit checks thread k in the present ec (R139): a FIXED thread at its own positions, an ELASTIC one whenever it
meets every other condition of R120. -/
def missDue (s : State) (k : Nat) : Bool :=
  wakeful s k && decide ((gThr s k).owe = 0) && (gThr s k).long.isNone &&
    (!isFixed (gEng s (k / 32)) (k % 32) || decide (posThread (gEng s (k / 32)).live (s.ec % 64) = some (k % 32)))

/-- R139, R141, R152, R161 FETCH_MISS. -/
def execFetchMiss (g : Fin 2048) (s : State) : Out :=
  let k := thrKey s g.val
  act (engRuns s g.val && missDue s k) (fun s =>
    match missAt s k with
    | none => s
    | some a => match fetchFault s k a with
      | some c => takeFault s k c (gThr s k).r.pc
      | none => match badLine s (k / 32) (a / 64) with
        | some l => takeFault (lineLost s (k / 32) l) k 0x06 (gThr s k).r.pc
        | none => parkOn s k (a / 64)) s

/-- A free way of a set. -/
def freeWay (ways : List IcLine) : Option Nat := (List.range 4).find? fun w => ways.all fun l => decide (l.way ≠ w)

/-- A line enters its set: in its own way when it is there, in a free way, or in place of the least recently used unpinned one
(R140). A pinned line stays pinned (R142). -/
def setInsert (l : IcLine) (ways : List IcLine) : List IcLine :=
  match ways.find? fun x => decide (x.line = l.line) with
  | some x => { l with way := x.way, pinned := l.pinned || x.pinned } :: ways.filter fun x => decide (x.line ≠ l.line)
  | none => match freeWay ways with
    | some w => { l with way := w } :: ways
    | none => match ways.reverse.find? fun x => !x.pinned with
      | some x => { l with way := x.way } :: ways.filter fun y => decide (y.line ≠ x.line)
      | none => ways

def icInsert (s : State) (p : Nat) (l : IcLine) : State :=
  mIc s p fun c => { c with
    sets := tset [] c.sets (l.line % 128) (setInsert l (tget [] c.sets (l.line % 128))) }

/-- The words of a line from its bytes. -/
def lineWords (bs : List W8) : Tab W32 :=
  foldNat (fun t i => tset 0 t i (BitVec.ofNat 32 (leNat ((bs.drop (4 * i)).take 4)))) [] (List.range 16)

/-- A waiter of a fill is ready from the next ec, or takes its fault (R139, R140). -/
def wakeFill (p line : Nat) (fault : Option W8) (s : State) (t : Nat) : State :=
  let k := p * 32 + t
  if (gThr s k).park = some line then
    match fault with
    | none => mThr s k fun t => { t with park := none, readyAt := s.ec + 1 }
    | some c => takeFault s k c (gThr s k).r.pc
  else s

/-- Fills that wait start as units come free, in the order in which they were asked for (DESIGN CHOICE log 19). The fuel is
their number. -/
def fillNext (p : Nat) : Nat → State → State
  | 0, s => s
  | n + 1, s => match (gIc s p).fillWait with
    | [] => s
    | r :: rest =>
      if 4 ≤ (gIc s p).fills.length then s
      else fillNext p n (fillStart (mIc s p fun c => { c with fillWait := rest }) p r)

/-- The fill ends with the line's bytes or with a fault. -/
def fillEnd (s : State) (p : Nat) (f : Fill) (r : Except W8 (List W8)) : State :=
  let s1 := mIc s p fun c => { c with fills := c.fills.filter fun x => decide (x.line ≠ f.line) }
  let s2 := match r with
    | .ok bs => icInsert s1 p { line := f.line, pinned := f.pin, words := lineWords bs, way := 0, ecc := 0 }
    | .error _ => s1
  let s3 := f.waiters.foldl (wakeFill p f.line (match r with | .ok _ => none | .error c => some c)) s2
  fillNext p (gIc s3 p).fillWait.length s3

/-- R139, R140, R391, R421 FILL_DONE: of a fill from the repertory store 24 ec after it started; of one from external memory when
its request has been answered. -/
def execFillDone (p : Fin 68) (line : W48) (s : State) : Out :=
  match (gIc s p.val).fills.find? fun f => decide (f.line = line.toNat) with
  | none => .next s
  | some f => match f.job with
    | none => act (up s && peOn s p.val && decide (f.due ≤ s.ec)) (fun s =>
        let a := f.line * 64
        match s.ram.repBad.find? fun w => decide (a ≤ w * 8 ∧ w * 8 < a + 64) with
        | some w => fillEnd (logEv s 0x2422 [w * 8]) p.val f (.error 0x06)
        | none => fillEnd s p.val f (.ok (mread s.ram.rep a 64))) s
    | some j => act (up s && peOn s p.val && jobDone s j) (fun s =>
        let ans := jobAns s j
        fillEnd (takeJob s j) p.val f (match stFault (worst ans) with
          | none => .ok (jobData ans)
          | some c => .error c)) s

/-- The thread's STIs have all reached every cache array, so a held SYNCI goes on (R144). -/
def synciGo (s : State) (k : Nat) : State :=
  match (gThr s k).held with
  | some { op := .synci, writes := _ } =>
    if (gThr s k).posted.any fun p => p.sti.isSome then s else synciDone s k
  | _ => s

/-- The first posted STI no longer has arrays to reach. -/
def stiReached : List Posted → List Posted
  | [] => []
  | p :: t => if p.sti.isSome then { p with sti := none } :: t else p :: stiReached t

/-- R143 STI_CACHE_UPDATE: the oldest STI of the thread reaches the repertory store and every cache array with its line. -/
def execStiCacheUpdate (g : Fin 2048) (s : State) : Out :=
  let k := thrKey s g.val
  match (gThr s k).posted.findSome? Posted.sti with
  | none => .next s
  | some (a, w) => act (thrUp s g.val) (fun s =>
      let s1 := (s.en.ic.map Prod.fst).foldl (fun acc p => icStore acc p a.toNat w)
        (repWrite s a.toNat (leBytes 4 w.toNat))
      synciGo (mThr s1 k fun t => { t with posted := stiReached t.posted }) k) s

/-! ### Events, waits, watchdog, restart (R146, R203, R207, R212, R213, R216–R223) -/

/-- The end of the present ec for thread k: a pending enabled source is recognized, and its entry begins in the next ec (R146,
R216). -/
def recognize (s : State) (k : Nat) : State :=
  if (gThr s k).entering.isNone && isMapped s (gOf s k / 32) then
    match recognized s k with
    | some bit => mThr s k fun t => { t with entering := some bit }
    | none => s
  else s

/-- R146, R216–R222 EVENT_ENTRY, in the first ec of entry. The fetch from the vector that follows takes the faults of
FETCH_MISS: 0x05 where it is unmapped, 0x0A where a FIXED thread's line is not pinned (R161, R202). -/
def execEventEntry (g : Fin 2048) (s : State) : Out :=
  let k := thrKey s g.val
  match (gThr s k).entering with
  | none => .next s
  | some bit => act (thrUp s g.val && (decide ((gThr s k).st = .run) || decide ((gThr s k).st = .wait))) (fun s =>
      enterEvent s k bit) s

/-- R22, R203 THREAD_WAKE. -/
def execThreadWake (g : Fin 2048) (s : State) : Out :=
  let k := thrKey s g.val
  let t := gThr s k
  act (thrUp s g.val && decide (t.st = .wait) && decide (t.waitK = some .waitt) &&
      decide (t.r.wake.toNat ≤ s.tb.now.toNat)) (fun s => mThr s k fun t => { wakeNext t with ownFirst := true }) s

/-- R213 THREAD_WATCHDOG, in the ec of position 0. -/
def execThreadWatchdog (g : Fin 2048) (s : State) : Out :=
  let k := thrKey s g.val
  let t := gThr s k
  act (thrUp s g.val && decide (s.ec % 64 = 0) && decide (t.st = .run) && decide (t.wdLimit ≠ 0) &&
      decide (t.wdLimit.toNat ≤ t.wdCount.toNat)) (fun s => takeFault s k 0x0E t.r.pc) s

/-- RESTART with its DROPEV bit (R207, R212, R213, R498). A halt that was requested in FAULTED takes effect before the first word,
wherever the thread stands in its messages (R205). -/
def restartThr (s : State) (k : Nat) (dropev : Bool) : State :=
  if (gThr s k).st = .faulted then
    let s1 := leaveHalt (mThr s k fun t => { t with
      fcode := 0, wdCount := 0, save := if dropev then none else t.save }) k
    if (gThr s1 k).dbg.pending && decide ((gThr s1 k).st ≠ .faulted) then haltTake s1 k 1 else s1
  else s

/-- Threads do not write a prompter's THR_CTL or THR_PC (R170, R211). -/
def mayRestart (s : State) (who : Requester) (g : Nat) : Bool :=
  mayWritePage s who && match who with
    | .thread _ => decide (g % 32 ≠ 0)
    | _ => true

/-- R207 RESTART. -/
def execRestart (who : Requester) (g : Fin 2048) (dropev : Bool) (s : State) : Out :=
  act (engUp s (g.val / 32) && mayRestart s who g.val) (fun s => restartThr s (thrKey s g.val) dropev) s

/-- THR_EV as it is written (R223). -/
def thrEvPut (s : State) (k : Nat) (d : W64) : State :=
  mThr s k fun t => { t with evEn := d.extractLsb' 0 16, evPin := d.extractLsb' 32 8, evDma := d.extractLsb' 40 6 }

/-- R223 THR_EV_WRITE. -/
def execThrEvWrite (who : Requester) (g : Fin 2048) (data : W64) (s : State) : Out :=
  act (engUp s (g.val / 32) && mayWritePage s who) (fun s => thrEvPut s (thrKey s g.val) data) s

end Sys2Proof.Machine
end

