-- ==== Sys2Proof/Machine/EnginePower.lean ====
section
/-! DEFINITION. Engine reset, engine power and the mapping table (spec/03 R97, R101, R106, R112). -/

namespace Sys2Proof.Machine

/-- Entries of a table whose key lies in [a, a+n) go. -/
def tclr {α : Type} (t : Tab α) (a n : Nat) : Tab α := t.filter fun e => !decide (a ≤ e.1 ∧ e.1 < a + n)

/-! ### Engine reset (R91, R97) -/

/-- The physical engine's contexts, control page and caches at their reset values (R91). -/
def engineClear (s : State) (p : Nat) : State :=
  mEng { s with en := { s.en with thr := tclr s.en.thr (p * 32) 32, eng := tclr s.en.eng p 1, ic := tclr s.en.ic p 1 } } p
    fun e => { e with lapAt := lapCount s }

/-- Endpoint of logical engine e. -/
def epOfEng (e a : Nat) : Bool := decide (a / 128 = e)

/-- The routes of endpoint ep of the engine are aborted: the abort travels to the receiver of its outgoing route behind the words that
the engine has sent (cause 3), and to the senders of the routes that it holds or has waiting (cause 4) (R97, R226, R228, R235). -/
def epAbort (s : State) (ep : Nat) : State :=
  let c := gCe s ep
  let s1 := if txHeld c then cbSend s (.abortRx 3) ep c.txPeer c.route else s
  let s2 := if c.rxBusy then cbSend s1 (.abortTx 4) ep c.rxPeer c.rxRoute else s1
  c.waiting.foldl (fun acc w => cbSend acc (.abortTx 4) ep w.1 w.2) s2

/-- An OPEN request still on its way to the engine is aborted as one that waits there (R97). -/
def openAbort (s : State) (m : CbMsg) : State :=
  match m.kind with
  | .opn => cbSend s (.abortTx 4) m.dst m.src m.route
  | _ => s

/-- Every route to or from logical engine e is aborted, what is on its way to the engine is lost, and the engine's own endpoints are
cleared; the numbers of their routes go on (log 13). -/
def routesAbort (s : State) (e : Nat) : State :=
  let gone := s.en.cb.fly.filter fun m => epOfEng e m.dst
  let s1 := mCb s fun c => { c with fly := c.fly.filter fun m => !epOfEng e m.dst }
  let eps := (s.en.ce.map Prod.fst).filter (epOfEng e)
  let s2 := gone.foldl openAbort (eps.foldl epAbort s1)
  let s3 := mCb s2 fun c => { c with fly := c.fly.filter fun m => !epOfEng e m.dst }
  eps.foldl (fun acc ep => mCe acc ep fun c => { route := c.route }) s3

/-- A packet that a thread of logical engine e holds is dropped and its buffers are freed (R97, R353). -/
def dropHeld (e : Nat) (s : State) (x : Nat × Option Pkt) : State :=
  match x.2 with
  | some k => match k.st with
    | .held g => if g / 32 = e then dropEntry s x.1 { k with st := .window } else s
    | _ => s
  | none => s

/-- The buffers of a packet that was force-dropped while a thread of the engine held it are freed (R353). -/
def freeOrphan (e : Nat) (s : State) (x : Nat × Pkt) : State :=
  if x.1 / 32 = e then boxRun (freeBufs s x.2.handle x.2.len x.2.pool x.2.chain x.2.chidx) else s

/-- A handle that a thread of the engine holds is freed (R363). -/
def freeHeld (e : Nat) (s : State) (x : Held362) : State :=
  if x.master / 32 = e ∧ !x.returning then (boxFree s x.master x.handle).getD s else s

/-- Packets in the dispatch queue of physical engine p wait in the window again (R97). -/
def unqueueAll (s : State) (p : Nat) : State :=
  mUsh s fun u => { u with win := u.win.map fun x => (x.1, x.2.map fun k =>
    if k.st = .queued p then { k with st := .window } else k) }

/-- The reset of physical engine p outside ENGINE_SWING (R97); e is the logical engine that runs on it, if any. Its timers' open
overflow episodes are logged (R268). -/
def engineReset (s0 : State) (p : Nat) : State :=
  let s := (tmrOvrs s0 p).foldl (fun acc e => logEv acc e.1 e.2) s0
  match logicalOf s p with
  | none => engineClear s p
  | some e =>
    let s1 := foldNat (fun acc t => abandon acc (p * 32 + t)) s (List.range 32)
    let s2 := unqueueAll (routesAbort (engineClear s1 p) e) p
    let s3 := s2.tr.ush.win.foldl (dropHeld e) s2
    let s4 := mUsh (s3.tr.ush.orphans.foldl (freeOrphan e) s3) fun u => { u with
      orphans := u.orphans.filter fun o => decide (o.1 / 32 ≠ e) }
    let s5 := s4.tr.box.held.foldl (freeHeld e) s4
    let s6 := { s5 with mv := { s5.mv with
      au := tmap {} (fun a => { a with watches := a.watches.filter fun w => decide (w.2 / 32 ≠ e) }) s5.mv.au } }
    auWalk s6 fun o => decide (o / 32 = e)

/-! ### Mapping (R29, R106, R112) -/

/-- The engine works: neither failed nor retired. -/
def peWorks (s : State) (p : Nat) : Bool := !(gPe s p).failed && !s.mg.sm.retired.contains p

/-- Physical engine p is mapped. -/
def peMapped (s : State) (p : Nat) : Bool := (logicalOf s p).isSome

/-- Swing engines: working engines that are OFF and not mapped. -/
def swingEngines (s : State) : List Nat :=
  (List.range 68).filter fun p => peWorks s p && !peMapped s p && decide ((gPe s p).st = .off)

/-- BLK_STAT.SWING_FREE and DEGRADED follow the mapping table (R112). -/
def mapStat (s : State) : State :=
  mBlk s fun b => { b with
    swingFree := BitVec.ofNat 3 (min 4 (swingEngines s).length)
    degraded := decide (((List.range 64).filter fun e => isMapped s e).length < 64) }

/-- Logical engine e runs on physical engine p. -/
def mapEng (s : State) (e p : Nat) : State := { s with en := { s.en with emap := tset 0x7F s.en.emap e p } }

/-- Lowest unmapped logical engine. -/
def lowestUnmapped (s : State) : Option Nat := (List.range 64).find? fun e => !isMapped s e

/-! ### Power states (R101) -/

def powerDown (s : State) (p : Nat) : State := mapStat (mPe s p fun x => { x with st := .off, goal := .none, bistReq := false })

/-- A power-up request. -/
def powerUp (s : State) (p : Nat) (bist : Bool) (goal : PeGoal) : State :=
  mapStat (mPe s p fun x => { x with st := .ramp, bistReq := bist, goal := goal, failed := false })

/-- Local memory of engine p is zeroed. -/
def lmZero (s : State) (p : Nat) : State :=
  mRam s fun r => { r with
    lm := tclr r.lm (p * 0x40000) 0x40000
    lmBad := r.lmBad.filter fun w => !decide (p * 0x8000 ≤ w ∧ w < p * 0x8000 + 0x8000) }

/-- The clamps are released; what the power-up was for follows (R443). An engine that is to be a swing engine is powered off
again. -/
def peReady (s : State) (p : Nat) : State :=
  let s1 := mPe s p fun x => { x with st := .on, bistReq := false }
  match (gPe s p).goal with
  | .map => match lowestUnmapped s with
    | some e => mapStat (mPe (mapEng s1 e p) p fun x => { x with goal := .none })
    | none => powerDown s1 p
  | .spare => powerDown s1 p
  | _ => s1

/-- The engine has failed: OFF. -/
def peFail (s : State) (p : Nat) : State :=
  mapStat (mPe s p fun x => { x with st := .off, failed := true, bistReq := false })

/-- R101 ENGINE_RAMP_DONE: INIT, in engine reset, with local memory zeroed. -/
def execEngineRampDone (p : Fin 68) (s : State) : Out :=
  act (up s && decide ((gPe s p.val).st = .ramp)) (fun s =>
    mPe (lmZero (engineClear s p.val) p.val) p.val fun x => { x with st := .init }) s

/-- R101 ENGINE_RAMP_TIMEOUT. -/
def execEngineRampTimeout (p : Fin 68) (s : State) : Out :=
  act (up s && decide ((gPe s p.val).st = .ramp)) (fun s => logEv (peFail s p.val) 0x1020 [p.val]) s

/-- R101 ENGINE_ZEROING_DONE. -/
def execEngineZeroingDone (p : Fin 68) (s : State) : Out :=
  act (up s && decide ((gPe s p.val).st = .init)) (fun s =>
    if (gPe s p.val).bistReq then mPe s p.val fun x => { x with st := .bist } else peReady s p.val) s

/-- BIST has ended. In service no logical engine waits for the engine, so a failure is event 0x1022 with no logical engine. -/
def bistEnd (s : State) (p : Nat) (pass : Bool) : State :=
  if pass then peReady s p else logEv (peFail s p) 0x1022 [p, 0x7F]

/-- R101 ENGINE_BIST_DONE. -/
def execEngineBistDone (p : Fin 68) (pass : Bool) (s : State) : Out :=
  act (up s && decide ((gPe s p.val).st = .bist)) (fun s => bistEnd s p.val pass) s

/-! ### Mapping at start-up (R102, R106) -/

/-- A place of the list takes a value. -/
def putAt (l : List (Option Nat)) (i : Nat) (v : Option Nat) : List (Option Nat) := setAt l i v

/-- Swing engines stand in for failed engines, lowest first. -/
def swingIn (l : List (Option Nat) × List Nat) (i : Nat) : List (Option Nat) × List Nat :=
  match l.1.getD i none, l.2 with
  | none, p :: ps => (putAt l.1 i (some p), ps)
  | _, _ => l

/-- A logical engine that is still without takes the engine of the highest mapped one above it. -/
def closeGap (l : List (Option Nat)) (i : Nat) : List (Option Nat) :=
  match l.getD i none with
  | some _ => l
  | none => match (List.range 64).reverse.find? fun j => decide (i < j) && (l.getD j none).isSome with
    | some j => putAt (putAt l i (l.getD j none)) j none
    | none => l

/-- Physical engine of each logical engine: its own number while that engine works (R106). -/
def mapBoot (ok : Nat → Bool) : List (Option Nat) :=
  let own := (List.range 64).map fun p => if ok p then some p else none
  let l := (List.range 64).foldl swingIn (own, (List.range 4).map (fun i => 64 + i) |>.filter ok)
  (List.range 64).foldl closeGap l.1

end Sys2Proof.Machine
end

