-- ==== Sys2Proof/Machine/Images.lean ====
section
/-! DEFINITION. Signed images, and loading a repertory: code, pinned lines, bills, threads and bank programs (spec/12 R449,
R450, R453, R454, R500, spec/04 R142). -/

namespace Sys2Proof.Machine

/-! ### Verification (R449) -/

/-- A section as numbers, for the digest. -/
def secWords : Section → List Nat
  | .code a ws => [1, a.toNat, ws.length] ++ ws.map BitVec.toNat
  | .thread t => [2, t.g.val, t.pc.toNat, t.cfg.toNat, t.vbase.toNat, t.ev.toNat, b2n t.fixed, t.pinned.length] ++
      t.pinned.map BitVec.toNat
  | .bill e ws m => [3, e.val, ws.length] ++ ws.map BitVec.toNat ++ [m.toNat]
  | .kpprog b e st ws => [4, b.val, e.toNat, b2n st, ws.length] ++ ws.map BitVec.toNat
  | .cptmap g ps => [5, g.val, ps.length] ++ (ps.map fun p => [p.1.toNat, p.2.toNat]).flatten

/-- SHA-384 of an image with its signature taken as 0 (R449). -/
def imgDigest (i : Image) : BitVec 384 :=
  Config.sha384Words ([i.kind.toNat, i.format.toNat, i.len, i.version.toNat, i.secver.toNat, i.keyslot.toNat, b2n i.reserved,
    i.pubkey.toNat] ++ (i.sections.map secWords).flatten)

/-- Key slot k is programmed with the digest of the key (R449, R473). -/
def keyMatches (s : State) (k : Nat) (pubkey : BitVec 776) : Bool :=
  match s.aon.keys[k]? with
  | some x => x.used && !x.bad && decide (x.digest = Config.sha384Key pubkey)
  | none => false

/-- Why an image is not accepted: the event and its data; none: it is accepted (R449). -/
def imgRefused (s : State) (kind : W16) (secMin : W32) (i : Image) : Option (W16 × List Nat) :=
  if i.kind ≠ kind then some (0x8001, [i.kind.toNat, i.keyslot.toNat])
  else if !keyMatches s i.keyslot.toNat i.pubkey then some (0x8002, [i.kind.toNat, i.keyslot.toNat])
  else if !Config.ecdsaOk i.pubkey (imgDigest i) i.sig then some (0x8001, [i.kind.toNat, i.keyslot.toNat])
  else if i.secver.toNat < secMin.toNat then some (0x8003, [i.kind.toNat, i.secver.toNat, secMin.toNat])
  else none

/-- Journaled SECVER_MIN. -/
def secverMin (s : State) : W32 := (journal s).secver.getD 0

/-- SECVER_MIN rises to that of an activated image (R450). -/
def secverRaise (s : State) (i : Image) : State :=
  if (secverMin s).toNat < i.secver.toNat then
    logEv (mSm (jAppend s (.secverMin i.secver)) fun m => { m with secverMin := i.secver }) 0x8004 [i.secver.toNat]
  else s

/-! ### Slots in MRAM (R423) -/

def fwSlot (s : State) (n : Nat) : Option Image := if n = 0 then s.mg.mram.fwA else s.mg.mram.fwB
def fwPut (s : State) (n : Nat) (i : Option Image) : State :=
  mMram s fun m => if n = 0 then { m with fwA := i } else { m with fwB := i }
def repSlot (s : State) (n : Nat) : Option Image := if n = 0 then s.mg.mram.repA else s.mg.mram.repB
def repPut (s : State) (n : Nat) (i : Option Image) : State :=
  mMram s fun m => if n = 0 then { m with repA := i } else { m with repB := i }

/-- The boot-repertory slot that is not active. -/
def repOther (s : State) : Nat := match (journal s).rep with | some (0, _) => 1 | _ => 0

/-! ### What an image names (R453) -/

def codeOf (i : Image) : List (Nat × List W32) :=
  i.sections.filterMap fun x => match x with | .code a ws => some (a.toNat, ws) | _ => none
def threadsOf (i : Image) : List ThreadSec :=
  i.sections.filterMap fun x => match x with | .thread t => some t | _ => none
def banksOf (i : Image) : List Nat :=
  i.sections.filterMap fun x => match x with | .kpprog b _ _ _ => some b.val | _ => none
def mapsOf (i : Image) : List (Nat × List (W16 × W48)) :=
  i.sections.filterMap fun x => match x with | .cptmap g ps => some (g.val, ps) | _ => none

/-- Logical threads that the image names. -/
def namedBy (i : Image) : List Nat :=
  ((threadsOf i).map (fun t => t.g.val) ++ (mapsOf i).map Prod.fst).foldr insAsc []

/-- 4 KiB pages of a code section. -/
def codePages (c : Nat × List W32) : List Nat :=
  (List.range ((c.1 % 4096 + 4 * c.2.length + 4095) / 4096)).map fun k => c.1 / 4096 + k
def pagesOf (i : Image) : List Nat := ((codeOf i).map codePages).flatten.foldr insAsc []

/-- A CODE section overlaps a page that a live script occupies. -/
def pagesClash (s : State) (i : Image) : Bool := (pagesOf i).any fun p => s.mg.sm.pages.any fun q => decide (q.1 = p)

/-- A line to pin lies outside the instruction space. -/
def pinsBad (i : Image) : Bool := (threadsOf i).any fun t => t.pinned.any fun a => !fetchable a.toNat

/-! ### Pinning (R142) -/

/-- Pinned ways of the set of a line, with the pinned fills on their way to it. -/
def pinnedIn (s : State) (p line : Nat) : Nat :=
  ((tget [] (gIc s p).sets (line % 128)).filter fun l => l.pinned).length +
    ((gIc s p).fills.filter fun f => f.pin && decide (f.line % 128 = line % 128) &&
      !(tget [] (gIc s p).sets (line % 128)).any fun l => decide (l.line = f.line) && l.pinned).length +
    ((gIc s p).fillWait.filter fun f => f.pin && decide (f.line % 128 = line % 128)).length

/-- The line is pinned in engine p's cache, or will be. -/
def isPinned (s : State) (p line : Nat) : Bool :=
  linePinned s p line || (gIc s p).fillWait.any fun f => f.pin && decide (f.line = line)

/-- Pins a line, with the source ID of its loader: it is loaded once; one of external memory comes through a fill. None: three
ways are pinned already. -/
def pinLine (s : State) (p line : Nat) (src : W16) : Option State :=
  if isPinned s p line then some s
  else if 3 ≤ pinnedIn s p line then none
  else if (tget [] (gIc s p).sets (line % 128)).any fun l => decide (l.line = line) && decide (l.ecc ≠ 2) then
    some (mIc s p fun c => { c with sets := tset [] c.sets (line % 128) ((tget [] c.sets (line % 128)).map fun l =>
      if l.line = line then { l with pinned := true } else l) })
  else if line * 64 < 0x1000000 then
    some (icInsert s p { line := line, pinned := true, words := lineWords (mread s.ram.rep (line * 64) 64), way := 0, ecc := 0 })
  else some (fillRequest s p { line := line, waiters := [], pin := true, src := src })

/-- Pins lines for a thread; none: refused. -/
def pinAll (p : Nat) : List W48 → State → Option State
  | [], s => some s
  | a :: t, s => match pinLine s p (a.toNat / 64) (srcId 0 0x900) with
    | some s1 => pinAll p t s1
    | none => none

/-- The set of the line that is refused, for the event. -/
def pinRefusedSet (p : Nat) : List W48 → State → Nat
  | [], _ => 0
  | a :: t, s => match pinLine s p (a.toNat / 64) (srcId 0 0x900) with
    | some s1 => pinRefusedSet p t s1
    | none => a.toNat / 64 % 128

/-- A refused pinning is logged (R142, R152). -/
def pinRefused (s : State) (t : ThreadSec) : State :=
  logEv s 0x6030 [t.g.val / 32, pinRefusedSet (physOf s (t.g.val / 32)) t.pinned s, t.g.val]

/-- Engine of a thread section, and its key. -/
def secEng (s : State) (t : ThreadSec) : Nat := physOf s (t.g.val / 32)

/-- Pins the lines of one thread section, when its logical engine is mapped. -/
def pinThread (x : Option State × State) (t : ThreadSec) : Option State × State :=
  match x.1 with
  | none => x
  | some s =>
    if isMapped s (t.g.val / 32) then
      match pinAll (secEng s t) t.pinned s with
      | some s1 => (some s1, x.2)
      | none => (none, pinRefused x.2 t)
    else x

/-- Pins the lines of every thread of an image: the state with them, or the state with the refusal's event. -/
def pinsOfImage (s : State) (i : Image) : Except State State :=
  match (threadsOf i).foldl pinThread (some s, s) with
  | (some s1, _) => .ok s1
  | (none, s1) => .error s1

/-! ### Placing (R204, R286, R453, R454) -/

/-- A page's write protection (R392). -/
def rsProtect (s : State) (page : Nat) (b : Bool) : State :=
  mRam s fun r => { r with
    rsWp := tset 0 r.rsWp (page / 64) (if b then setBit (tget 0 r.rsWp (page / 64)) (page % 64)
      else clrBit (tget 0 r.rsWp (page / 64)) (page % 64)) }

/-- The code of an image reaches the repertory store, its pages are occupied and write-protected, and the digest is
extended. -/
def loadCode (s : State) (i : Image) : State :=
  let s1 := (codeOf i).foldl (fun acc c => repWrite acc c.1 ((c.2.map fun w => leBytes 4 w.toNat).flatten)) s
  let s2 := (pagesOf i).foldl (fun acc p => rsProtect acc p true) s1
  mSm s2 fun m => { m with
    pages := m.pages ++ (pagesOf i).map fun p => (p, namedBy i)
    digest := Config.sha384Pair m.digest (imgDigest i) }

/-- The pages of an image are free again, and its pinned lines in them are not pinned any longer. -/
def freePage (s : State) (page : Nat) : State :=
  let s1 := mSm (rsProtect s page false) fun m => { m with pages := m.pages.filter fun q => decide (q.1 ≠ page) }
  { s1 with en := { s1.en with ic := s1.en.ic.map fun c => (c.1, { c.2 with sets := c.2.sets.map fun x =>
      (x.1, x.2.map fun l => if l.line / 64 = page then { l with pinned := false } else l) }) } }

/-- Some thread of a mapped engine stands in the page. -/
def pageRuns (s : State) (page : Nat) : Bool :=
  s.en.thr.any fun e => peMapped s (e.1 / 32) && decide (e.2.r.pc.toNat / 4096 = page)

/-- Old code pages are unpinned and freed once no thread runs in them (R455). -/
def pagesFree (s : State) : State :=
  let done := s.mg.sm.oldPages.filter fun p => !pageRuns s p
  if done.isEmpty then s
  else mSm (done.foldl freePage s) fun m => { m with oldPages := m.oldPages.filter fun p => !done.contains p }

/-- A thread section's FIXED or ELASTIC. -/
def placeMode (s : State) (p t : Nat) (fixed : Bool) : State :=
  let f (m : W32) : W32 := if fixed then setBit m t else clrBit m t
  mEng s p fun e => { e with mode := f e.mode, modeLive := f e.modeLive }

/-- The initial values of a thread (R204). -/
def placeThread (s : State) (t : ThreadSec) : State :=
  if isMapped s (t.g.val / 32) then
    let k := thrKey s t.g.val
    thrEvPut (mThr (placeMode s (k / 32) (k % 32) t.fixed) k fun x => { x with
      rstrap := t.cfg.getLsbD 0, supv := t.cfg.getLsbD 1 && decide (k % 32 ≠ 0)
      vbase := t.vbase &&& ~~~ (255 : W48), r := { x.r with pc := t.pc } }) k t.ev
  else s

/-- The loader releases a thread that is in HALT (R203). -/
def releaseThr (s : State) (g : Nat) : State :=
  if isMapped s (g / 32) && decide ((gThr s (thrKey s g)).st = .halt) && !(gThr s (thrKey s g)).dbg.halted then
    leaveHalt s (thrKey s g)
  else s

/-- A bill's shadow words and mode, and its commit (R122, R454). -/
def placeBill (s : State) (e : Nat) (ws : List W64) (m : W32) : State :=
  if isMapped s e then
    let put (t : Tab (Option W8)) (n : Nat) : Tab (Option W8) :=
      billSet t n (BitVec.ofNat 8 ((ws.getD (n / 8) 0).toNat / 2 ^ (8 * (n % 8))) &&& 0x9F)
    commitSet (mEng s (physOf s e) fun x => { x with
      shd := foldNat put x.shd (List.range 64), mode := m }) (physOf s e)
  else s

/-- A bank's program: the sequencer is stopped, takes its words and ENTRY, and is started when flagged (R286). -/
def placeBank (s : State) (b : Nat) (entry : BitVec 12) (start : Bool) (ws : List (BitVec 14)) : State :=
  let put (t : Tab (BitVec 14)) (n : Nat) : Tab (BitVec 14) := tset 0 t n (ws.getD n 0)
  let s1 := mSq (mSq s b sqStopNow) b fun x => { x with pm := foldNat put x.pm (List.range ws.length), entry := entry }
  if start then sqStart s1 b else s1

/-- Bills and bank programs of an image. -/
def placeOther (s : State) (x : Section) : State :=
  match x with
  | .bill e ws m => placeBill s e.val ws m
  | .kpprog b en st ws => placeBank s b.val en st ws
  | _ => s

/-- Commits the bills, writes the threads' initial values, releases the threads, and writes the banks' programs (R454). -/
def placeImage (s : State) (i : Image) (ts : List ThreadSec) : State :=
  let s1 := ts.foldl placeThread (i.sections.foldl placeOther s)
  ts.foldl (fun acc t => releaseThr acc t.g.val) s1

end Sys2Proof.Machine
end

