-- ==== Sys2Proof/Machine/StartUp.lean ====
section
/-! DEFINITION. Start-up, steps 2 to 8 (spec/03 R99–R108, R115, spec/12 R431, R435, R448, R453, R500). -/

namespace Sys2Proof.Machine

/-! ### The log opens (R115) -/

/-- Records of the events that were held, in order, with the timebase value 0. -/
def earlyRecs (seq : W32) : List (W16 × List Nat) → List LogRec
  | [] => []
  | e :: t => { tb := 0, seq := seq, code := e.1, data := e.2 } :: earlyRecs (seq + 1) t

/-- Events that were held are written at the end of step 4. -/
def logOpen (s : State) : State :=
  mLog s fun l => { l with
    buf := l.buf ++ earlyRecs l.seq l.early, seq := l.seq + BitVec.ofNat 32 l.early.length, early := [], opened := true }

/-- What the wrapper left to the log (R86, R100, R115). -/
def owedEvents (s : State) : State :=
  let s1 := match s.aon.owedClk with | some c => logEv s 0x1005 [c] | none => s
  let s2 := match s.aon.owedPwr with | some w => logEv s1 0x1010 [w.toNat] | none => s1
  let s3 := match s.aon.owedRst with | some r => logEv s2 0x1011 [r.toNat] | none => s2
  mAon s3 fun a => { a with owedClk := none, owedPwr := none, owedRst := none }

/-! ### Steps 2 and 3: the host port is released, and the firmware is chosen (R82, R99, R100, R103) -/

/-- The host port leaves the curtain, and the wrapper and the ROM have raised what they raise before the log opens. -/
def hostRelease (s : State) (chal : W64) : State :=
  owedEvents (mBlk (mLock (mAon s fun a => { a with reason := 0, porDue := false, pwrDue := false, rstDue := false }) fun l => { l with chal := chal }) fun b => { b with
    bootStep := 3 })

/-- RECOVERY: the ROM serves the host port (R100). -/
def toRecovery (s : State) : State :=
  mSm (mBlk (mAon (logOpen s) fun a => { a with power := .recovery }) fun b => { b with
    recovery := true, uncal := true, norep := true }) fun m => { m with alive := true }

/-- The image of firmware slot n verifies. -/
def fwGood (s : State) (n : Nat) : Option Image :=
  match fwSlot s n with
  | some i => if (imgRefused s 1 (secverMin s) i).isNone then some i else none
  | none => none

/-- The slot to run: the one that the journal names, or the other (R103). -/
def fwChoice (s : State) : Option (Nat × Image) :=
  let n := (fwChosen (journal s)).getD 0
  match fwGood s n with
  | some i => some (n, i)
  | none => (fwGood s (1 - n)).map fun i => (1 - n, i)

/-! ### Step 4: journal and calibration (R107, R108, R431, R435, R448) -/

/-- The journal is formatted when no half rules. -/
def journalFormat (s : State) : State :=
  match rulingHalf s with
  | some _ => s
  | none =>
    logEv (mBlk (mMram s fun m => { m with
      j0 := { hdr := some 1, flip := some 1, units := 2 }, j1 := { hdr := some 0, units := 1 } }) fun b => { b with
      firstUse := true }) 0x1034 []

/-- The torn tail of the ruling half is logged. -/
def journalTorn (s : State) : State :=
  match rulingHalf s with
  | some i => if (jHalf s i).torn then logEv s 0x7011 [i, (jHalf s i).units * 64] else s
  | none => s

/-- A replacement of the calibration page that was cut is finished. -/
def calFinish (s : State) : State :=
  match (journal s).cal with
  | some (src, m) =>
    let s1 := calWritePage s src m
    logEv (jAppend s1 .calDone) 0x7021 [(calStored s1).toNat]
  | none => s

/-- The calibration set is loaded, or nominal values stand for it. -/
def calBoot (s : State) : State :=
  if calOk s then calLoad s
  else logEv (mBlk s fun b => { b with uncal := true }) 0x1032 [(calStored s).toNat, (calCrc s).toNat]

/-- A long operation that the reset ended. The result that its OP_END holds, the manual leaves open (log 4). -/
def opsFail (s : State) (o : W16 × W8 × List W8) : State :=
  useFree (jAppend (logEv s 0x7032 [o.2.1.toNat]) (.opEnd o.1 ((freeVal s).extractLsb' 0 8)))

/-- What the journal keeps comes into force. -/
def journalLoad (s : State) : State :=
  let v := journal s
  let s1 := mSm s fun m => { m with cfg := v.cfg, secverMin := v.secver.getD 0, retired := v.retired }
  let s2 := if s.aon.cold then mTb s1 fun t => { t with
    corr := v.tbRate.getD 0, corrLive := v.tbRate.getD 0, corrJrn := v.tbRate.getD 0 } else s1
  v.ops.foldl opsFail s2

/-- Step 4. -/
def bootStep4 (s : State) : State :=
  let s1 := journalLoad (calBoot (calFinish (journalTorn (journalFormat s))))
  mSm (mBlk (logOpen s1) fun b => { b with bootStep := 5 }) fun m => { m with alive := true }

/-! ### Step 5: the clock check (R85, R104) -/

/-- Measured frequency of a clock, in Hz. -/
def envHz (env : BootEnv) (id : Nat) : Nat :=
  match env.meas.find? fun m => decide (m.1 = id) with
  | some m => m.2
  | none => 0

/-- Nominal frequency that the check takes from a measurement: the nearest MHz, within the wrapper window and the limits of
R489; 0: none. -/
def bootNom (f lo hi : Nat) : Nat :=
  if lo ≤ (f + 500000) / 1000000 * 1000000 ∧ (f + 500000) / 1000000 * 1000000 ≤ hi then (f + 500000) / 1000000 * 1000000 else 0

/-- The measurements of one check. -/
def clocksTaken (s : State) (env : BootEnv) : State :=
  mClk s fun c => { c with
    nomE := match clkWin s 0 with | some w => w.1 | none => bootNom (envHz env 0) 1000000000 2500000000
    nomF := match clkWin s 1 with | some w => w.1 | none => bootNom (envHz env 1) 800000000 2000000000
    meas := foldNat (fun t id => tset 0 t id (envHz env id)) c.meas (List.range 5) }

/-- Required clocks that the check finds outside their windows. -/
def clocksBad (s : State) (env : BootEnv) : List Nat :=
  (List.range 5).filter fun id => decide (envHz env id = 0) || !clkInside s id (envHz env id)

/-- One clock of a check that fails: its failure is logged once in a start-up (R104). -/
def clockFail (env : BootEnv) (s : State) (id : Nat) : State :=
  if !(clocksBad s env).contains id then clkOutClr s id
  else if s.blk.step5Log.contains id then clkOutSet s id
  else mBlk (logEv (clkOutSet s id) 0x1001 [id, envHz env id]) fun b => { b with step5Log := insAsc id b.step5Log }

/-- A check that fails: the block waits in step 5. -/
def clocksFail (s : State) (env : BootEnv) : State := foldNat (clockFail env) s (List.range 5)

/-- A check that passes: the timebase starts at 0. -/
def clocksPass (s : State) : State :=
  let s1 := foldNat (fun acc id => if clkIsOut acc id then logEv (clkOutClr acc id) 0x1002 [id] else acc) s (List.range 5)
  { (mTb s1 fun t => { t with now := 0, sub := 0, running := true, corrLive := t.corr }) with ec := 0, lap := 0 }

/-! ### Step 6: engines and memories (R92, R101, R106) -/

/-- Engines that passed power-up and BIST. Retired engines are left out. -/
def bootOk (s : State) (env : BootEnv) (p : Nat) : Bool :=
  !s.mg.sm.retired.contains p && !env.rampFail.contains p && !env.bistFail.contains p

/-- The engine failed BIST after a power-up that went well. -/
def bootBistBad (s : State) (env : BootEnv) (p : Nat) : Bool :=
  !s.mg.sm.retired.contains p && !env.rampFail.contains p && env.bistFail.contains p

/-- Power of physical engine p after step 6: ON when it is mapped. -/
def bootPower (env : BootEnv) (m : List (Option Nat)) (s : State) (p : Nat) : State :=
  mPe s p fun x => { x with
    st := if m.contains (some p) then .on else .off
    failed := !s.mg.sm.retired.contains p && (env.rampFail.contains p || env.bistFail.contains p) }

/-- Logical engine e takes its place in the mapping table. -/
def bootMap (m : List (Option Nat)) (s : State) (e : Nat) : State :=
  match m.getD e none with
  | some p => mapEng s e p
  | none => s

/-- Swing engines that stand in, lowest logical engine first. -/
def bootSwung (m : List (Option Nat)) : List (Nat × Nat) :=
  (List.range 64).filterMap fun e => match m.getD e none with
    | some p => if 64 ≤ p then some (e, p) else none
    | none => none

/-- Events of the engines that failed: 0x1020 for a rail, 0x1021 with the swing engine, 0x1022 with each logical engine that
is left without; a failed swing engine has no logical engine. -/
def bootEvents (s : State) (env : BootEnv) (m : List (Option Nat)) : State :=
  let ramp := (List.range 68).filter fun p => !s.mg.sm.retired.contains p && env.rampFail.contains p
  let own := (List.range 64).filter fun p => !bootOk s env p
  let in_ := own.take ((List.range 4).filter fun i => bootOk s env (64 + i)).length
  let left := own.drop in_.length
  let none_ := (List.range 64).filter fun e => (m.getD e none).isNone
  let s1 := ramp.foldl (fun acc p => logEv acc 0x1020 [p]) s
  let s2 := (in_.zip ((List.range 4).filter fun i => bootOk s env (64 + i))).foldl (fun acc x =>
    if bootBistBad s env x.1 then logEv acc 0x1021 [x.1, x.1, 64 + x.2] else acc) s1
  let s3 := (left.zip none_).foldl (fun acc x => logEv acc 0x1022 [x.1, x.2]) s2
  ((List.range 4).filter fun i => bootBistBad s env (64 + i)).foldl (fun acc i => logEv acc 0x1022 [64 + i, 0x7F]) s3

/-- A line of external memory or of the wings that the walk reads; none: the fill failed (R409, R411). -/
def walkFill (s : State) (u line master : Nat) (ans : MemAns) : State × Option (List W8) :=
  if u = 8 then (s, some (mread s.ram.wings (line * 64 - wingsBase) 64))
  else extRead s (srcId 15 master) (qosOf master) (line * 64 - extBase) 64 ans

/-- The changed line goes back; a write-back that fails is logged (R409, R411). -/
def walkBack (s : State) (u line : Nat) (l : AuLine) (ans : MemAns) : State :=
  if !l.dirty then s
  else if u = 8 then mRam s fun r => { r with wings := mwrite r.wings (line * 64 - wingsBase) l.data }
  else match extWrite s (srcId 15 l.last) (qosOf l.last) (line * 64 - extBase) l.data ans with
    | (s1, true) => s1
    | (s1, false) => logEv s1 0x2105 [u, line * 64]

/-- The unit marks one lock of a held line, and counts it (R92, R416). -/
def walkOp (u : Nat) (x : State × Nat) (op : AuOp) : State × Nat :=
  match tget none (gAu x.1 u).lines (op.addr.toNat / 64) with
  | some l =>
    (auPerform x.1 u op l, x.2 + b2n (auEffect op (lineWord l.data (op.addr.toNat % 64) 8) true false false).new.isSome)
  | none => x

/-- The walk over the entries of one line: fill, the locks in table order, write-back. What memory answers to the fill and to the
write-back are the next two of `x.2.1`. -/
def walkLine (u : Nat) (x : State × List MemAns × Nat) (line : Nat) : State × List MemAns × Nat :=
  let es := (gAu x.1 u).holdings.filter fun e => decide (e.1 / 64 = line)
  let f := walkFill x.1 u line ((es.head?.map Prod.snd).getD 0) (x.2.1.headD (.ok []))
  match f.2 with
  | none => (f.1, x.2.1.drop 2, x.2.2)
  | some d =>
    let s1 := mAu f.1 u fun a => { a with lines := tset none a.lines line (some { data := d, dirty := false, last := 0 }) }
    let y := (es.map walkAuOp).foldl (walkOp u) (s1, 0)
    let s2 := mAu y.1 u fun a => { a with lines := tdel a.lines line }
    (match tget none (gAu y.1 u).lines line with
      | some l => walkBack s2 u line l ((x.2.1.drop 1).headD (.ok []))
      | none => s2, x.2.1.drop 2, x.2.2 + y.2)

/-- The walk of one unit: its lines in the order of their first entries; then its table is cleared, and its count of locks written
stands at the end of the list (R92). -/
def walkUnit (x : State × List MemAns × List Nat) (u : Nat) : State × List MemAns × List Nat :=
  let lines := ((gAu x.1 u).holdings.map fun e => e.1 / 64).eraseDups
  let y := lines.foldl (walkLine u) (x.1, x.2.1, 0)
  (mAu y.1 u fun a => { a with holdings := [] }, y.2.1, x.2.2 ++ [y.2.2])

/-- The holdings walk of step 6, which is logged once (R92). -/
def bootWalk (s : State) (ans : List MemAns) : State :=
  let x := foldNat walkUnit (s, ans, []) (List.range 9)
  logEv x.1 0x1035 x.2.2

/-- Step 6. -/
def bootStep6 (s : State) (env : BootEnv) : State :=
  let m := mapBoot (bootOk s env)
  let s1 := foldNat (bootPower env m) (bootEvents s env m) (List.range 68)
  let s2 := mapStat (foldNat (bootMap m) s1 (List.range 64))
  let s3 := { s2 with ram := { s2.ram with lm := [], wings := [], rep := [], lmBad := [], wingsBad := [], repBad := [] } }
  let s4 := mBlk s3 fun b => { b with portsOn := true, bootStep := 7 }
  if s.aon.cold then s4 else bootWalk s4 env.walk

/-! ### Step 7: the boot repertory (R107, R453, R500) -/

/-- The boot repertory that the journal names, when it verifies and names no line outside the instruction space. -/
def repGood (s : State) : Option Image :=
  match (journal s).rep with
  | some (n, _) => match repSlot s n with
    | some i => if (imgRefused s 2 (secverMin s) i).isNone && !pinsBad i then some i else none
    | none => none
  | none => none

/-- Threads of mapped engines whose lines could be pinned, with the state that pinned them. A thread whose pinning is refused
is logged and left out. -/
def bootPins : List ThreadSec → State → State × List ThreadSec
  | [], s => (s, [])
  | t :: ts, s =>
    if isMapped s (t.g.val / 32) then
      match pinAll (secEng s t) t.pinned s with
      | some s1 => ((bootPins ts s1).1, t :: (bootPins ts s1).2)
      | none => bootPins ts (pinRefused s t)
    else bootPins ts s

/-- Step 7. The reason that event 0x1033 shows, the manual leaves open (log 4). -/
def bootStep7 (s : State) : State :=
  let s0 := mSm s fun m => { m with digest := 0, pages := [] }
  match repGood s with
  | none => useFree (logEv (mBlk s0 fun b => { b with norep := true }) 0x1033 [(freeVal s).toNat])
  | some i =>
    let x := bootPins (threadsOf i) (loadCode s0 i)
    placeImage x.1 i x.2

/-! ### Step 8 (R102) -/

def bootStep8 (s : State) : State :=
  mAon (mBlk s fun b => { b with ready := true, readyIrq := true, bootStep := 8 }) fun a => { a with
    power := .ready, cold := false }

/-- Steps 5 to 8. -/
def bootFrom5 (s : State) (env : BootEnv) : State :=
  let s1 := clocksTaken s env
  if (clocksBad s1 env).isEmpty then
    bootStep8 (bootStep7 (bootStep6 (mBlk (clocksPass s1) fun b => { b with bootStep := 6 }) env))
  else clocksFail s1 env

/-- Steps 2 to 4, up to the clock check. Status of the slots in event 0x1031, the manual leaves open (log 4). -/
def bootRun (s : State) (env : BootEnv) : State :=
  let s1 := hostRelease s env.chal
  match fwChoice s1 with
  | none => toRecovery (useFree (logEv (journalFormat s1) 0x1031 [(freeVal s1).toNat]))
  | some (n, i) =>
    let s2 := mSm (mBlk s1 fun b => { b with
      fwSlot := decide (n = 1), bootStep := 4, recovery := false, uncal := false, norep := false }) fun m => { m with
      fwVersion := i.version }
    bootFrom5 (bootStep4 s2) env

/-- ECLK, FCLK or MCLK lies outside its wrapper window (R85), as far as the wrapper can measure it: with REFCLK there (R87). -/
def wrapperBad (env : BootEnv) : Bool :=
  decide (envHz env 4 ≠ 0) &&
    !(decide (1000000000 ≤ envHz env 0 ∧ envHz env 0 ≤ 2750000000) && decide (800000000 ≤ envHz env 1 ∧ envHz env 1 ≤ 2200000000) &&
      decide (200000000 ≤ envHz env 2 ∧ envHz env 2 ≤ 550000000))

/-- After `por_n` has risen, the wrapper holds start-up in step 2 while such a clock is outside (R84). -/
def wrapperHolds (s : State) (env : BootEnv) : Bool := s.aon.porDue && wrapperBad env

/-- The block is in BOOT, no reason for the curtain holds, and start-up has come to step 2. -/
def bootReady (s : State) : Bool :=
  decide (s.aon.power = .boot) && decide (levelReason s.aon = 0) && decide (s.blk.bootStep = 2)

/-- R102 START_UP. -/
def execStartUp (env : BootEnv) (s : State) : Out := act (bootReady s && !wrapperHolds s env) (fun s => bootRun s env) s

/-- R104 CLOCK_CHECK. -/
def execClockCheck (env : BootEnv) (s : State) : Out :=
  act (decide (s.aon.power = .boot) && decide (levelReason s.aon = 0) && decide (s.blk.bootStep = 5))
    (fun s => bootFrom5 s env) s

/-- R99 MRAM_NOT_READY. -/
def execMramNotReady (s : State) : Out :=
  act (bootReady s) (fun s =>
    toRecovery (logEv (hostRelease (useFree s) (freeVal s)) 0x1036 [])) s

end Sys2Proof.Machine
end

