-- ==== Sys2Proof/Machine/Debug.lean ====
section
/-! DEFINITION. The debug lock, halt, resume, step and breakpoints of threads and sequencers (spec/06 R238, R239, spec/13
R466–R481). -/

namespace Sys2Proof.Machine

/-! ### The lock (R467–R470) -/

/-- The lock is open with a SCOPE bit: 0 THREAD, 1 ACCESS, 2 WRAP. -/
def scopeOn (s : State) (i : Nat) : Bool := s.mg.lock.unlocked && s.mg.lock.scope.getLsbD i

/-- n bytes of the token from byte i. -/
def tok (s : State) (i n : Nat) : Nat := leNat (mread s.mg.lock.token i n)

/-- Digest of the token with bytes 160–255 taken as 0 (R468). -/
def tokDigest (s : State) : BitVec 384 :=
  Config.sha384Words ((mread s.mg.lock.token 0 160).map BitVec.toNat ++ List.replicate 96 0)

/-- Why the token is refused; 0: it is good (R469). -/
def tokRefused (s : State) : W8 :=
  if tok s 0 2 ≠ 3 ∨ tok s 2 2 ≠ 1 ∨ tok s 4 4 ≠ 256 ∨ 8 ≤ tok s 17 1 ∨ tok s 18 6 ≠ 0 ∨ tok s 129 31 ≠ 0 then 1
  else if tok s 8 8 ≠ Config.serial.toNat then 2
  else if tok s 24 8 ≠ s.mg.lock.chal.toNat then 3
  else if !keyMatches s (tok s 16 1) (BitVec.ofNat 776 (tok s 32 97)) then 4
  else if !Config.ecdsaOk (BitVec.ofNat 776 (tok s 32 97)) (tokDigest s) (BitVec.ofNat 768 (tok s 160 96)) then 5
  else 0

/-- A failed attempt. -/
def unlockFail (s : State) (reason : W8) : State :=
  logEv (mLock s fun l => { l with
    busy := false, lastFail := reason, fails := satInc l.fails, failTb := some s.tb.now }) 0x8011 [reason.toNat]

/-- The latest failed attempt ended less than 1 s ago. While the timebase does not run, the block gives no measure of the
time (log 4). -/
def failNear (s : State) : Bool :=
  match s.mg.lock.failTb with
  | none => false
  | some t => if s.tb.running then decide ((s.tb.now - t).toNat < 40000000000) else freeBit s

/-- The new challenge that an attempt without a row of its own ends with (log 4). -/
def chalFree (s : State) : State := mLock (useFree s) fun l => { l with chal := freeVal s }

/-- A write of 1 to DBG_CTL.UNLOCK. -/
def dbgUnlock (s : State) : State :=
  let s1 := if s.tb.running then s else useFree s
  if s.mg.lock.busy then mLock (unlockFail s 6) fun l => { l with busy := true }
  else if failNear s then unlockFail s1 6
  else if !s.mg.sm.alive then chalFree (unlockFail s1 7)
  else mLock s1 fun l => { l with busy := true }

/-- R469 UNLOCK. -/
def execUnlock (s : State) : Out := act (up s) dbgUnlock s

/-- R469 UNLOCK_DONE. -/
def execUnlockDone (chal : W64) (s : State) : Out :=
  act (up s && s.mg.lock.busy) (fun s =>
    let s1 := if tokRefused s = 0 then
        logEv (mLock s fun l => { l with
          busy := false, unlocked := true, scope := BitVec.ofNat 3 (tok s 17 1), keySlot := BitVec.ofNat 2 (tok s 16 1) }) 0x8010
          [tok s 16 1]
      else unlockFail s (tokRefused s)
    mLock s1 fun l => { l with chal := chal }) s

/-! ### Halting a thread (R238, R239, R476) -/

/-- The thread runs or waits, so a halt can take effect (R203). -/
def haltable (t : Thread) : Bool := decide (t.st = .run) || decide (t.st = .wait)

/-- A write of 1 to DBG_THRg.HALT. A thread that the debugger already holds stays as it is. -/
def dbgHalt (s : State) (g : Nat) : State :=
  let k := thrKey s g
  if (gThr s k).dbg.halted then s
  else
    let s1 := mThr s k fun t => { t with dbg := { t.dbg with
      pending := true, deferred := if t.dbg.pending then t.dbg.deferred else 0 } }
    if haltNow s1 g && haltable (gThr s1 k) then haltTake s1 k 1 else s1

/-- R238 DEBUG_HALT. -/
def execDebugHalt (g : Fin 2048) (s : State) : Out :=
  act (engUp s (g.val / 32) && scopeOn s 0) (fun s => dbgHalt s g.val) s

/-- R239 DEBUG_HALT_EFFECT. -/
def execDebugHaltEffect (g : Fin 2048) (s : State) : Out :=
  act (engUp s (g.val / 32) && haltNow s g.val && haltable (gThr s (thrKey s g.val)))
    (fun s => haltTake s (thrKey s g.val) 1) s

/-- R238 FORCED_HALT. -/
def execForcedHalt (g : Fin 2048) (s : State) : Out :=
  act (engUp s (g.val / 32) && haltForced s g.val && !haltNow s g.val && haltable (gThr s (thrKey s g.val)))
    (fun s => logEv (haltTake s (thrKey s g.val) 2) 0x6104 [g.val]) s

/-! ### Resume and step (R477, R478) -/

/-- A debug halt ends. After an address breakpoint the word issues without matching again (R479). -/
def dbgGo (s : State) (g : Nat) (step : Bool) : State :=
  let k := thrKey s g
  if (gThr s k).dbg.halted then
    leaveHalt (mThr s k fun t => { t with dbg := { t.dbg with
      halted := false, stepping := step, bpPass := decide (t.dbg.reason = 3), reason := 0 } }) k
  else s

/-- R477 DEBUG_RESUME. -/
def execDebugResume (g : Fin 2048) (s : State) : Out :=
  act (engUp s (g.val / 32) && scopeOn s 0) (fun s => dbgGo s g.val false) s

/-- R478 DEBUG_STEP. -/
def execDebugStep (g : Fin 2048) (s : State) : Out :=
  act (engUp s (g.val / 32) && scopeOn s 0) (fun s => dbgGo s g.val true) s

/-- R479 ADDRESS_BREAKPOINT, in the slot in which the word is fetched: the word changes no state, and the copy of an STI is
kept. -/
def execAddressBreakpoint (g : Fin 2048) (s : State) : Out :=
  let k := thrKey s g.val
  act (fetches s g.val && bpMatch s g.val) (fun s => mThr (takeSlot s (k / 32) (k % 32)) k fun t => { t with
    st := .halt, ownFirst := false, dbg := dbgHalted t.dbg 3 }) s

/-! ### Sequencers (R481) -/

/-- A write of 1 to DBG_SEQb.HALT: it takes effect at the next pc boundary. -/
def sqHalt (s : State) (b : Nat) : State := sqAsk s b .halt

/-- The sequencer halts before the word at PC issues. -/
def sqBreak (s : State) (b : Nat) : State := mSq s b fun x => { x with st := .halt, kept := .run, stepping := false }

/-- A halt ends; the word at PC issues without matching the breakpoint again. While the bank is paused the sequencer is PAUSED
(R285). -/
def sqGo (s : State) (b : Nat) (step : Bool) : State :=
  mSq s b fun x =>
    if x.st = .halt then
      { (if (gBank s b).paused then { x with st := .paused } else sqGoOn s x) with stepping := step, bpPass := true }
    else x

/-- R481 SEQ_DEBUG_HALT. -/
def execSeqDebugHalt (b : Fin 32) (s : State) : Out := act (up s && scopeOn s 0) (fun s => sqHalt s b.val) s

/-- R481 SEQ_DEBUG_RESUME. -/
def execSeqDebugResume (b : Fin 32) (s : State) : Out := act (up s && scopeOn s 0) (fun s => sqGo s b.val false) s

/-- R481 SEQ_DEBUG_STEP. -/
def execSeqDebugStep (b : Fin 32) (s : State) : Out := act (up s && scopeOn s 0) (fun s => sqGo s b.val true) s

/-- R481 SEQ_BREAKPOINT. -/
def execSeqBreakpoint (b : Fin 32) (s : State) : Out :=
  let x := gSq s b.val
  act (live s && decide (x.st = .run) && x.wait.isNone && decide (s.ec % 2 = 0) && decide (x.lastPc ≠ some (s.ec / 2)) &&
    x.bpEn && decide (x.bpAddr = x.pc) && !x.bpPass) (fun s => sqBreak s b.val) s

/-! ### Closing the lock (R470) -/

/-- Every thread goes on, and its deferred request is gone. A step in progress ends no longer in a halt, and a sequencer's request
that waits for its pc boundary is gone too (DEDUCED log 43). -/
def relockThr (s : State) (g : Nat) : State :=
  if isMapped s (g / 32) then
    mThr (dbgGo s g false) (thrKey s g) fun t => { t with
      dbg := { t.dbg with pending := false, deferred := 0, stepping := false } }
  else s

/-- A write of 1 to DBG_CTL.RELOCK. -/
def dbgRelock (s : State) : State :=
  let s1 := foldNat relockThr (mLock s fun l => { l with unlocked := false, scope := 0, keySlot := 0 }) (List.range 2048)
  let s2 := foldNat (fun acc b => mSq (sqGo acc b false) b fun x => { x with
    bpEn := false, stepping := false, req := x.req.filter fun r => decide (r ≠ .halt) }) s1 (List.range 32)
  { s2 with mg := { s2.mg with bp := tmap {} (fun b => { b with en := false }) s2.mg.bp } }

/-- R470 RELOCK. -/
def execRelock (s : State) : Out := act (up s) dbgRelock s

end Sys2Proof.Machine
end

