-- ==== Sys2Proof/Machine/LaneTx.lean ====
section
/-! DEFINITION. The transmit side of the lanes and the lane groups' control (spec/09 R312, R317, R326–R337). -/

namespace Sys2Proof.Machine

/-! ### Frames as units (R327–R329) -/

def ctlBlk (pay : List W8) : LBlk := { hdr := 1, pay := pay, kf := [] }
def dataBlk (pay : List W8) : LBlk := { hdr := 2, pay := pay, kf := [] }
def kChar (b : W8) : LBlk := { hdr := 0, pay := [b], kf := [1] }
def dChar (b : W8) : LBlk := { hdr := 0, pay := [b], kf := [0] }

/-- A control block of eight /E/ characters (R327). A 128b/130b block repeats its payload (DEDUCED log 17). -/
def errPay : List W8 := 0x1E :: leBytes 7 (foldNat (fun n i => n + 0x1E * 2 ^ (7 * i)) 0 (List.range 8))
def errBlk : LBlk := ctlBlk errPay
def errUnit (code : Nat) : LBlk := if code = 2 then ctlBlk (errPay ++ errPay) else errBlk

/-- K30.7, K28.5 and D16.2. -/
def k30_7 : LBlk := kChar 0xFE
def k28_5 : LBlk := kChar 0xBC
def d16_2 : LBlk := dChar 0x50

/-- Type of the terminate block with n payload bytes (R319). -/
def termType (n : Nat) : W8 := [0x87, 0x99, 0xAA, 0xB4, 0xCC, 0xD2, 0xE1, 0xFF].getD n 0xFF

/-- Data blocks of whole groups of 8 bytes; the fuel is their number. -/
def dataBlks : Nat → List W8 → List LBlk
  | 0, _ => []
  | n + 1, bs => dataBlk (bs.take 8) :: dataBlks n (bs.drop 8)

/-- How a frame's sending ends. -/
inductive TxEnd where
  | good
  /-- CHECK found a mismatch (R328). -/
  | bad
  /-- A byte had not arrived (R327). -/
  | underrun
  deriving DecidableEq, Repr

/-- ETH66 (R329). -/
def ethUnits (bs : List W8) (e : TxEnd) : List LBlk :=
  let n := bs.length / 8
  ctlBlk [0x78, 0x55, 0x55, 0x55, 0x55, 0x55, 0x55, 0xD5] :: dataBlks n bs ++
    match e with
    | .good => [ctlBlk ((termType (bs.length % 8) :: bs.drop (8 * n)) ++ List.replicate (7 - bs.length % 8) 0)]
    | .bad => [errBlk]
    | .underrun => [errBlk, ctlBlk [0x87, 0, 0, 0, 0, 0, 0, 0]]

/-- DELIM (R329). -/
def delimUnits (frm : W64) (bs : List W8) (e : TxEnd) : List LBlk :=
  let sof := BitVec.ofNat 8 (fld frm 32 8)
  let eof := BitVec.ofNat 8 (fld frm 40 8)
  kChar sof :: bs.map dChar ++
    match e with
    | .good => [kChar eof]
    | .bad => [k30_7]
    | .underrun => [k30_7, kChar eof]

/-- The unit of one RAW record, and whether its K flag names no K code (R321, R329). -/
def rawUnit (code : Nat) (r : List W8) : LBlk × Bool :=
  if code = 3 then
    let k := (r.getD 1 0).getLsbD 0
    let b := r.headD 0
    if k && !isK b then (k30_7, true) else (if k then kChar b else dChar b, false)
  else ({ hdr := (r.headD 0).extractLsb' 0 2, pay := r.drop 1, kf := [] }, false)

/-- Units of the whole records; the fuel is their number. -/
def rawUnits (code size : Nat) : Nat → List W8 → List (LBlk × Bool)
  | 0, _ => []
  | n + 1, bs => rawUnit code (bs.take size) :: rawUnits code size n (bs.drop size)

/-- Bytes of a record (R321). -/
def recSize (code : Nat) : Nat := if code = 3 then 2 else if code = 2 then 17 else 9

/-- The idle units between frames (R329). -/
def idleUnits (s : State) (f : Nat) : List LBlk :=
  if lcCode (liveOf s f) = 3 then [k28_5, d16_2] else [ctlBlk (idlePay s f)]

/-- The link sends: in LOCKING and UP, and until the frame being sent has filled its last words (R317, R331). -/
def linkSends (s : State) (f : Nat) : Bool :=
  let l := gLink s f
  decide (l.st = .locking) || decide (l.st = .up) || l.asm.busy ||
    (lanesOf s f).any fun k => decide ((gLane s k).tx.q.length < (gLane s k).tx.owed)

def addTxErr (s : State) (f n : Nat) : State := mLink s f fun l => { l with txErr := satAdd l.txErr n }

/-- A packet's bytes as they are sent under TXFCS (R328), and whether CHECK found a mismatch. -/
def txBytes (c : W64) (append : Bool) (bs : List W8) : List W8 × Bool :=
  let mode := if append then 1 else fld c 14 2
  if mode = 1 then
    let padded := if c.getLsbD 16 then bs ++ List.replicate (60 - bs.length) 0 else bs
    (padded ++ leBytes 4 (crc32Of (crcPoly c) padded).toNat, false)
  else (bs, decide (mode = 2) && !crcGood (crcPoly c) bs)

/-- Bytes of which whole units can be sent when the byte after them has not arrived (R327). -/
def unitBytes (c : W64) (n : Nat) : Nat :=
  match lcFramer c with
  | 0 => n / 8 * 8
  | 1 => n
  | _ => n / recSize (lcCode c) * recSize (lcCode c)

/-- The packet's units join those still to be sent. -/
def frameUnits (s : State) (f : Nat) (bs : List W8) (e : TxEnd) : State :=
  let g := gLg s (f / 8)
  let c := g.live
  let put (s : State) (us : List LBlk) (ipg : Nat) : State := mAsm s f fun a => { a with
    cur := a.cur ++ us, busy := !us.isEmpty, cnt := decide (e ≠ .underrun), ipg := ipg }
  match lcFramer c with
  | 0 =>
    let gap := fld g.frm 48 8 - (gLink s f).asm.ipg
    put s (List.replicate ((gap + 7) / 8) (ctlBlk (idlePay s f)) ++ ethUnits bs e)
      (match e with | .good => 8 - bs.length % 8 | _ => 8)
  | 1 => put s (delimUnits g.frm bs e) 255
  | _ =>
    let size := recSize (lcCode c)
    let us := rawUnits (lcCode c) size (bs.length / size) bs
    let errs := (us.filter fun u => u.2).length + b2n (decide (bs.length % size ≠ 0))
    put (addTxErr s f errs) (us.map Prod.fst ++ match e with
      | .underrun => if lcCode c = 3 then [k30_7, kChar (BitVec.ofNat 8 (fld g.frm 40 8))] else [errUnit (lcCode c)]
      | _ => []) 255

/-- The buffers of a packet in a transmit queue are freed (R331, R357). -/
def freeOut (s : State) (p : OutPkt) : State := freeBufs s p.handle p.len p.pool p.chain p.chidx

/-- The buffers of the packet whose frame has ended are freed (R357). -/
def pktEnd (s : State) (f : Nat) : State :=
  match (gLink s f).asm.pkt with
  | some p => boxRun (freeOut (mAsm s f fun a => { a with pkt := none }) p)
  | none => s

/-- R326–R329, R357, R384 TX_FRAME_START: the oldest queued packet is fetched and its frame begins; `arrived` is how many of its
bytes had arrived when the next one was needed. The bytes of a failed read are free (DESIGN CHOICE log 17). -/
def execTxFrameStart (link : Fin 64) (ans : PktAns) (arrived : Nat) (s : State) : Out :=
  let f := link.val
  let l := gLink s f
  match l.asm.q with
  | [] => .next s
  | p :: t =>
    act (live s && (decide (l.st = .locking) || decide (l.st = .up)) && !l.asm.busy &&
        decide (min p.len 16384 ≤ arrived)) (fun s =>
      let x := pktFetch (mAsm s f fun a => { a with q := t, pkt := some p }) 1 p.handle p.len p.pool p.chain p.chidx ans
      let n := p.len / 8 + 1
      let bs := fetchBytes (freeBytes x.1 n) x.2.parts
      let s1 := { x.1 with fresh := x.1.fresh + n }
      let s2 := if arrived < p.len then
          frameUnits (logEv (mLink (mLg s1 (f / 8) fun g => { g with sUnderrun := true }) f fun l =>
            { l with underrun := satInc l.underrun }) 0x4030 [f, p.handle.toNat]) f
            (bs.take (unitBytes (liveOf s f) arrived)) .underrun
        else
          let b := txBytes (liveOf s f) p.append bs
          frameUnits (if b.2 then addTxErr s1 f 1 else s1) f b.1 (if b.2 then .bad else .good)
      if (gLink s2 f).asm.busy then s2 else pktEnd s2 f) s

/-! ### Group control: draining and quiet (R331–R333) -/

/-- The transmit queue of a link that stops sending is discarded (R331). -/
def txDiscard (s : State) (f : Nat) : State :=
  let q := (gLink s f).asm.q
  if q.isEmpty then s
  else
    let s1 := mLink s f fun l => { l with asm := { l.asm with q := [] }, txqDrop := satAdd l.txqDrop q.length }
    let s2 := logEv (mLg s1 (f / 8) fun g => { g with sTxqDrop := true }) 0x4031 [f, q.length]
    boxRun (q.foldl freeOut s2)

/-- The assembler has taken the last unit of the frame being sent: the count, and its packet's buffers. -/
def frameDone (s : State) (f : Nat) : State :=
  pktEnd (mLink s f fun l => { l with
    asm := { l.asm with busy := false, cnt := false }
    txFrames := if l.asm.cnt then satInc l.txFrames else l.txFrames }) f

/-- The frame being sent is cut (log 25). -/
def cutFrame (s : State) (f : Nat) : State :=
  (lanesOf s f).foldl (fun acc k => mTx acc k fun x => { x with owed := 0 })
    (pktEnd (mAsm s f fun a => { a with cur := [], busy := false, cnt := false }) f)

/-- The next unit of the link. -/
def nextUnit (s : State) (f : Nat) : LBlk × State :=
  let a := (gLink s f).asm
  match a.cur with
  | u :: t =>
    let s1 := mAsm s f fun a => { a with cur := t }
    (u, if t.isEmpty && a.busy then frameDone s1 f else s1)
  | [] => match idleUnits s f with
    | u :: t => (u, mAsm s f fun a => { a with cur := t, ipg := min 255 (a.ipg + 8) })
    | [] => (k28_5, s)

/-- Whole lane words of `n` stream bits leave the lane's bits for its queue (R305, R306). -/
def txFlush (k n : Nat) : Nat → State → State
  | 0, s => s
  | m + 1, s =>
    let bs := (gLane s k).tx.bits
    if bs.length < n then s
    else
      let w := bs.take n
      let word : BitVec 2 × W64 := if n = 60 then (0, BitVec.ofNat 64 (bitsNum w))
        else (BitVec.ofNat 2 (bitsNum (w.take 2)), BitVec.ofNat 64 (bitsNum (w.drop 2)))
      txFlush k n m (mTx s k fun x => { x with bits := x.bits.drop n, q := x.q ++ [word] })

/-- A unit as lane k scrambles and encodes it, into the lane's queue (R306, R310, R311). -/
def laneEmit (s : State) (k : Nat) (u : LBlk) : State :=
  let c := liveOf s k
  let x := (gLane s k).tx
  if lcCode c = 3 then
    let r := enc8b10b x.disp (u.pay.headD 0) ((u.kf.headD 0).getLsbD 0)
    txFlush k 60 1 (mTx s k fun x => { x with bits := x.bits ++ numBits 10 r.1.toNat, disp := r.2 })
  else
    let r := if lcScr c = 1 then
        let r := scrRun false x.scr (bytesBits u.pay)
        ({ u with pay := bitsBytes r.1 }, mTx s k fun x => { x with scr := r.2 })
      else if lcScr c = 2 then
        let r := lfsrBlk s k false x.lfsr u
        (r.1, mTx s k fun x => { x with lfsr := r.2 })
      else (u, s)
    txFlush k 66 3 (mTx r.2 k fun x => { x with bits := x.bits ++ numBits 2 r.1.hdr.toNat ++ bytesBits r.1.pay })

/-- The link's next unit goes to lane k. The lane owes every word up to it while the unit is a part of a frame. -/
def emitUnit (s : State) (f k : Nat) : State :=
  let r := nextUnit s f
  let s1 := laneEmit r.2 k r.1
  if (gLink s f).asm.busy then mTx s1 k fun x => { x with owed := x.q.length + b2n (!x.bits.isEmpty) } else s1

/-- Units go to lane k until its queue holds a word; the fuel is the most that one word takes. -/
def emitWord (f k : Nat) : Nat → State → State
  | 0, s => s
  | n + 1, s =>
    if !(gLane s k).tx.q.isEmpty then s else emitWord f k n (emitUnit s f k)

/-- The assembler writes one word to every lane of the link (R313, R315, R330). DESIGN CHOICE (log 25): a ×1 link of a code other
than BYPASS and 64B/66B sends no markers whatever MK_EN holds; the manual defines markers for those two codes alone. -/
def asmRound (s : State) (f : Nat) : State :=
  let c := liveOf s f
  let ks := lanesOf s f
  if 2 ≤ lcCode c then emitWord f f 12 s
  else if lcMarkers c && decide ((gLink s f).asm.mkCnt = 0) then
    ks.foldl (fun acc k => mTx acc k fun x => { x with q := x.q ++ [(1, (gLane s k).mkpat)] })
      (mAsm s f fun a => { a with mkCnt := lcMkInt c - 1 })
  else
    ks.foldl (fun acc k => emitUnit acc f k)
      (mAsm s f fun a => { a with mkCnt := a.mkCnt - 1 })

/-- R67, R330 LANE_TX_WORD: the next word of the lane transfers; when its queue is empty, the assembler first writes a word to
every lane of the link, as long as every queue has room. -/
def execLaneTxWord (lane : Fin 64) (s : State) : Out :=
  let k := lane.val
  let f := linkOf s k
  act (up s && !laneQuiet s k) (fun s =>
    let s1 := if (gLane s k).tx.q.isEmpty && linkSends s f && inLink s k &&
        (lanesOf s f).all (fun j => decide ((gLane s j).tx.q.length < 32)) then asmRound s f else s
    match (gLane s1 k).tx.q with
    | w :: t => rbAll (offQuiet (mTx s1 k fun x => { x with q := t, last := some w, owed := x.owed - 1 }) f)
    | [] => s1) s

/-! ### Configuration and the groups' rows (R312, R317, R332–R335) -/

/-- The group's configuration is refused (R306, R335, R336, R338). -/
def lgRefused (x : Lg) : Bool :=
  let c := x.cfg
  let code := lcCode c
  decide (4 ≤ code) || decide (fld c 3 3 = 7) || decide (lcScr c = 3) || decide (lcCrc c = 3) || decide (lcFramer c = 3) ||
    decide (fld c 14 2 = 3) || (decide (1 ≤ fld c 32 16) && decide (fld c 32 16 ≤ 1023)) ||
    (decide (1 ≤ fld x.frm 16 16) && decide (fld x.frm 16 16 ≤ 63)) || decide (fld x.frm 48 8 = 0) ||
    (decide (lcScr c = 2) && decide (fld x.lfsr 0 32 = 0)) ||
    (decide (lcFramer c = 0) && decide (code ≠ 1)) || (decide (lcFramer c = 1) && decide (code ≠ 3)) ||
    (decide (lcFramer c = 2) && decide (lcCrc c ≠ 0)) ||
    (decide (lcScr c ≠ 0) && (decide (code = 0) || decide (code = 3))) || (decide (lcScr c = 1) && decide (code = 2)) ||
    (decide (1 < lcWidth c) && (decide (code = 2) || decide (code = 3)))

/-- The refusal: the event's field number has no stated coding (R335, R341; log 4). -/
def lgRefuse (s : State) (g : Nat) : State :=
  logEv (useFree (mLg s g fun x => { x with cfgErr := true })) 0x4040 [g, (freeVal s).toNat]

/-- Groups of the span of group g under configuration c (R312). -/
def spanOf (g : Nat) (c : W64) : List Nat :=
  let n := lcWidth c / 8
  if n ≤ 1 then [g] else (List.range n).map fun i => g / n * n + i

/-- Every group of the span is enabled with the same live configuration, and none re-bonds. -/
def spanReady (s : State) (g : Nat) : Bool :=
  (spanOf g (gLg s g).live).all fun h =>
    (gLg s h).en && decide ((gLg s h).live = (gLg s g).live) && decide ((gLg s h).rb = .idle)

/-- The links of enabled group g start under its live configuration: LOCKING, or FORMING while the span is not complete
(R317). -/
def linksBegin (s : State) (g : Nat) : State :=
  let s1 := foldNat (fun acc i => laneBegin acc (8 * g + i)) s (List.range 8)
  (linksOf s1 g).foldl (fun acc f =>
    let acc1 := mLink (frDrop (cutFrame acc f) f) f fun l => { l with
      asm := { l.asm with mkCnt := 0 }, fr := { l.fr with hold := false } }
    if spanReady acc1 g then enterLocking acc1 f else mLink acc1 f fun l => { l with st := .forming }) s1

/-- A write of 1 to LG_CTL.EN (R317, R335). -/
def lgOn (s : State) (g : Nat) : State :=
  if (gLg s g).en then s
  else if lgRefused (gLg s g) then lgRefuse s g
  else linksBegin (mLg s g fun x => { x with en := true, live := x.cfg }) g

/-- State of the link with first lane f when group g leaves it: OFF with its first group, else FORMING (R317, R333). -/
def leftState (s : State) (g f : Nat) : LSt := if f / 8 = g || !(gLg s (f / 8)).en then .off else .forming

/-- A link leaves service for state `st`: the receive frame goes, and the transmit queue is discarded (R317, R331). -/
def linkLeave (s : State) (f : Nat) (st : LSt) : State :=
  txDiscard (deskewRestart (frDrop (mLink s f fun l => { l with st := st }) f) f) f

/-- A write of 0 to LG_CTL.EN (R317, R331, R334). A frame being sent goes on, but for one of a re-bonding group, which takes its new
configuration at once; a REBOND that waits for another group's goes on waiting (log 25). -/
def lgOff (s : State) (g : Nat) : State :=
  let x := gLg s g
  if !x.en then s
  else
    let fs := linksOf s g
    let s1 := fs.foldl (fun acc f => linkLeave acc f (leftState s g f)) s
    let s2 := foldNat (fun acc i => mRx acc (8 * g + i) rxHunt) s1 (List.range 8)
    let s3 := mLg s2 g fun y => { y with
      en := false, rebond := y.rebond && decide (x.rb = .idle), rbEc := false, rb := .idle }
    let s4 := fs.foldl (fun acc f => offQuiet (if x.rb = .idle then acc else cutFrame acc f) f) s3
    if x.rb = .idle then s4 else mLg s4 g fun y => { y with live := y.cfg }

/-- R317, R335 LG_ENABLE. -/
def execLgEnable (g : Fin 8) (s : State) : Out := act (up s) (fun s => lgOn s g.val) s

/-- Another group re-bonds. -/
def rbBusy (s : State) : Bool := s.tr.lg.any fun e => decide (e.2.rb ≠ .idle)

/-- REBOND clears, unless it has been written to 1 in the same ec: then it waits to run once more (R13). -/
def rbClear (x : Lg) : Lg := { x with rebond := x.rbEc, rbEc := false, rb := .idle }

/-- A re-bond starts (R332): steps 1 to 3, or for a group in OFF steps 1, 5 and 6, whose time has no stated value. -/
def rbStart (s : State) (g : Nat) : State :=
  let x := gLg s g
  if lgRefused x then lgRefuse (mLg s g rbClear) g
  else if !x.en then
    logEv (useFree (mLg s g fun y => { rbClear y with live := y.cfg })) 0x4041 [g, (freeVal s).toNat]
  else
    let s1 := (linksOf s g).foldl (fun acc f =>
      txDiscard (mLink acc f fun l => { l with st := .rebonding, fr := { l.fr with hold := true } }) f) s
    rbAdvance (mLg s1 g fun y => { y with rb := .drain }) g

/-- A write of 1 to LG_CTL.REBOND (R13, R332, R334). -/
def rbSet (s : State) (g : Nat) : State :=
  if (gLg s g).rebond then mLg s g fun x => { x with rbEc := true }
  else
    let s1 := mLg s g fun x => { x with rebond := true, rbEc := false }
    if rbBusy s then s1 else rbStart s1 g

/-- R331 LG_DISABLE. -/
def execLgDisable (g : Fin 8) (s : State) : Out := act (up s) (fun s => lgOff s g.val) s

/-- R332, R334 REBOND. -/
def execRebond (g : Fin 8) (s : State) : Out := act (up s) (fun s => rbSet s g.val) s

/-- R332 REBOND_START: a REBOND that waited for another group's. -/
def execRebondStart (g : Fin 8) (s : State) : Out :=
  act (up s && (gLg s g.val).rebond && !rbBusy s) (fun s => rbStart s g.val) s

/-- R332 REBOND_DRAIN_EXPIRY: frames still in progress are discarded. -/
def execRebondDrainExpiry (g : Fin 8) (s : State) : Out :=
  act (up s && decide ((gLg s g.val).rb = .drain)) (fun s =>
    rbAdvance ((linksOf s g.val).foldl (fun acc f =>
      if (gLink acc f).fr.cur.isSome then
        mLink (frDrop acc f) f fun l => { l with frmErr := satInc l.frmErr }
      else acc) s) g.val) s

/-- R332, R333, R317 REBOND_QUIET_EXPIRY: the group takes its configuration, its new links start, and the other groups of the
old span enter FORMING. -/
def execRebondQuietExpiry (g : Fin 8) (us : Nat) (s : State) : Out :=
  act (up s && decide ((gLg s g.val).rb = .quiet)) (fun s =>
    let s1 := (linksOf s g.val).foldl (fun acc f =>
      deskewRestart (mLink acc f fun l => { l with st := leftState s g.val f, fr := { l.fr with hold := false } }) f) s
    linksBegin (logEv (mLg s1 g.val fun x => { rbClear x with live := x.cfg }) 0x4041 [g.val, us]) g.val) s

/-- LG_CTL.CNTCLR (R336, R337): every counter of the group's lane pages. -/
def lgCntClr (s : State) (g : Nat) : State :=
  foldNat (fun acc i =>
    let k := 8 * g + i
    mLink (mLane acc k fun l => { l with hdrErr := 0, dispErr := 0, unlock := 0, mkErr := 0 }) k fun l => { l with
      rxFrames := 0, crcBad := 0, runt := 0, storeDrop := 0, bpDrop := 0, truncCnt := 0, frmErr := 0, txFrames := 0
      txErr := 0, underrun := 0, txqDrop := 0 }) s (List.range 8)

/-- R337 CNTCLR. -/
def execCntclr (g : Fin 8) (s : State) : Out := act (up s) (fun s => lgCntClr s g.val) s

end Sys2Proof.Machine
end

