-- ==== Sys2Proof/Machine/SmRing.lean ====
section
/-! DEFINITION. The command and completion rings, how a command is taken, and the life of a long operation (spec/12 R437–R441,
R444–R447, R105). -/

namespace Sys2Proof.Machine

/-! ### Entries (R437–R439) -/

/-- n bytes of an entry from byte i, as a number. -/
def ent (e : List W8) (i n : Nat) : Nat := leNat ((e.drop i).take n)

/-- The oldest command that has not been read. -/
def cmdEntry (s : State) : List W8 := mread s.mg.sm.cmdRing (s.mg.sm.cmdRd.toNat % 64 * 64) 64

/-- The completion ring holds fewer than 64 unread entries. -/
def cplRoom (s : State) : Bool := decide ((s.mg.sm.cplWr - s.mg.sm.cplRd).toNat < 64)

/-- A completion entry is written. -/
def cplPut (s : State) (bs : List W8) : State :=
  mSm s fun m => { m with
    cplRing := mwrite m.cplRing (m.cplWr.toNat % 64 * 32) bs, cplWr := m.cplWr + 1, cpl := true }

/-- A completion entry (R439). -/
def cplBytes (op res tag oph kind : Nat) (data : List W8) : List W8 :=
  leBytes 1 op ++ leBytes 1 res ++ leBytes 2 tag ++ leBytes 2 oph ++ leBytes 2 kind ++
    (data ++ List.replicate 24 0).take 24

/-- DATA from its fields: byte of the entry, number of bytes, value. -/
def dataOf (l : List (Nat × Nat × Nat)) : List W8 :=
  leBytes 24 (l.foldl (fun a x => a + x.2.2 % 256 ^ x.2.1 * 256 ^ (x.1 - 8)) 0)

/-! ### Op slots (R444, R445) -/

/-- An operation that has not ended. -/
def opLive (o : OpSlot) : Bool := decide (o.st = .running) || decide (o.st = .intermission) || decide (o.st = .cancelling)

/-- Slots of the long operations that run. -/
def opsLive (s : State) : List Nat := (List.range 8).filter fun i => opLive (gOp s i)

/-- Opcode of the operation in a slot. -/
def opCode (o : OpSlot) : Nat := ent o.cmd 0 1

/-- A slot whose operation has this opcode and has not ended. -/
def opOf (s : State) (op : Nat) : Option Nat := (opsLive s).find? fun i => decide (opCode (gOp s i) = op)

def opRuns (s : State) (op : Nat) : Bool := (opOf s op).isSome

/-- Op handle of the operation in slot i. -/
def ophOf (s : State) (i : Nat) : Nat := i + 8 * (gOp s i).gen

/-- Slot that an op handle names. -/
def ophSlot (s : State) (h : Nat) : Option Nat :=
  if h / 8 ≠ 0 ∧ (gOp s (h % 8)).gen = h / 8 then some (h % 8) else none

/-- The end completion of the operation in slot i. -/
def endBytes (s : State) (i : Nat) : List W8 :=
  let o := gOp s i
  cplBytes (opCode o) o.result.toNat (ent o.cmd 2 2) (ophOf s i) 1 o.data

/-- End completions that wait are written as room appears, in the order in which the operations ended (R437). -/
def oweOne (s : State) (i : Nat) : State :=
  if (gOp s i).owes && cplRoom s then mOp (cplPut s (endBytes s i)) i fun o => { o with owes := false } else s
def oweFlush (s : State) : State := foldNat oweOne s s.mg.sm.freed

def opStNum : OpSt → Nat
  | .running => 0
  | .intermission => 1
  | .cancelling => 2
  | .cancelled => 3
  | .done => 4
  | .failed => 5

/-! ### Taking a command (R105, R437, R438, R441) -/

/-- Opcodes of the command table (R442). -/
def knownOps : List Nat :=
  [0x01, 0x02, 0x10, 0x11, 0x20, 0x21, 0x22, 0x23, 0x30, 0x31, 0x40, 0x41, 0x50, 0x51, 0x60, 0x61, 0x70, 0x71, 0x78,
    0xF0, 0xF1, 0xF2, 0xF3]

/-- A short command, or one that is refused, completes, and the next entry stands at the head. -/
def cmdDone (s : State) (e : List W8) (res : Nat) (data : List W8) : State :=
  mSm (cplPut s (cplBytes (ent e 0 1) res (ent e 2 2) 0 0 data)) fun m => { m with cmdRd := m.cmdRd + 1 }

/-- The stage manager serves the rings. -/
def smAlive (s : State) : Bool := up s && s.mg.sm.alive

/-- T0 reads a command: one is there, and the completion ring has room. -/
def cmdReady (s : State) : Bool := decide (s.mg.sm.cmdRd ≠ s.mg.sm.cmdWr) && cplRoom s

/-- Entries whose opcode is not in the command table complete with BADOP in their turn. The fuel is the ring's size. -/
def skipBad : Nat → State → State
  | 0, s => s
  | n + 1, s =>
    if cmdReady s && decide (s.aon.power ≠ .boot) && !knownOps.contains (ent (cmdEntry s) 0 1) then
      skipBad n (cmdDone s (cmdEntry s) 0x02 [])
    else s

/-- The restart onto new firmware ends (R452). How long it lasts, within 15 ms, is the model's choice (log 9): to the end of the
ec. -/
def restartEnd (s : State) : State :=
  if s.mg.sm.restart then
    logEv (mSm s fun m => { m with alive := true, restart := false }) 0x7002 [b2n s.blk.fwSlot, s.mg.sm.fwVersion.toNat]
  else s

/-- What T0 does before it looks at the head of the ring. -/
def smBegin (s : State) : State := if smAlive s then skipBad 64 (oweFlush s) else s

/-- The head of the ring is a command with this opcode, and its turn has come (R105). -/
def smHead (s : State) (op : Nat) : Bool :=
  smAlive s && cmdReady s && decide (ent (cmdEntry s) 0 1 = op) &&
    (decide (s.aon.power ≠ .boot) || decide (op = 0x01 ∨ op = 0x02 ∨ op = 0x30))

/-- FLAGS holds only bits of `flags`, and every byte that no field uses is 0 (R438). -/
def entryOk (e : List W8) (flags : W8) (used : List (Nat × Nat)) : Bool :=
  decide (e.getD 1 0 &&& ~~~ flags = 0) &&
    (List.range 64).all fun i => decide (i < 4) || used.any (fun u => decide (u.1 ≤ i ∧ i < u.1 + u.2)) || decide (e.getD i 0 = 0)

/-- Form of a command: FLAGS bits it takes and the fields of PARAM (byte, length) that it uses. -/
structure CmdForm where
  op    : Nat
  flags : W8 := 0
  used  : List (Nat × Nat) := []

/-- The command at the head: refused in RECOVERY (R105), or for its form, or carried out by `f`. -/
def smRun (s : State) (c : CmdForm) (f : List W8 → State → State) : State :=
  let e := cmdEntry s
  if decide (s.aon.power = .recovery) && !(decide (c.op = 0x01 ∨ c.op = 0x02 ∨ c.op = 0x30 ∨ c.op = 0x40 ∨ c.op = 0x41)) then
    cmdDone s e 0x05 []
  else if !entryOk e c.flags c.used then cmdDone s e 0x03 []
  else f e s

/-- A short command. -/
def shortCmd (c : CmdForm) (f : List W8 → State → State) (s : State) : Out :=
  let s1 := smBegin s
  .next (if smHead s1 c.op then smRun s1 c f else s1)

/-- A long command: at the head of the ring it is accepted or refused; otherwise the operation that runs goes on. -/
def longCmd (c : CmdForm) (accept : List W8 → State → State) (run : Nat → State → State) (s : State) : Out :=
  let s1 := smBegin s
  .next (if smHead s1 c.op then smRun s1 c accept
    else if smAlive s1 then
      match opOf s1 c.op with
      | some i => run i s1
      | none => s1
    else s1)

/-! ### BUSY, start and end (R424, R444–R447) -/

/-- Groups of which one operation runs at a time. -/
def groupOf (op : Nat) : List Nat :=
  if op = 0x40 ∨ op = 0x41 then [0x40]
  else if op = 0x50 ∨ op = 0x51 ∨ op = 0x60 ∨ op = 0x70 ∨ op = 0x71 then [0x50, 0x51, 0x60, 0x70, 0x71]
  else if op = 0x21 ∨ op = 0x23 then [0x23]
  else []

/-- An operation of the command's group runs. -/
def groupBusy (s : State) (op : Nat) : Bool := (groupOf op).any (opRuns s)

/-- CHECKPOINT or RESTORE runs. -/
def ckRuns (s : State) : Bool := opRuns s 0x70 || opRuns s 0x71

/-- A long command is refused with BUSY. -/
def longBusy (s : State) (op : Nat) : Bool := decide (8 ≤ (opsLive s).length) || opRuns s op || groupBusy s op

/-- A command that needs the MRAM ends with MRAMERR after a failed unit write (R424). -/
def needMram (s : State) (e : List W8) (f : State → State) : State :=
  if s.mg.mram.wrErr then cmdDone (takeWrErr s) e 0x0E [] else f s

/-- A long command is accepted: its slot, OP_START, event 0x7030 and the STARTED completion; `f` sets what the operation needs
in its slot. -/
def opStart (s : State) (e : List W8) (total : Nat) (f : OpSlot → OpSlot) : State :=
  let i := s.mg.sm.freed.headD 0
  let gen := if 8191 ≤ (gOp s i).gen then 1 else (gOp s i).gen + 1
  let s1 := mOp (mSm s fun m => { m with freed := m.freed.tail }) i fun _ => f {
    gen := gen, st := .running, cmd := e, total := total, start := s.tb.now, t0 := s.tb.now }
  let h := ophOf s1 i
  let s2 := jAppend s1 (.opStart (BitVec.ofNat 16 h) (BitVec.ofNat 8 (ent e 0 1)) (e.drop 8))
  let s3 := cplPut (logEv s2 0x7030 [h, ent e 0 1]) (cplBytes (ent e 0 1) 0x01 (ent e 2 2) h 0 [])
  mSm s3 fun m => { m with cmdRd := m.cmdRd + 1 }

/-- The slot that `opStart` takes. -/
def nextSlot (s : State) : Nat := s.mg.sm.freed.headD 0

/-- Accepts a long command, unless R447 or a failed MRAM write refuses it. -/
def longAccept (total : Nat) (f : OpSlot → OpSlot) (e : List W8) (s : State) : State :=
  if longBusy s (ent e 0 1) then cmdDone s e 0x04 []
  else needMram s e fun s => opStart s e total f

/-- The operation in slot i ends: OP_END, event 0x7031, and the end completion when the ring has room. -/
def opEnd (s : State) (i : Nat) (st : OpSt) (res : W8) (data : List W8) : State :=
  let s1 := mOp s i fun o => { o with st := st, result := res, data := data, susp := false, img := none, owes := true }
  let h := ophOf s1 i
  let s2 := jAppend s1 (.opEnd (BitVec.ofNat 16 h) res)
  let s3 := logEv s2 0x7031 [h, opCode (gOp s1 i), opStNum st, res.toNat]
  oweFlush (mSm s3 fun m => { m with freed := m.freed ++ [i] })

def opOk (s : State) (i : Nat) (data : List W8) : State := opEnd s i .done 0x00 data
def opFail (s : State) (i : Nat) (res : W8) : State := opEnd s i .failed res []
def opCancelled (s : State) (i : Nat) : State := opEnd s i .cancelled 0x0C []

/-- An operation that needs the MRAM ends with MRAMERR after a failed unit write (R424). -/
def opMram (s : State) (i : Nat) (f : State → State) : State :=
  if s.mg.mram.wrErr then opFail (takeWrErr s) i 0x0E else f s

/-- µs since a timebase value. -/
def usSince (s : State) (t : W64) : Nat := (s.tb.now - t).toNat / tickUs

end Sys2Proof.Machine
end

