-- ==== Sys2Proof/Machine/RegCore.lean ====
section
/-! DEFINITION. Registers of the global range, the mailbox, the timebase, the callboard, debug and the engine control pages
(spec/01 R10–R14, R27–R29, spec/02 to 07, 12, 13). A `Get` gives what a register reads, none where no register lies; a `Put`
takes `d`, the register as the enabled bytes of the write make it, and `w`, the written data with the other bytes at 0. -/

namespace Sys2Proof.Machine

/-- The enabled bytes of `data`, the others from `old` (R44). -/
def mergeBe (be : W8) (data old : W64) : W64 :=
  BitVec.ofNat 64 (leNat ((List.range 8).map fun i =>
    if be.getLsbD i then data.extractLsb' (8 * i) 8 else old.extractLsb' (8 * i) 8))

/-- A sum of fields, each with its place. -/
def word (l : List (Nat × Nat)) : Nat := l.foldl (fun a x => a + x.2 * 2 ^ x.1) 0

/-! ### Global range (R49, R50, R80, R81, R112–R114) -/

def blkStat (b : Blk) : Nat :=
  word [(0, b2n b.ready), (1, b2n b.unmapped), (2, b2n b.recovery), (3, b2n b.uncal), (4, b2n b.norep), (5, b2n b.firstUse),
    (6, b2n b.fwSlot), (7, b2n b.degraded), (8, b.bootStep.toNat), (12, b.swingFree.toNat)]

def hpStat (h : Hp) : Nat := word [(0, b2n h.perr), (1, b2n h.tmo), (16, h.errCnt.toNat)]

/-- Bit p of a word for each physical engine that satisfies `f`. -/
def peBits (s : State) (f : Pe → Bool) (lo n : Nat) : Nat :=
  word ((List.range n).map fun i => (i, b2n (f (gPe s (lo + i)))))

def globGet (s : State) (a : Nat) : Option Nat :=
  match a with
  | 0x8 => some (blkStat s.blk)
  | 0x100 => some (b2n s.hp.parEn)
  | 0x108 => some (hpStat s.hp)
  | 0x200 => some (word [(0, s.clk.out.toNat), (32, s.clk.seen.toNat)])
  | 0x210 => some (peBits s (fun x => decide (x.st = .on)) 0 64)
  | 0x218 => some (word [(0, peBits s (fun x => decide (x.st = .on)) 64 4), (32, peBits s (fun x => x.failed) 64 4)])
  | 0xFF0 => some (aonStat s.aon).toNat
  | 0xFF8 => some (b2n s.aon.isolate)
  | _ => none

/-- The write of AON_CTL (R81). -/
def aonCtlPut (s : State) (d : W64) : State := if d.getLsbD 0 then isolateSet s else isolateClr s

def globPut (s : State) (a : Nat) (d w : W64) : Option State :=
  match a with
  | 0x8 => some (mBlk s fun b => { b with unmapped := b.unmapped && !w.getLsbD 1 })
  | 0x100 => some (mHp s fun h => { h with parEn := d.getLsbD 0 })
  | 0x108 => some (mHp s fun h => { h with perr := h.perr && !w.getLsbD 0, tmo := h.tmo && !w.getLsbD 1 })
  | 0x200 => some (mClk s fun c => { c with seen := c.seen &&& ~~~ w.extractLsb' 32 32 })
  | 0xFF8 => some (aonCtlPut s d)
  | _ => (globGet s a).map fun _ => s

/-! ### Interrupt sources (R50, R102, R406, R464) -/

/-- The sources of the global interrupt registers that the manual gives: host port, DMA, stage manager, READY. -/
def irqSources (s : State) : List Bool :=
  [s.hp.perr || s.hp.tmo, decide (s.mv.doneMap ≠ 0) || decide (s.mv.errMap ≠ 0),
   (s.mg.sm.ringErr && s.mg.sm.intEn.getLsbD 0) || (s.mg.sm.cpl && s.mg.sm.intEn.getLsbD 1) ||
     (s.mg.sm.sensBit && s.mg.sm.intEn.getLsbD 2) || (s.mg.sm.engRpt && s.mg.sm.intEn.getLsbD 3),
   s.blk.readyIrq]

/-- `irq[3:0]` (R40): 0 behind the curtain, and while no source is asserted. -/
def irqOut (s : State) : BitVec 4 :=
  if up s && (irqSources s).any id then Config.irqLines (irqSources s) else 0

/-! ### Mailbox (R437, R464) -/

def smGet (s : State) (o : Nat) : Option Nat :=
  let m := s.mg.sm
  if 0x100 ≤ o ∧ o < 0x240 then
    let x := gSens s ((o - 0x100) / 8)
    some (word [(0, x.value.toNat), (16, b2n x.warn), (17, b2n x.crit)])
  else if 0x1000 ≤ o ∧ o < 0x2000 then some (leNat (mread m.cmdRing (o - 0x1000) 8))
  else if 0x2000 ≤ o ∧ o < 0x2800 then some (leNat (mread m.cplRing (o - 0x2000) 8))
  else match o with
    | 0x00 => some (word [(0, b2n m.alive), (1, b2n m.ringErr), (2, b2n m.cpl), (3, b2n m.sensBit), (4, b2n m.engRpt),
        (8, (opsLive s).length), (32, m.heartbeat.toNat)])
    | 0x08 => some (2 * m.intEn.toNat)
    | 0x10 => some m.cmdWr.toNat
    | 0x18 => some m.cmdRd.toNat
    | 0x20 => some m.cplWr.toNat
    | 0x28 => some m.cplRd.toNat
    | _ => none

def smPut (s : State) (o : Nat) (d w : W64) : Option State :=
  if 0x1000 ≤ o ∧ o < 0x2000 then
    some (mSm s fun m => { m with cmdRing := mwrite m.cmdRing (o - 0x1000) (leBytes 8 d.toNat) })
  else match o with
    | 0x00 => some (mSm s fun m => { m with
        ringErr := m.ringErr && !w.getLsbD 1, cpl := m.cpl && !w.getLsbD 2, sensBit := m.sensBit && !w.getLsbD 3
        engRpt := m.engRpt && !w.getLsbD 4 })
    | 0x08 => some (mSm s fun m => { m with intEn := d.extractLsb' 1 4 })
    | 0x10 => some (mSm s fun m =>
        if 64 < (d.extractLsb' 0 32 - m.cmdRd).toNat then { m with ringErr := true }
        else { m with cmdWr := d.extractLsb' 0 32 })
    | 0x28 => some (oweFlush (mSm s fun m => { m with cplRd := d.extractLsb' 0 32 }))
    | _ => (smGet s o).map fun _ => s

/-! ### Timebase (R255, R256) -/

/-- E in whole ticks, saturated to 32 bits. -/
def phaseErr (e : Int) : W32 :=
  let x := e.tdiv 65536
  if x < -(2 ^ 31 : Int) then 0x80000000 else if (2 ^ 31 : Int) ≤ x then 0x7FFFFFFF else BitVec.ofInt 32 x

/-- A read of TB_NOW (R255): a master other than the host and the debugger has a snapshot, and reads halves. -/
def tbNowGet (s : State) (reader : Nat) (be : W8) : Nat × State :=
  let hi := s.tb.now.extractLsb' 32 32
  if reader = 0xF00 ∨ be = 0xFF then (s.tb.now.toNat, s)
  else if be.getLsbD 0 then (s.tb.now.toNat, mTb s fun t => { t with snap := tset none t.snap reader (some hi) })
  else
    let x := (tget none s.tb.snap reader).getD hi
    (x.toNat * 2 ^ 32, mTb s fun t => { t with snap := tdel t.snap reader })

def tbGet (s : State) (o : Nat) : Option Nat :=
  let t := s.tb
  match o with
  | 0x00 => some t.now.toNat
  | 0x10 => some (word [(0, b2n t.discEn), (1, b2n t.ppsEn)])
  | 0x18 => some (word [(0, b2n t.unsettled), (1, b2n t.holdover), (2, b2n t.ppsLock), (3, b2n t.clamp), (4, b2n t.gap),
      (8, min t.k 255), (32, (phaseErr t.eAcc).toNat)])
  | 0x20 => some t.corr.toNat
  | 0x28 => some t.pps.toNat
  | _ => none

def tbPut (s : State) (o : Nat) (d w : W64) : Option State :=
  match o with
  | 0x10 => some (mTb s fun t =>
      let t1 := if d.getLsbD 0 && !t.discEn then tbRestart t else t
      let t2 := if d.getLsbD 1 then t1 else { t1 with ppsLock := false, x := nomX }
      { t2 with discEn := d.getLsbD 0, ppsEn := d.getLsbD 1 })
  | 0x18 => some (mTb s fun t => { t with clamp := t.clamp && !w.getLsbD 3, gap := t.gap && !w.getLsbD 4 })
  | _ => (tbGet s o).map fun _ => s

/-! ### Callboard (R245) -/

def cbGet (s : State) (o : Nat) : Option Nat :=
  if 0x100 ≤ o ∧ o < 0x200 then
    some (word ((s.en.cb.ssMap.filter fun g => decide (g / 64 = (o - 0x100) / 8)).map fun g => (g % 64, 1)))
  else none

/-! ### Debug (R466–R481) -/

def lockStat (l : DbgLock) : Nat :=
  word [(0, b2n l.unlocked), (1, l.scope.toNat), (4, l.keySlot.toNat), (6, b2n l.busy), (8, l.lastFail.toNat),
    (16, l.fails.toNat)]

def thrDbgGet (x : ThrDbg) : Nat :=
  word [(0, b2n x.pending), (2, b2n x.stepping), (3, b2n x.bken), (8, b2n x.halted), (9, b2n x.pending), (10, x.reason.toNat), (16, x.bknum.toNat)]

def thrDbgPut (s : State) (g : Nat) (d w : W64) : State :=
  let s1 := mThr s (thrKey s g) fun t => { t with dbg := { t.dbg with bken := d.getLsbD 3 } }
  let s2 := if w.getLsbD 2 then dbgGo s1 g true else if w.getLsbD 1 then dbgGo s1 g false else s1
  if w.getLsbD 0 then dbgHalt s2 g else s2

def bpGet (x : Bp) : Nat := word [(0, x.addr.toNat), (48, x.thread.toNat), (53, b2n x.any), (54, b2n x.en)]

def bpOf (d : W64) : Bp :=
  { addr := d.extractLsb' 0 48 &&& ~~~ (3 : W48), thread := d.extractLsb' 48 5, any := d.getLsbD 53, en := d.getLsbD 54 }

def sqDbgGet (x : Sq) : Nat :=
  word [(0, b2n (x.req.contains .halt)), (2, b2n x.stepping), (3, b2n x.bpEn), (4, b2n (decide (x.st = .halt))),
    (16, x.bpAddr.toNat)]

def sqDbgPut (s : State) (b : Nat) (d w : W64) : State :=
  let s1 := mSq s b fun x => { x with bpEn := d.getLsbD 3, bpAddr := d.extractLsb' 16 12 }
  let s2 := if w.getLsbD 2 then sqGo s1 b true else if w.getLsbD 1 then sqGo s1 b false else s1
  if w.getLsbD 0 then sqHalt s2 b else s2

/-- DBG_THRg, DBG_BPe_n and DBG_SEQb: index of the register, when the offset is one. -/
def isThrDbg (o : Nat) : Bool := decide (0x1000 ≤ o ∧ o < 0x5000)
def isBpDbg (o : Nat) : Bool := decide (0x8000 ≤ o ∧ o < 0x8800)
def isSqDbg (o : Nat) : Bool := decide (0x9000 ≤ o ∧ o < 0x9100)

def dbgGet (s : State) (o : Nat) : Option Nat :=
  let open_ := s.mg.lock.unlocked
  if isThrDbg o then
    let g := (o - 0x1000) / 8
    some (if open_ && isMapped s (g / 32) then thrDbgGet (gThr s (thrKey s g)).dbg else 0)
  else if isBpDbg o then some (if open_ then bpGet (gBp s ((o - 0x8000) / 8)) else 0)
  else if isSqDbg o then some (if open_ then sqDbgGet (gSq s ((o - 0x9000) / 8)) else 0)
  else if 0x100 ≤ o ∧ o < 0x200 then some (leNat (mread s.mg.lock.token (o - 0x100) 8))
  else match o with
    | 0x00 => some (lockStat s.mg.lock)
    | 0x08 => some (b2n s.mg.lock.busy)
    | 0x10 => some s.mg.lock.chal.toNat
    | _ => none

def dbgPut (s : State) (o : Nat) (d w : W64) : Option State :=
  if isThrDbg o then
    let g := (o - 0x1000) / 8
    some (if scopeOn s 0 && isMapped s (g / 32) then thrDbgPut s g d w else s)
  else if isBpDbg o then
    some (if scopeOn s 0 then { s with mg := { s.mg with bp := tset {} s.mg.bp ((o - 0x8000) / 8) (bpOf d) } } else s)
  else if isSqDbg o then some (if scopeOn s 0 then sqDbgPut s ((o - 0x9000) / 8) d w else s)
  else if 0x100 ≤ o ∧ o < 0x200 then
    some (mLock s fun l => { l with token := mwrite l.token (o - 0x100) (leBytes 8 d.toNat) })
  else match o with
    | 0x08 =>
      let s1 := if w.getLsbD 0 then dbgUnlock s else s
      some (if w.getLsbD 1 then dbgRelock s1 else s1)
    | _ => (dbgGet s o).map fun _ => s

/-! ### Engine control pages (R127–R129, R206–R214, R222–R224, R233–R235, R241, R245, R270) -/

/-- Eight positions of a bill from position n. -/
def billWord (t : Tab (Option W8)) (n : Nat) : Nat := leNat ((List.range 8).map fun j => billByte t (n + j))

/-- Eight shadow positions take the bytes of `d`; the reserved bits read 0. -/
def billPut (t : Tab (Option W8)) (n : Nat) (d : W64) : Tab (Option W8) :=
  foldNat (fun t j => billSet t (n + j) (d.extractLsb' (8 * j) 8 &&& 0x9F)) t (List.range 8)

def thrStNum : TSt → Nat
  | .run => 0
  | .wait => 1
  | .halt => 2
  | .faulted => 3

def thrStatGet (t : Thread) : Nat :=
  word [(0, thrStNum t.st), (2, b2n (decide (t.st = .run) && t.held.isSome)), (3, b2n t.save.isSome), (4, b2n t.late),
    (5, b2n t.curtain), (8, t.fcode.toNat)]

/-- A thread's registers; k is its key, o the offset in its page. -/
def thrGet (s : State) (k o : Nat) : Option Nat :=
  let t := gThr s k
  match o with
  | 0x00 => some (word [(0, b2n t.rstrap), (1, b2n (isSupv s k))])
  | 0x08 => some 0
  | 0x10 => some (thrStatGet t)
  | 0x18 => some t.r.pc.toNat
  | 0x20 => some t.vbase.toNat
  | 0x28 => some (word [(0, t.evEn.toNat), (16, (pendNow s k).toNat), (32, t.evPin.toNat), (40, t.evDma.toNat)])
  | 0x30 => some (word [(0, t.wdLimit.toNat), (32, t.wdCount.toNat)])
  | _ => none

def thrPut (s : State) (k o : Nat) (d w : W64) : Option State :=
  match o with
  | 0x00 => some (mThr s k fun t => { t with
      rstrap := d.getLsbD 0, supv := if k % 32 = 0 then t.supv else d.getLsbD 1 })
  | 0x08 => some (if w.getLsbD 0 then restartThr s k (w.getLsbD 1) else s)
  | 0x10 => some (mThr s k fun t => { t with late := t.late && !w.getLsbD 4 })
  | 0x18 => some (mThr s k fun t =>
      if t.st = .faulted ∨ t.st = .halt then { t with r := { t.r with pc := d.extractLsb' 0 48 } } else t)
  | 0x20 => some (mThr s k fun t => { t with vbase := d.extractLsb' 0 48 &&& ~~~ (255 : W48) })
  | 0x28 => some (thrEvPut s k d)
  | 0x30 => some (mThr s k fun t => { t with wdLimit := d.extractLsb' 0 24 })
  | _ => none

def txStNum : TxSt → Nat
  | .idle => 0
  | .opening => 1
  | .opn => 2
  | .closing => 3
  | .aborted => 4

def ceStatGet (c : Ce) : Nat :=
  word [(0, txStNum c.txst), (4, c.cred), (8, c.txPeer), (24, c.cause.toNat), (32, b2n c.rxBusy), (33, c.rxBuf.length),
    (37, b2n c.rxAbt.isSome), (38, c.rxPeer), (52, b2n c.stall)]

def ceGet (c : Ce) (o : Nat) : Option Nat :=
  match o with
  | 0x00 => some 0
  | 0x08 => some c.tmo.toNat
  | 0x10 => some (ceStatGet c)
  | _ => none

def cePut (s : State) (ep o who : Nat) (d w : W64) : Option State :=
  match o with
  | 0x00 =>
    let s1 := if w.getLsbD 0 then ceAbortRx s ep who else s
    some (if w.getLsbD 1 then ceAbortOut s1 ep who else s1)
  | 0x08 => some (mCe s ep fun c => { c with tmo := d.extractLsb' 0 16 })
  | 0x10 => some (mCe s ep fun c => { c with stall := c.stall && !w.getLsbD 52 })
  | _ => none

/-- The shadow as the present ec found it is kept for a switch of the same ec (R122). -/
def shdNote (e : Eng) : Eng := { e with shdWas := some (e.shdWas.getD (e.shd, e.mode)) }

/-- Registers of the page below 0x0200. -/
def engCtlGet (s : State) (p o : Nat) : Option Nat :=
  let e := gEng s p
  if o < 0x40 then some (billWord e.shd o)
  else if o < 0x80 then some (billWord e.live (o - 0x40))
  else match o with
    | 0x80 => some e.mode.toNat
    | 0x88 => some e.modeLive.toNat
    | 0x90 => some (b2n e.commit.isSome)
    | 0x98 => some (word [(0, b2n e.commit.isSome), (1, b2n e.reject), (2, e.rejWhy.toNat),
        (16, (lapCount s - e.lapAt) % 2 ^ 32)])
    | 0x100 => some (word [(0, e.haltLimit.toNat), (16, b2n e.noDefer)])
    | 0x108 => some e.fltmap.toNat
    | 0x110 => some (word ((s.en.cb.ssMap.filter fun g => decide (logicalOf s p = some (g / 32))).map fun g => (g % 32, 1)))
    | 0x118 => some e.notice.toNat
    | _ => none

def engCtlPut (s : State) (p o : Nat) (d w : W64) : Option State :=
  if o < 0x40 then some (mEng s p fun e => { shdNote e with shd := billPut e.shd o d })
  else match o with
    | 0x80 => some (mEng s p fun e => { shdNote e with mode := d.extractLsb' 0 32 })
    | 0x90 => some (if w.getLsbD 0 then commitSet s p else s)
    | 0x98 => some (mEng s p fun e => { e with reject := e.reject && !w.getLsbD 1 })
    | 0x100 => some (mEng s p fun e => { e with haltLimit := d.extractLsb' 0 16, noDefer := d.getLsbD 16 })
    | 0x108 => some (mEng s p fun e => { e with fltmap := e.fltmap &&& ~~~ w.extractLsb' 0 32 })
    | 0x118 => some (mEng s p fun e => { e with notice := e.notice &&& ~~~ w.extractLsb' 0 3 })
    | _ => (engCtlGet s p o).map fun _ => s

/-- A read in the page of physical engine p, at offset o, of the bytes `be`; none: no register. Timer reads act (R268,
R269), when they reach the low half. -/
def engRead (s : State) (reader p o : Nat) (be : W8) : Option (Nat × State) :=
  if o < 0x200 then (engCtlGet s p o).map fun x => (x, s)
  else if o < 0x400 then
    if be &&& 0x0F = 0 then (tmrGet s p ((o - 0x200) / 0x80) ((o - 0x200) % 0x80 / 8) reader).map fun _ => (0, s)
    else (tmrGet s p ((o - 0x200) / 0x80) ((o - 0x200) % 0x80 / 8) reader).map fun x => (x.1.toNat, x.2)
  else if 0x1000 ≤ o ∧ o < 0x1800 then (thrGet s (p * 32 + (o - 0x1000) / 0x40) (o % 0x40)).map fun x => (x, s)
  else if 0x2000 ≤ o ∧ o < 0x3000 then
    (ceGet (match logicalOf s p with
      | some e => gCe s (e * 128 + (o - 0x2000) / 0x20)
      | none => {}) (o % 0x20)).map fun x => (x, s)
  else none

/-- A write in the page of physical engine p. A timer register of which no low byte is written stays as it is. -/
def engWrite (s : State) (who p o : Nat) (be : W8) (data : W64) : Option State :=
  let w := mergeBe be data 0
  if o < 0x200 then (engCtlGet s p o).bind fun x => engCtlPut s p o (mergeBe be data (BitVec.ofNat 64 x)) w
  else if o < 0x400 then
    let n := (o - 0x200) / 0x80
    let sel := (o - 0x200) % 0x80 / 8
    match tmrGet s p n sel who with
    | none => none
    | some x =>
      if be &&& 0x0F = 0 then some s
      else tmrPut s p n sel false ((if sel = 7 ∨ sel = 8 then w else mergeBe be data (x.1.setWidth 64)).extractLsb' 0 32)
  else if 0x1000 ≤ o ∧ o < 0x1800 then
    let k := p * 32 + (o - 0x1000) / 0x40
    (thrGet s k (o % 0x40)).bind fun x => thrPut s k (o % 0x40) (mergeBe be data (BitVec.ofNat 64 x)) w
  else if 0x2000 ≤ o ∧ o < 0x3000 then
    match logicalOf s p with
    | some e =>
      let ep := e * 128 + (o - 0x2000) / 0x20
      (ceGet (gCe s ep) (o % 0x20)).bind fun x => cePut s ep (o % 0x20) who (mergeBe be data (BitVec.ofNat 64 x)) w
    | none => (ceGet {} (o % 0x20)).map fun _ => s
  else none

end Sys2Proof.Machine
end

