-- ==== Sys2Proof/Machine/RegIo.lean ====
section
/-! DEFINITION. Registers of the usher, the box office, the DMA channels, the pin banks, the lane groups, the DUT ports, the
memory ports and the atomic units (spec/08 to 11). `Get` and `Put` as in RegCore. -/

namespace Sys2Proof.Machine

/-! ### Usher (R378, R379) -/

def ushGlobGet (s : State) (reader o : Nat) : Option Nat :=
  let u := s.tr.ush
  match o with
  | 0x00 => some (word [(0, u.win.length), (16, b2n u.wfull), (17, b2n u.chWait), (18, b2n u.cfgErr), (32, u.chDrop.toNat)])
  | 0x10 => some 0
  | 0x18 => some (word [(0, (tget (0, 0) u.entres reader).1.toNat), (32, (tget (0, 0) u.entres reader).2.toNat)])
  | 0x20 => some u.chain.toNat
  | 0x30 => some (word [(0, b2n u.pbEn), (1, b2n u.pbWrap), (8, u.pbLog2.toNat)])
  | 0x38 => some u.pbBase.toNat
  | 0x40 => some u.pbWr.toNat
  | 0x48 => some u.pbRd.toNat
  | _ => none

/-- A write that USH_CHAIN or the prompt book takes only while no lane group and no DUT port is enabled, and only with an
area in external memory. -/
def ushCfgPut (s : State) (good : Bool) (f : Ush → Ush) : State :=
  mUsh s fun u => if good && !anyPortOn s then f u else { u with cfgErr := true }

/-- Bytes of the record area that a value of USH_CHAIN names. -/
def chainArea (d : W64) : Nat := (if fld d 48 16 = 0 then 65536 else fld d 48 16) * 1024

def ushGlobPut (s : State) (reader o : Nat) (d w : W64) : Option State :=
  match o with
  | 0x00 => some (mUsh s fun u => { u with
      wfull := u.wfull && !w.getLsbD 16, chWait := u.chWait && !w.getLsbD 17, cfgErr := u.cfgErr && !w.getLsbD 18 })
  | 0x20 => some (ushCfgPut s (!d.getLsbD 0 || inExt (fld d 10 38 * 1024) (chainArea d)) fun u => { u with
      chain := d &&& 0xFFFFFFFFFFFFFC01 })
  | 0x30 => some (ushCfgPut s
      (decide (10 ≤ fld d 8 5 ∧ fld d 8 5 ≤ 27) &&
        (!d.getLsbD 0 || inExt s.tr.ush.pbBase.toNat (2 ^ fld d 8 5 * 32))) fun u => { u with
      pbEn := d.getLsbD 0, pbWrap := d.getLsbD 1, pbLog2 := d.extractLsb' 8 5 })
  | 0x38 => some (ushCfgPut s true fun u => { u with pbBase := d.extractLsb' 0 48 &&& ~~~ (0xFFF : W48) })
  | 0x48 => some (pbIssue (mUsh s fun u => { u with pbRd := d.extractLsb' 0 32 }))
  | _ => (ushGlobGet s reader o).map fun _ => s

/-- The packet at the head of a domain. -/
def domHead (s : State) (n : Nat) : Option Pkt :=
  match (gDom s n).q with
  | w :: _ => gWin s w
  | [] => none

/-- HEADSEQ: of an empty domain that has held packets the manual leaves it open (log 4). -/
def headSeq (s : State) (n : Nat) : Nat :=
  match domHead s n with
  | some k => k.seq.toNat
  | none => if (gDom s n).nextSeq = 0 then 0 else (freeVal s).toNat % 2 ^ 32

def domGet (s : State) (n o : Nat) : Option Nat :=
  let d := gDom s n
  match o with
  | 0x00 => some (word [(0, d.tmo.toNat), (24, d.owner.toNat), (32, d.lim.toNat)])
  | 0x08 => some d.engines.toNat
  | 0x10 => some (word [(0, d.q.length), (16, b2n d.timedOut), (17, b2n d.fdMiss), (18, b2n (domBlocked s n)),
      (19, b2n d.fdLost), (32, headSeq s n)])
  | 0x18 => some (word [(0, d.nextSeq.toNat), (32, match domHead s n with | some k => k.handle.toNat | none => 0)])
  | 0x20 => some (word [(0, b2n d.fdBy.isSome), (32, d.fdHandle.toNat)])
  | 0x28 => some (word [(0, d.retired.toNat), (32, d.dropped.toNat), (48, d.fdrops.toNat)])
  | _ => none

def domPut (s : State) (who : Requester) (n o : Nat) (d w : W64) : Option State :=
  match o with
  | 0x00 => some (mDom s n fun x => { x with
      tmo := d.extractLsb' 0 24, owner := d.extractLsb' 24 6, lim := d.extractLsb' 32 15 })
  | 0x08 => some (mDom s n fun x => { x with engines := d })
  | 0x10 => some (mDom s n fun x => { x with
      timedOut := x.timedOut && !w.getLsbD 16, fdMiss := x.fdMiss && !w.getLsbD 17, fdLost := x.fdLost && !w.getLsbD 19 })
  | 0x20 => some (
      if mayForce s n who then
        let s1 := mDom s n fun x => { x with fdHandle := d.extractLsb' 32 32 }
        if w.getLsbD 0 then forceDrop s1 (readerOf who) n (d.extractLsb' 32 32) else s1
      else s)
  | _ => (domGet s n o).map fun _ => s

/-! ### Box office (R380) -/

def boxGlobGet (s : State) (o : Nat) : Option Nat :=
  let b := s.tr.box
  match o with
  | 0x00 => some (word [(0, b2n b.en), (16, b.retry.toNat)])
  | 0x08 => some (word [(0, b.filled.toNat), (8, b.empty.toNat), (16, b2n b.allocFull), (17, b2n b.retStall),
      (18, b2n b.cfgErr), (19, b2n b.draining), (32, b.held.length)])
  | 0x10 => some 0
  | _ => none

/-- A write of BOX_CFG: one with RETRY 0, or that EN cannot take now, is discarded in full (R356, R361). -/
def boxCfgPut (s : State) (d : W64) : State :=
  if d.extractLsb' 16 16 = 0 || (if d.getLsbD 0 then s.tr.box.draining else anyPortOn s) then boxCfgErr s
  else
    let s1 := mBox s fun b => { b with retry := d.extractLsb' 16 16 }
    if d.getLsbD 0 then boxOn s1 else boxOff s1

/-- A write of BOX_FREE: a thread that does not hold the handle is to take fault 0x0D. -/
def boxFreePut (s : State) (who : Requester) (h : W32) : State × Option W8 :=
  match boxFree s (readerOf who) h with
  | some s1 => (s1, none)
  | none => (s, match who with | .thread _ => some 0x0D | _ => none)

def boxGlobPut (s : State) (o : Nat) (d w : W64) : Option State :=
  match o with
  | 0x00 => some (boxCfgPut s d)
  | 0x08 => some (mBox s fun b => { b with
      empty := b.empty &&& ~~~ w.extractLsb' 8 8, allocFull := b.allocFull && !w.getLsbD 16
      retStall := b.retStall && !w.getLsbD 17, cfgErr := b.cfgErr && !w.getLsbD 18 })
  | _ => (boxGlobGet s o).map fun _ => s

def poolGet (s : State) (p o : Nat) : Option Nat :=
  match o with
  | 0x00 => some (boxPoolGet s p).toNat
  | 0x08 => some (word [(0, (gPool s p).cache.length), (16, (gPool s p).fifo.length)])
  | 0x10 => some 0
  | _ => none

/-! ### Pin banks (R282, R286, R299, R304) -/

def pinStatGet (s : State) (k : Nat) : Nat :=
  let p := gPin s k
  word [(0, b2n (pinLevel s k)), (1, b2n p.oe), (2, b2n p.sync), (8, p.cueQ.length), (16, p.capQ.length), (24, b2n p.late),
    (25, b2n p.full), (26, b2n p.ovr), (32, p.drop.toNat), (48, p.cueDrop.toNat)]

def sqStNum : SqSt → Nat
  | .stopped => 0
  | .run => 1
  | .wait => 2
  | .trapped => 3
  | .paused => 4
  | .halt => 5

def seqStatGet (x : Sq) : Nat :=
  word [(0, sqStNum x.st), (3, b2n x.done), (4, b2n x.late), (5, b2n x.pmwErr), (6, b2n x.strErr), (8, x.tcause.toNat),
    (16, x.targ.toNat), (24, b2n x.z), (25, b2n x.c), (26, b2n x.t), (27, x.stack.length), (32, x.pc.toNat),
    (48, x.lc.toNat)]

/-- Four 16-bit words of a table from index i. -/
def quad {n : Nat} (t : Tab (BitVec n)) (i : Nat) : Nat :=
  word ((List.range 4).map fun k => (16 * k, (tget 0 t (i + k)).toNat))

def strmGet (r : Strm) : Nat := word [(0, r.base.toNat), (48, r.size.toNat), (63, b2n r.en)]
def strmPut (r : Strm) (d : W64) : Strm :=
  { r with base := d.extractLsb' 0 48 &&& ~~~ (63 : W48), size := d.extractLsb' 48 4, en := d.getLsbD 63 }

/-- Registers of the sequencer, 0x3000 and up. -/
def seqGet (k : Bank) (o : Nat) : Option Nat :=
  let x := k.sq
  match o with
  | 0x3000 => some (word [(0, x.entry.toNat), (12, b2n x.trapMark), (13, x.trapPin.toNat)])
  | 0x3008 => some (word [(0, b2n (k.sq.req.contains .restart)), (1, b2n (k.sq.req.contains .stop))])
  | 0x3010 => some (seqStatGet x)
  | 0x3018 => some (quad x.v 0)
  | 0x3020 => some (quad x.v 4)
  | 0x3028 => some x.ep.toNat
  | 0x3100 => some (quad k.mbx.mbin 0)
  | 0x3108 => some (quad k.mbx.mbout 0)
  | 0x3110 => some (word [(0, k.mbx.inFull.toNat), (4, k.mbx.outFull.toNat), (8, k.mbx.inOvw.toNat), (12, k.mbx.outOvw.toNat)])
  | 0x3200 => some (strmGet k.sin)
  | 0x3208 => some (word [(0, k.sin.wr.toNat), (32, k.sin.rd.toNat)])
  | 0x3210 => some (strmGet k.sout)
  | 0x3218 => some (word [(0, k.sout.wr.toNat), (32, k.sout.rd.toNat)])
  | 0x3800 => some (word [(0, b2n k.paused), (8, k.outRange.toNat)])
  | _ => none

def seqPut (s : State) (b o : Nat) (be : W8) (data d w : W64) : Option State :=
  match o with
  | 0x3000 => some (mSq s b fun x => { x with
      entry := d.extractLsb' 0 12, trapMark := d.getLsbD 12, trapPin := d.extractLsb' 13 3 })
  | 0x3008 => some (sqCtlPut s b (w.getLsbD 0) (w.getLsbD 1))
  | 0x3010 => some (mSq s b fun x => { x with
      done := x.done && !w.getLsbD 3, late := x.late && !w.getLsbD 4, pmwErr := x.pmwErr && !w.getLsbD 5
      strErr := x.strErr && !w.getLsbD 6 })
  | 0x3100 => some (mbinPut s b be data)
  | 0x3110 => some (mMbx s b fun x => { x with
      outFull := x.outFull &&& (~~~ w.extractLsb' 4 4 ||| x.outEc), inOvw := x.inOvw &&& ~~~ w.extractLsb' 8 4
      outOvw := x.outOvw &&& ~~~ w.extractLsb' 12 4 })
  | 0x3200 => some (mBank s b fun k => { k with sin := strmPut k.sin d })
  | 0x3208 => some (mBank s b fun k => { k with sin := { k.sin with wr := d.extractLsb' 0 32 } })
  | 0x3210 => some (mBank s b fun k => { k with sout := strmPut k.sout d })
  | 0x3218 => some (mBank s b fun k => { k with sout := { k.sout with rd := d.extractLsb' 32 32 } })
  | _ => (seqGet (gBank s b) o).map fun _ => s

/-- Registers of pin `pin`, at offset o in its 0x40 bytes. -/
def pinGet (s : State) (k o : Nat) : Option Nat :=
  let p := gPin s k
  match o with
  | 0x00 => some p.capEdge.toNat
  | 0x08 => some (pinStatGet s k)
  | 0x10 => some 0
  | 0x18 => some p.trim.toNat
  | _ => none

def pinPut (s : State) (pin o : Nat) (d w : W64) : Option State :=
  match o with
  | 0x00 => some (mPin s pin fun p => { p with capEdge := d.extractLsb' 0 2 })
  | 0x08 =>
    let s1 := mPin s pin fun p => { p with late := p.late && !w.getLsbD 24, full := p.full && !w.getLsbD 25 }
    some (if w.getLsbD 26 then pinOvrClr s1 pin else s1)
  | 0x10 =>
    let s1 := if w.getLsbD 0 then flushCueQ s pin else s
    some (if w.getLsbD 1 then flushCapQ s1 pin else s1)
  | 0x18 => some s
  | _ => none

def bankGet (s : State) (b o : Nat) : Option Nat :=
  let k := gBank s b
  if o < 0x2000 then some (quad k.sq.pm (o / 2))
  else if 0x2800 ≤ o ∧ o < 0x2C00 then some (quad k.sq.dm ((o - 0x2800) / 2))
  else if 0x2100 ≤ o ∧ o < 0x2300 then pinGet s (8 * b + (o - 0x2100) / 0x40) ((o - 0x2100) % 0x40)
  else if 0x2400 ≤ o ∧ o < 0x2420 then some (rfxWord (tget {} k.rfx ((o - 0x2400) / 8))).toNat
  else if o = 0x2000 then some (word [(0, b2n k.lateTrap), (1, b2n k.fullTrap)])
  else seqGet k o

/-- Writes the 16-bit words of which a byte is enabled. -/
def halvesPut (s : State) (be : W8) (d : W64) (put : State → Nat → W16 → State) : State :=
  foldNat (fun acc k =>
    if be.getLsbD (2 * k) || be.getLsbD (2 * k + 1) then put acc k (d.extractLsb' (16 * k) 16) else acc) s (List.range 4)

def bankPut (s : State) (b o : Nat) (be : W8) (data d w : W64) : Option State :=
  if o < 0x2000 then some (halvesPut s be d fun acc k x => pmPut acc b (o / 2 + k) x)
  else if 0x2800 ≤ o ∧ o < 0x2C00 then some (halvesPut s be d fun acc k x => dmPut acc b ((o - 0x2800) / 2 + k) x)
  else if 0x2100 ≤ o ∧ o < 0x2300 then pinPut s (8 * b + (o - 0x2100) / 0x40) ((o - 0x2100) % 0x40) d w
  else if 0x2400 ≤ o ∧ o < 0x2420 then some (rfxPut s b ((o - 0x2400) / 8) d)
  else if o = 0x2000 then some (mBank s b fun k => { k with lateTrap := d.getLsbD 0, fullTrap := d.getLsbD 1 })
  else seqPut s b o be data d w

/-! ### Lane groups (R336–R340) -/

def lgStatGet (s : State) (g : Nat) : Nat :=
  let x := gLg s g
  word [(0, b2n x.cfgErr), (1, b2n x.storeOvf), (2, b2n x.sBpDrop), (3, b2n x.sUnderrun), (4, b2n x.sTxqDrop),
    (5, b2n (decide (x.rb ≠ .idle))), (16, (storeUsed s g + 1023) / 1024)]

def lStNum : LSt → Nat
  | .off => 0
  | .forming => 1
  | .locking => 2
  | .up => 3
  | .rebonding => 4

def lnStatGet (s : State) (k : Nat) : Nat :=
  let x := (gLane s k).rx
  word [(0, b2n x.lock), (1, b2n x.aligned), (2, b2n x.deskewed),
    (4, if linkOf s k = k then lStNum (gLink s k).st else 0), (8, x.offset), (16, x.pos.getD 0 % 64), (24, x.skew)]

/-- Registers of lane k, at offset o in its page. Link counters lie in the page of the link's first lane. -/
def laneGet (s : State) (k o : Nat) : Option Nat :=
  let x := gLane s k
  let l := if linkOf s k = k then gLink s k else {}
  match o with
  | 0x00 => some (word [(0, x.od.toNat), (16, x.seed.toNat)])
  | 0x10 => some x.mkpat.toNat
  | 0x18 => some (lnStatGet s k)
  | 0x20 => some (word [(0, x.hdrErr.toNat), (16, x.dispErr.toNat), (32, x.unlock.toNat), (48, x.mkErr.toNat)])
  | 0x28 => some (word [(0, l.rxFrames.toNat), (32, l.crcBad.toNat), (48, l.runt.toNat)])
  | 0x30 => some (word [(0, l.storeDrop.toNat), (16, l.bpDrop.toNat), (32, l.truncCnt.toNat), (48, l.frmErr.toNat)])
  | 0x38 => some (word [(0, l.txFrames.toNat), (32, l.txErr.toNat), (48, l.underrun.toNat)])
  | 0x40 => some (word [(0, l.asm.q.length), (16, l.txqDrop.toNat)])
  | 0x48 => some l.os.toNat
  | _ => none

def lanePut (s : State) (k o : Nat) (d : W64) : Option State :=
  match o with
  | 0x00 => some (mLane s k fun x => { x with od := d.extractLsb' 0 8, seed := d.extractLsb' 16 32 })
  | 0x10 => some (mLane s k fun x => { x with mkpat := d })
  | _ => (laneGet s k o).map fun _ => s

def lgGet (s : State) (g o : Nat) : Option Nat :=
  let x := gLg s g
  if 0x1000 ≤ o ∧ o < 0x1800 then laneGet s (8 * g + (o - 0x1000) / 0x100) (o % 0x100)
  else match o with
    | 0x00 => some x.cfg.toNat
    | 0x08 => some x.live.toNat
    | 0x10 => some (word [(0, b2n x.en), (1, b2n x.rebond)])
    | 0x18 => some (lgStatGet s g)
    | 0x20 => some x.frm.toNat
    | 0x28 => some x.lfsr.toNat
    | 0x30 => some x.idle.toNat
    | _ => none

/-- LG_CTL: EN takes its bit, then REBOND and CNTCLR act. -/
def lgCtlPut (s : State) (g : Nat) (d w : W64) : State :=
  let s1 := if d.getLsbD 0 then lgOn s g else lgOff s g
  let s2 := if w.getLsbD 1 then rbSet s1 g else s1
  if w.getLsbD 2 then lgCntClr s2 g else s2

def lgPut (s : State) (g o : Nat) (d w : W64) : Option State :=
  if 0x1000 ≤ o ∧ o < 0x1800 then lanePut s (8 * g + (o - 0x1000) / 0x100) (o % 0x100) d
  else match o with
    | 0x00 => some (mLg s g fun x => { x with cfg := d &&& 0x0001FFFF0001FFFF })
    | 0x10 => some (lgCtlPut s g d w)
    | 0x18 => some (mLg s g fun x => { x with
        cfgErr := x.cfgErr && !w.getLsbD 0, storeOvf := x.storeOvf && !w.getLsbD 1, sBpDrop := x.sBpDrop && !w.getLsbD 2
        sUnderrun := x.sUnderrun && !w.getLsbD 3, sTxqDrop := x.sTxqDrop && !w.getLsbD 4 })
    | 0x20 => some (mLg s g fun x => { x with frm := d &&& 0x01FFFFFFFFFFFFFF })
    | 0x28 => some (mLg s g fun x => { x with lfsr := d &&& 0x00000FFFFFFFFFFF })
    | 0x30 => some (mLg s g fun x => { x with idle := d })
    | _ => (lgGet s g o).map fun _ => s

/-! ### DUT ports (R381) -/

def dpModeNum : DpMode → Nat
  | .plain => 0
  | .record => 1
  | .replay => 2

def dpGet (d : Dp) (o : Nat) : Option Nat :=
  match o with
  | 0x00 => some d.cfg.toNat
  | 0x08 => some (b2n d.en)
  | 0x10 => some (word [(0, b2n d.clkRun), (1, b2n d.hold), (2, dpModeNum d.mode), (4, b2n d.diverge), (5, b2n d.cfgErr),
      (6, b2n d.fast), (7, b2n d.dqFull), (32, d.clkChg.toNat)])
  | 0x18 => some d.dc.toNat
  | 0x20 => some d.dqBase.toNat
  | 0x28 => some d.dq.length
  | 0x30 => some (word [(0, dpRate d), (32, d.samples.length)])
  | 0x38 => some d.floor.toNat
  | 0x40 => some (word [(0, d.cntTx.toNat), (32, d.cntRx.toNat)])
  | 0x48 => some (word [(0, d.rstDrop.toNat), (16, d.disDrop.toNat), (32, d.truncCnt.toNat), (40, d.frmErr.toNat),
      (48, d.holds.toNat)])
  | _ => none

/-- A write that only a port with EN 0 takes, and only with accepted values. -/
def dpCfgPut (s : State) (n : Nat) (good : Bool) (f : Dp → Dp) : State :=
  mDp s n fun d => if good && !d.en then f d else { d with cfgErr := true }

def dpPut (s : State) (n o : Nat) (d w : W64) : Option State :=
  match o with
  | 0x00 => some (dpCfgPut s n (decide (fld d 0 2 < 2) && decide (fld d 8 8 ≠ 0)) fun x => { x with
      cfg := d &&& 0x000000FF01FFFF07 })
  | 0x08 =>
    let s1 := if d.getLsbD 0 then dpOn s n else dpOff s n
    some (if w.getLsbD 1 then dpCntZero s1 n else s1)
  | 0x10 => some (mDp s n fun x => { x with
      diverge := x.diverge && !w.getLsbD 4, cfgErr := x.cfgErr && !w.getLsbD 5, dqFull := x.dqFull && !w.getLsbD 7 })
  | 0x20 => some (dpCfgPut s n (decide (10 ≤ fld d 48 5 ∧ fld d 48 5 ≤ 27)) fun x => { x with
      dqBase := d &&& 0x001FFFFFFFFFF000 })
  | 0x38 => some (mDp s n fun x => { x with floor := d.extractLsb' 0 32 })
  | _ => (dpGet {} o).map fun _ => s

/-! ### Memory ports and atomic units (R60, R393, R419, R420) -/

def mpGet (m : Mp) (o : Nat) : Option Nat :=
  match o with
  | 0xF00 => some (word [(0, b2n m.panic), (1, b2n m.rspPerr), (2, b2n m.tagUnexp), (16, m.stage.length), (32, m.stuck.length)])
  | 0xF08 => some (word [(0, m.reqs.toNat), (32, m.errRsp.toNat), (48, m.tmos.toNat)])
  | _ => none

def auGet (a : Au) (o : Nat) : Option Nat :=
  match o with
  | 0x00 => some (word [(0, a.watches.length), (16, a.holdings.length), (32, b2n a.wfull), (33, b2n a.hfull),
      (34, b2n a.walkSkip), (40, a.lines.length)])
  | 0x08 => some (word [(0, a.ops.toNat), (32, a.fails.toNat)])
  | _ => none

def hcasGet (h : Hcas) (o : Nat) : Option Nat :=
  match o with
  | 0x00 => some h.addr.toNat
  | 0x08 => some h.cmp.toNat
  | 0x10 => some h.new.toNat
  | 0x18 => some (b2n h.busy)
  | 0x20 => some h.old.toNat
  | 0x28 => some (word [(0, b2n h.busy), (1, b2n h.t), (2, b2n h.err), (8, h.code.toNat)])
  | _ => none

def hcasPut (s : State) (o : Nat) (d w : W64) : Option State :=
  match o with
  | 0x00 => some (mHcas s fun h => { h with addr := d.extractLsb' 0 48 })
  | 0x08 => some (mHcas s fun h => { h with cmp := d })
  | 0x10 => some (mHcas s fun h => { h with new := d })
  | 0x18 => some (if w.getLsbD 0 then hcasGo s else s)
  | 0x28 => some (mHcas s fun h => { h with err := h.err && !w.getLsbD 2 })
  | _ => (hcasGet {} o).map fun _ => s

/-- Registers of 0x080_0000–0x087_FFFF by offset. -/
def memGet (s : State) (o : Nat) : Option Nat :=
  if o < 0x8000 then mpGet (gMp s (o / 0x1000)) (o % 0x1000)
  else if o = 0x8000 then some s.ms.tmo.toNat
  else if 0x9000 ≤ o ∧ o < 0xA000 then hcasGet s.mv.hcas (o - 0x9000)
  else if o = 0xA000 then some (word [(0, b2n s.ms.hwErr), (1, b2n s.ms.hwWerr), (0, s.ms.hwBase.toNat)])
  else if 0xB000 ≤ o ∧ o < 0xB200 then some (tget 0 s.ram.rsWp ((o - 0xB000) / 8)).toNat
  else if 0x10000 ≤ o ∧ o < 0x19000 then auGet (gAu s ((o - 0x10000) / 0x1000)) (o % 0x1000)
  else none

def memPut (s : State) (o : Nat) (d w : W64) : Option State :=
  if o < 0x8000 then
    if o % 0x1000 = 0xF00 then some (mMp s (o / 0x1000) fun m => { m with
      rspPerr := m.rspPerr && !w.getLsbD 1, tagUnexp := m.tagUnexp && !w.getLsbD 2 })
    else (memGet s o).map fun _ => s
  else if o = 0x8000 then
    some (if d.extractLsb' 0 24 = 0 then s else { s with ms := { s.ms with tmo := d.extractLsb' 0 24 } })
  else if 0x9000 ≤ o ∧ o < 0xA000 then hcasPut s (o - 0x9000) d w
  else if o = 0xA000 then some { s with ms := { s.ms with
    hwErr := s.ms.hwErr && !w.getLsbD 0, hwWerr := s.ms.hwWerr && !w.getLsbD 1
    hwBase := d.extractLsb' 0 48 &&& ~~~ (0x7FFFF : W48) } }
  else if 0x10000 ≤ o ∧ o < 0x19000 ∧ o % 0x1000 = 0 then
    some (mAu s ((o - 0x10000) / 0x1000) fun a => { a with
      wfull := a.wfull && !w.getLsbD 32, hfull := a.hfull && !w.getLsbD 33, walkSkip := a.walkSkip && !w.getLsbD 34 })
  else (memGet s o).map fun _ => s

end Sys2Proof.Machine
end

