-- ==== Sys2Proof/Machine/RegMap.lean ====
section
/-! DEFINITION. The host window: every register and memory behind one read and one write, the aperture to external memory,
and REGISTER_WRITE (spec/01 R27–R29, spec/02 R44, spec/05 R170, spec/11 R391, R393). Addresses are those of 8-byte words. -/

namespace Sys2Proof.Machine

/-! ### Memory windows (R27, R29, R391) -/

/-- A word of memory through the window: an uncorrectable word reads 0 and is logged. -/
def lmWordGet (s : State) (reader p off : Nat) : Nat × State :=
  if peOn s p then
    match lmRead s false p off 8 with
    | some bs => (leNat bs, s)
    | none => (0, logEv s 0x2412 [p, off / 0x20000, off, reader])
  else (0, unmappedHit s)

def wingsWordGet (s : State) (reader off : Nat) : Nat × State :=
  match wingsRead s off 8 with
  | some bs => (leNat bs, s)
  | none => (0, wingsEcc s off reader)

/-- The enabled bytes, each written with `put`; a full word is one write. -/
def bytesPut (s : State) (be : W8) (data : W64) (put : State → Nat → List W8 → State) : State :=
  if be = 0xFF then put s 0 (leBytes 8 data.toNat)
  else foldNat (fun acc i => if be.getLsbD i then put acc i [data.extractLsb' (8 * i) 8] else acc) s (List.range 8)

def lmWordPut (s : State) (p off : Nat) (be : W8) (data : W64) : State :=
  if peOn s p then bytesPut s be data fun acc i bs => lmWrite acc false p (off + i) bs else unmappedHit s

def wingsWordPut (s : State) (off : Nat) (be : W8) (data : W64) : State :=
  bytesPut s be data fun acc i bs => wingsWrite acc (off + i) bs

/-! ### The window (R27, R28) -/

/-- The manual places the identity register, the mapping table and the interrupt registers in the global range and gives
them no offset: which offsets are mapped, and what they read, it leaves open (log 4). An unmapped one reads 0 (R28). BLK_ID shows
REV in its low byte, as the BLKID capture of R471 does (R1, log 4). -/
def globOpenGet (s : State) (a : Nat) : Nat × State :=
  if a = Config.blkIdOff then ((freeVal s).toNat / 256 * 256 + s.blk.rev.toNat, useFree s)
  else if freeBit s then (0, unmappedHit (useFree s)) else ((freeVal s).toNat, useFree s)
def globOpenPut (s : State) (a : Nat) : State :=
  if decide (a ≠ Config.blkIdOff) && freeBit s then unmappedHit (useFree s) else useFree s

/-- What a register of a unit reads; an offset without a register is unmapped. -/
def readOr (s : State) (x : Option Nat) : Nat × State :=
  match x with
  | some v => (v, s)
  | none => (0, unmappedHit s)

/-- Registers of the units of 0x030_0000 and up, below the memory windows. -/
def ioGet (s : State) (reader a : Nat) : Option Nat :=
  if a < 0x310000 then ushGlobGet s reader (a - 0x300000)
  else if a < 0x314000 then domGet s ((a - 0x310000) / 0x40) ((a - 0x310000) % 0x40)
  else if a < 0x380000 then none
  else if a < 0x380100 then boxGlobGet s (a - 0x380000)
  else if a < 0x380200 then poolGet s ((a - 0x380100) / 0x20) ((a - 0x380100) % 0x20)
  else if a < 0x400000 then none
  else if a < 0x440000 then dcGet (gDc s ((a - 0x400000) / 0x1000)) ((a - 0x400000) % 0x1000)
  else if a = 0x440000 then some s.mv.doneMap.toNat
  else if a = 0x440008 then some s.mv.errMap.toNat
  else if a < 0x500000 then none
  else if a < 0x580000 then bankGet s ((a - 0x500000) / 0x4000) ((a - 0x500000) % 0x4000)
  else if a < 0x600000 then none
  else if a < 0x680000 then lgGet s ((a - 0x600000) / 0x10000) ((a - 0x600000) % 0x10000)
  else if a < 0x700000 then none
  else if a < 0x800000 then dpGet (gDp s ((a - 0x700000) / 0x10000)) ((a - 0x700000) % 0x10000)
  else if a < 0x880000 then memGet s (a - 0x800000)
  else none

/-- A read of BOX_ALLOCp takes a handle (R362). -/
def isBoxAlloc (a : Nat) : Option Nat :=
  if 0x380100 ≤ a ∧ a < 0x380200 ∧ a % 0x20 = 0x10 then some ((a - 0x380100) / 0x20) else none

/-- HEADSEQ shows an open value. -/
def isOpenSeq (s : State) (a : Nat) : Bool :=
  decide (0x310000 ≤ a ∧ a < 0x314000 ∧ a % 0x40 = 0x10) && (domHead s ((a - 0x310000) / 0x40)).isNone &&
    decide ((gDom s ((a - 0x310000) / 0x40)).nextSeq ≠ 0)

def ioRead (s : State) (reader a : Nat) (be : W8) : Nat × State :=
  match isBoxAlloc a with
  | some p =>
    if be &&& 0x0F = 0 then (0, s)
    else ((boxAlloc s reader p).1.toNat, (boxAlloc s reader p).2)
  | none => readOr (if isOpenSeq s a then useFree s else s) (ioGet s reader a)

/-- A read of the 8-byte word at `a`, of which the requester takes the bytes `be` (R10, R28, R44). Apertures are not read
here. -/
def regRead (s : State) (reader a : Nat) (be : W8) : Nat × State :=
  if a < 0x10000 then
    match globGet s a with
    | some v => (v, s)
    | none => globOpenGet s a
  else if a < 0x20000 then readOr s (smGet s (a - 0x10000))
  else if a = 0x20000 then tbNowGet s reader be
  else if a < 0x30000 then readOr s (tbGet s (a - 0x20000))
  else if a < 0x40000 then readOr s (cbGet s (a - 0x30000))
  else if a < 0x50000 then readOr s (dbgGet s (a - 0x40000))
  else if 0x100000 ≤ a ∧ a < 0x210000 then
    (engRead s reader ((a - 0x100000) / 0x4000) ((a - 0x100000) % 0x4000) be).getD (0, unmappedHit s)
  else if 0x300000 ≤ a ∧ a < 0x880000 then ioRead s reader a be
  else if 0x2000000 ≤ a ∧ a < 0x3100000 then lmWordGet s reader ((a - 0x2000000) / 0x40000) ((a - 0x2000000) % 0x40000)
  else if 0x4000000 ≤ a ∧ a < 0x6000000 then wingsWordGet s reader (a - 0x4000000)
  else (0, unmappedHit s)

/-- A write to a register that reads `old`; an offset without a register is unmapped. -/
def regMod (s : State) (be : W8) (data : W64) (old : Option Nat) (put : W64 → W64 → Option State) : State :=
  match old with
  | none => unmappedHit s
  | some x => (put (mergeBe be data (BitVec.ofNat 64 x)) (mergeBe be data 0)).getD s

/-- A thread's write of USH_ENTER (R345): fault 0x0D, or what it enters; of fewer than 8 bytes it enters nothing. -/
def ushEnterPut (s : State) (who : Requester) (be : W8) (data : W64) : State × Option W8 :=
  match who with
  | .thread g =>
    if be = 0xFF then
      match ushEnter s g.val (data.extractLsb' 0 32) (fld data 32 17) (fld data 49 8) with
      | some s1 => (s1, none)
      | none => (s, some 0x0D)
    else (mUsh s fun u => { u with entres := tset (0, 0) u.entres g.val (0, 0) }, none)
  | _ => (s, none)

def ioPut (s : State) (who : Requester) (a : Nat) (be : W8) (data d w : W64) : Option State :=
  if a < 0x310000 then ushGlobPut s (readerOf who) (a - 0x300000) d w
  else if a < 0x314000 then domPut s who ((a - 0x310000) / 0x40) ((a - 0x310000) % 0x40) d w
  else if a < 0x380100 then boxGlobPut s (a - 0x380000) d w
  else if a < 0x380200 then
    some (if (a - 0x380100) % 0x20 = 0 then boxPoolPut s ((a - 0x380100) / 0x20) d else s)
  else if a < 0x440000 then
    dcPut s ((a - 0x400000) / 0x1000) ((a - 0x400000) % 0x1000) (if (a - 0x400000) % 0x1000 = 0x10 then w else d)
  else if a = 0x440000 then some { s with mv := { s.mv with doneMap := s.mv.doneMap &&& ~~~ w } }
  else if a = 0x440008 then some { s with mv := { s.mv with errMap := s.mv.errMap &&& ~~~ w } }
  else if a < 0x580000 then bankPut s ((a - 0x500000) / 0x4000) ((a - 0x500000) % 0x4000) be data d w
  else if a < 0x680000 then lgPut s ((a - 0x600000) / 0x10000) ((a - 0x600000) % 0x10000) d w
  else if a < 0x800000 then dpPut s ((a - 0x700000) / 0x10000) ((a - 0x700000) % 0x10000) d w
  else memPut s (a - 0x800000) d w

/-- A write of the enabled bytes of the 8-byte word at `a`, and the fault that a thread's write brings (R10, R28, R44). A
write that enables no byte changes nothing. -/
def regWrite (s : State) (who : Requester) (a : Nat) (be : W8) (data : W64) : State × Option W8 :=
  if be = 0 then (s, none)
  else if a < 0x10000 then
    match globGet s a with
    | some x => (regMod s be data (some x) (globPut s a), none)
    | none => (globOpenPut s a, none)
  else if a < 0x20000 then (regMod s be data (smGet s (a - 0x10000)) (smPut s (a - 0x10000)), none)
  else if a < 0x30000 then (regMod s be data (tbGet s (a - 0x20000)) (tbPut s (a - 0x20000)), none)
  else if a < 0x40000 then (regMod s be data (cbGet s (a - 0x30000)) (fun _ _ => some s), none)
  else if a < 0x50000 then (regMod s be data (dbgGet s (a - 0x40000)) (dbgPut s (a - 0x40000)), none)
  else if 0x100000 ≤ a ∧ a < 0x210000 then
    ((engWrite s (readerOf who) ((a - 0x100000) / 0x4000) ((a - 0x100000) % 0x4000) be data).getD (unmappedHit s), none)
  else if a = 0x300010 then ushEnterPut s who be data
  else if a = 0x380010 then
    if be &&& 0x0F = 0 then (s, none) else boxFreePut s who ((mergeBe be data 0).extractLsb' 0 32)
  else if 0x300000 ≤ a ∧ a < 0x880000 then
    (regMod s be data (ioGet s (readerOf who) a) (ioPut s who a be data), none)
  else if 0x2000000 ≤ a ∧ a < 0x3100000 then
    (lmWordPut s ((a - 0x2000000) / 0x40000) ((a - 0x2000000) % 0x40000) be data, none)
  else if 0x4000000 ≤ a ∧ a < 0x6000000 then (wingsWordPut s (a - 0x4000000) be data, none)
  else (unmappedHit s, none)

/-! ### The aperture (R393) -/

def isAperture (a : Nat) : Bool := decide (0x880000 ≤ a ∧ a < 0x900000)

/-- Offset in external memory that an access of the aperture reaches; none: outside external memory. -/
def apOff (s : State) (a : Nat) : Option Nat :=
  match spaceOf (s.ms.hwBase.toNat + (a - 0x880000)) with
  | .ext off => some off
  | _ => none

/-- An aperture write: it enters port staging, or is outside external memory. -/
def apWrite (s : State) (a : Nat) (be : W8) (data : W64) : State :=
  if be = 0 then s
  else match apOff s a with
    | some off => memGo (mpOne s {
        write := true, off := off, n := 8, data := leBytes 8 data.toNat
        mask := if be = 0xFF then [] else (List.range 8).map fun i => be.getLsbD i
        src := hostSrc, qos := 0, job := 0 })
    | none => unmappedHit s

/-- An aperture read: the job of its request, or none outside external memory. -/
def apRead (s : State) (a : Nat) : Option Nat × State :=
  match apOff s a with
  | some off =>
    let j := s.ms.nextJob
    (some j, memGo (mpOne (newJob s) {
      write := false, off := off, n := 8, data := [], mask := [], src := hostSrc, qos := 0, job := j }))
  | none => (none, unmappedHit s)

/-! ### REGISTER_WRITE (R10, R170, R472) -/

/-- DBGACC reaches the address (R472). -/
def tapReaches (s : State) (a : Nat) : Bool :=
  scopeOn s 1 || (scopeOn s 0 && decide (0x40000 ≤ a ∧ a < 0x50000)) || decide (a = 8) ||
    decide (a = 0x40000 ∨ a = 0x40008 ∨ a = 0x40010 ∨ (0x40100 ≤ a ∧ a < 0x40200))

/-- The requester may write the address. -/
def mayWrite (s : State) (who : Requester) (a : Nat) : Bool :=
  match who with
  | .host => true
  | .sm => s.mg.sm.alive
  | .tap => tapReaches s a
  | .thread g => engUp s (g.val / 32) && ctlAllowed s (thrKey s g.val) a true

/-- A write by any requester, the aperture among its targets. -/
def anyWrite (s : State) (who : Requester) (a : Nat) (be : W8) (data : W64) : State × Option W8 :=
  if isAperture a then (apWrite s a be data, none) else regWrite s who a be data

/-- R10 REGISTER_WRITE. A thread without the right to write the register takes fault 0x07 (R125, R170). -/
def execRegisterWrite (who : Requester) (addr : BitVec 27) (be : W8) (data : W64) (s : State) : Out :=
  let a := addr.toNat / 8 * 8
  let allowed := match who with
    | .thread g => engUp s (g.val / 32)
    | _ => mayWrite s who a
  act (up s && allowed) (fun s =>
    if !mayWrite s who a then match who with
      | .thread g => takeFault s (thrKey s g.val) 0x07 (gThr s (thrKey s g.val)).r.pc
      | _ => s
    else match anyWrite s who a be data, who with
    | (s1, some c), .thread g => takeFault s1 (thrKey s1 g.val) c (gThr s1 (thrKey s1 g.val)).r.pc
    | (s1, _), _ => s1) s

end Sys2Proof.Machine
end

