-- ==== Sys2Proof/Machine/Host.lean ====
section
/-! DEFINITION. The host port, the responses of held and posted accesses, the TAP and the test wrapper (spec/02 R42–R50,
R76–R81, spec/05 R151, R164–R170, R386, spec/13 R471–R475). -/

namespace Sys2Proof.Machine

/-! ### Host port (R42–R47, R77–R79) -/

/-- Byte address of a 24-bit word address [26:3]. -/
def hostAddr (addr : BitVec 24) : Nat := addr.toNat * 8

/-- Parity of what `h_req_par` covers (R46). -/
def hreqPar (write : Bool) (addr : BitVec 24) (be : W8) (wdata : W64) : Bool :=
  xor (xor write (parNat 24 addr.toNat)) (xor (parNat 8 be.toNat) (parNat 64 wdata.toNat))

/-- R42, R43, R46, R78 HOST_REQUEST: of more than 8 outstanding none is accepted. -/
def execHostRequest (write : Bool) (addr : BitVec 24) (be : W8) (wdata : W64) (par : Bool) (s : State) : Out :=
  act (s.aon.vddAon && decide (s.hp.q.length < 8)) (fun s => mHp s fun h => { h with
    q := h.q ++ [{ write := write, addr := addr, be := be, wdata := wdata
                   parBad := h.parEn && up s && decide (par ≠ hreqPar write addr be wdata)
                   curtain := !up s, early := false }] }) s

/-- The response is driven, with its parity (R46). -/
def hostDrive (s : State) (rdata : W64) (status : BitVec 2) : State :=
  mHp s fun h => { h with
    rsp := some { rdata := rdata, status := status, par := xor (parNat 64 rdata.toNat) (parNat 2 status.toNat) } }

/-- The head request leaves the queue. -/
def hostPop (s : State) : State := mHp s fun h => { h with q := h.q.drop 1, apJob := none }

/-- The curtain pattern (R77). -/
def curtainPattern (s : State) : W64 := 0x4B42000000000000 ||| s.aon.reason.setWidth 64

/-- The wrapper serves AON_STAT and AON_CTL itself (R79). -/
def wrapperServes (s : State) (a : Nat) : Bool :=
  decide (a = 0xFF0 ∨ a = 0xFF8) && decide (s.aon.reason ≠ 0x01 ∧ s.aon.reason ≠ 0x06)

/-- The curtain responder answers (R77, R79). Whether a write that the block had accepted before the curtain took effect is open
(R47). DESIGN CHOICE (log 33): a write of AON_CTL may take effect, which is a free choice; a write of any other target took
none. The read data of a write's response are open (log 4). -/
def hostCurtain (s : State) (r : HReq) : State :=
  let a := hostAddr r.addr
  let put (s : State) : State := if a = 0xFF8 && r.be.getLsbD 0 then aonCtlPut s r.wdata else s
  let s1 := hostPop s
  if r.early then
    if r.write then
      let s2 := useFree s1
      hostDrive (if wrapperServes s a && freeBit s then put s2 else s2) (freeVal s) 1
    else hostDrive s1 (curtainPattern s) 1
  else if wrapperServes s a then
    if r.write then hostDrive (put s1) 0 0
    else hostDrive s1 (if a = 0xFF0 then aonStat s.aon else BitVec.ofNat 64 (b2n s.aon.isolate)) 0
  else if r.write then hostDrive (useFree s1) (freeVal s) 1
  else hostDrive s1 (curtainPattern s) 1

/-- A request that failed parity (R45, R50). -/
def hostParity (s : State) : State :=
  hostDrive (mHp (hostPop s) fun h => { h with perr := true, errCnt := satInc h.errCnt }) 0 2

/-- A request that is answered with TIMEOUT (R45, R50). -/
def hostTimedOut (s : State) : State :=
  hostDrive (mHp (hostPop s) fun h => { h with tmo := true, errCnt := satInc h.errCnt }) 0 3

/-- An aperture read: its request goes out first, and the response comes when memory has answered (R393). -/
def hostApRead (s : State) (a : Nat) : State :=
  match s.hp.apJob with
  | some j =>
    if jobDone s j then
      let x := apAnswer s j
      if x.1 = .timeout then hostTimedOut (takeJob s j)
      else hostDrive (apErr (hostPop (takeJob s j)) x.1) x.2 0
    else s
  | none => match apRead s a with
    | (some j, s1) => mHp s1 fun h => { h with apJob := some j }
    | (none, s1) => hostDrive (hostPop s1) 0 0

/-- The target answers (R44, R45, R393). -/
def hostServe (s : State) (r : HReq) : State :=
  let a := hostAddr r.addr
  if r.write then hostDrive (anyWrite (hostPop s) .host a r.be r.wdata).1 0 0
  else if isAperture a then hostApRead s a
  else
    let x := regRead (hostPop s) 0xF00 a 0xFF
    hostDrive x.2 (BitVec.ofNat 64 x.1) 0

/-- R45, R47, R77 HOST_RESPONSE: the oldest request; while HCLK is outside its window the port answers nothing (R85). -/
def execHostResponse (s : State) : Out :=
  match s.hp.q with
  | [] => .next s
  | r :: _ => act (s.aon.vddAon && !clkIsOut s 3) (fun s =>
      if r.curtain then hostCurtain s r
      else if r.parBad then hostParity s
      else hostServe s r) s

/-- R45, R47 HOST_TIMEOUT: whether a write takes effect is open (log 4). -/
def execHostTimeout (s : State) : Out :=
  match s.hp.q with
  | [] => .next s
  | r :: _ => act (s.aon.vddAon && !clkIsOut s 3 && !r.curtain && !r.parBad) (fun s =>
      let s1 := match s.hp.apJob with
        | some j => dropJob s j
        | none => s
      let s2 := hostTimedOut s1
      if r.write then
        if freeBit s then (anyWrite (useFree s2) .host (hostAddr r.addr) r.be r.wdata).1 else useFree s2
      else s2) s

/-! ### Held accesses (R164, R166–R168, R194–R196) -/

/-- The data of a held load have come from local memory of physical engine p, or from the wings. -/
def heldMem (s : State) (g k p off n : Nat) (dst : LDst) : State :=
  if peOn s p then
    match lmRead s false p off n with
    | some bs => finishHeld s k (loadWrites dst n bs)
    | none => lmEccFault s k p off g (gThr s k).r.pc
  else heldFault s k 0x05

def heldWings (s : State) (g k off n : Nat) (dst : LDst) : State :=
  match wingsRead s off n with
  | some bs => finishHeld s k (loadWrites dst n bs)
  | none => heldFault (wingsEcc s off g) k 0x06

/-- A held load from external memory, once its requests have been answered (R55, R57). -/
def heldExt (s : State) (k j n : Nat) (dst : LDst) : State :=
  if jobDone s j then
    match stFault (worst (jobAns s j)) with
    | none => finishHeld (takeJob s j) k (loadWrites dst n (jobData (jobAns s j)))
    | some c => heldFault (takeJob s j) k c
  else s

/-- Byte enables of a control-space access (R168). -/
def ctlBe (off n : Nat) : W8 := if n = 8 then 0xFF else if off % 8 = 4 then 0xF0 else 0x0F

/-- The bytes that a control-space load takes of the 8-byte word. -/
def ctlBytes (off n : Nat) (x : W64) : List W8 := ((leBytes 8 x.toNat).drop (off % 8)).take n

/-- A control-space load (R168, R393): a read of the aperture sends its request first. -/
def heldCtlLoad (s : State) (g k off n : Nat) (dst : LDst) (job : Option Nat) : State :=
  let a := off / 8 * 8
  if isAperture a then
    match job with
    | some j =>
      if jobDone s j then
        let x := apAnswer s j
        if x.1 = .timeout then heldFault (takeJob s j) k 0x05
        else finishHeld (apErr (takeJob s j) x.1) k (loadWrites dst n (ctlBytes off n x.2))
      else s
    | none => match apRead s a with
      | (some j, s1) => mThr s1 k fun t => { t with
          held := t.held.map fun h => { h with op := .ctlLoad off n dst (some j) } }
      | (none, s1) => finishHeld s1 k (loadWrites dst n (ctlBytes off n 0))
  else
    let x := regRead s g a (ctlBe off n)
    finishHeld x.2 k (loadWrites dst n (ctlBytes off n (BitVec.ofNat 64 x.1)))

/-- A control-space store (R168). -/
def heldCtlStore (s : State) (g : Fin 2048) (k off n : Nat) (data : W64) : State :=
  match anyWrite s (.thread g) (off / 8 * 8) (ctlBe off n) (if off % 8 = 4 then data <<< 32 else data) with
  | (s1, some c) => heldFault s1 k c
  | (s1, none) => finishHeld s1 k []

/-- An atomic whose unit has answered (R196). -/
def heldAtom (s : State) (k fn d j : Nat) : State :=
  match s.mv.auFin.find? fun a => decide (a.job = j) with
  | none => s
  | some a =>
    let s1 := { s with mv := { s.mv with auFin := s.mv.auFin.filter fun a => decide (a.job ≠ j) } }
    match a.fault with
    | some c => heldFault s1 k c
    | none => finishHeld s1 k (atomWrites fn d a)

/-- A waiting callboard function goes on as soon as it no longer waits (R194, R229, R230). When its route has been aborted meanwhile,
the side stays ABORTED, as the abort's own row of R229 gives (DEDUCED log 20). -/
def heldCb (s : State) (k : Nat) (tr : Bool) (r : CbRes) : State :=
  match r with
  | .done s1 ws => finishHeld s1 k (ws ++ if tr then [.t true] else [])
  | .fault _ c => heldFault s k c
  | .wait => s

/-- R166 HELD_ACCESS_RESPONSE. -/
def execHeldAccessResponse (g : Fin 2048) (s : State) : Out :=
  let k := thrKey s g.val
  match (gThr s k).held with
  | none => .next s
  | some h => act (engUp s (g.val / 32) && ctlTurn s k) (fun s =>
      match h.op with
      | .load addr n dst => match spaceOf addr.toNat with
        | .mesh p off => heldMem s g k p off n dst
        | .wings off => heldWings s g k off n dst
        | _ => s
      | .loadExt j _ n dst => heldExt s k j n dst
      | .ctlLoad off n dst job => heldCtlLoad s g k off n dst job
      | .ctlStore off n data => heldCtlStore s g k off n data
      | .atom fn _ _ _ d j => heldAtom s k fn d j
      | .take r1 _ (some w) => takeDone s g k w r1
      | .chopen ce dst tr => heldCb s k tr (cbOpen s (g.val * 4 + ce) dst)
      | .chw ce data tr => heldCb s k tr (cbWord s (g.val * 4 + ce) (.data data) .opn)
      | .chclose ce tr => heldCb s k tr (cbWord s (g.val * 4 + ce) .close .closing)
      | .chr ce d tr => heldCb s k tr (cbRead s (g.val * 4 + ce) d)
      | _ => s) s

/-! ### Posted accesses (R144, R151, R167, R246, R386) -/

/-- Element i leaves the list. -/
def dropAt {α : Type} : List α → Nat → List α
  | [], _ => []
  | _ :: t, 0 => t
  | a :: t, i + 1 => a :: dropAt t i

/-- What waits for the thread's posted accesses goes on: the ninth access is sent, FENCE and the curtain stop end, an atomic
reaches its unit. -/
def postedGo (s : State) (g k : Nat) : State :=
  let t := gThr s k
  match t.held with
  | none => s
  | some h => match h.op with
    | .ninthStore a n data => finishHeld (sendPosted s g k a.toNat n data t.r.pc) k []
    | .ninthSti a w succ => mThr (finishHeld (sendSti s k a.toNat w t.r.pc) k []) k fun t => { t with succ := some succ }
    | .ninthRelease handle disp len => finishHeld (sendRelease s g k handle disp len t.r.pc) k []
    | .fence => if t.posted.isEmpty then finishHeld s k [] else s
    | .synci => synciGo s k
    | .cptStop => if !t.posted.isEmpty then s else if t.swap then curtainStop s k else finishHeld s k []
    | .atom fn _ _ _ _ 0 => if atomWaits fn && t.posted.isEmpty then sendAtom s g k else s
    | _ => s

/-- R151, R167 POSTED_ACCESS_RESPONSE: acknowledgement of the thread's posted access i, oldest 0. One to external memory ends
with its requests, an STI after its word has reached every cache array. -/
def execPostedAccessResponse (g : Fin 2048) (i : Nat) (s : State) : Out :=
  let k := thrKey s g.val
  match (gThr s k).posted[i]? with
  | none => .next s
  | some p =>
    let done := match p.job with
      | some j => jobDone s j
      | none => p.sti.isNone
    act (engUp s (g.val / 32) && done) (fun s =>
      let fault := match p.job with
        | some j => stFault (worst (jobAns s j))
        | none => p.fault
      let s1 := match p.job with
        | some j => takeJob s j
        | none => s
      let s2 := mThr s1 k fun t => { t with posted := dropAt t.posted i }
      match fault with
      | some c => postedFault s2 k c p.pc
      | none => postedGo s2 g k) s

/-! ### TAP (R471–R473) -/

/-- The TAP runs (R91, R98). -/
def tapUp (s : State) : Bool := s.aon.vddAon && s.aon.porN

def tapSelect (s : State) (ir : W8) (dr : Nat) : State := mTap s fun t => { t with ir := ir, dr := dr }

/-- R471 BLKID. -/
def execBlkid (s : State) : Out := act (tapUp s) (fun s => tapSelect s 0x02 0x4B42080000000021) s

/-- R471 BYPASS. -/
def execBypass (s : State) : Out := act (tapUp s) (fun s => tapSelect s 0xFF 0) s

/-- What DBGACC shows on capture; what stands in ADDR and WRITE is open (log 4). -/
def dbgaccCapture (s : State) : Nat :=
  word [(0, s.mg.tap.data.toNat), (64, (freeVal s).toNat % 2 ^ 25), (89, s.mg.tap.status.toNat), (91, b2n s.mg.tap.busy)]

/-- The access of an Update-DR (R77, R472). -/
def dbgaccGo (s : State) (write : Bool) (a : Nat) (data : W64) : State :=
  let ended (s : State) (st : BitVec 2) : State := mTap s fun t => { t with status := st }
  let got (s : State) (x : W64) (st : BitVec 2) : State := mTap s fun t => { t with data := x, status := st }
  if !up s then got s (curtainPattern s) 1
  else if !tapReaches s a then ended s 2
  else if write then ended (anyWrite s .tap a 0xFF data).1 0
  else if isAperture a then
    match apRead s a with
    | (some j, s1) => tapSettle (mTap s1 fun t => { t with busy := true, job := some j })
    | (none, s1) => got s1 0 0
  else
    let x := regRead s 0xF00 a 0xFF
    got x.2 (BitVec.ofNat 64 x.1) 0

/-- R472 DBGACC: capture, then update. -/
def execDbgacc (write : Bool) (addr : BitVec 24) (data : W64) (s : State) : Out :=
  act (tapUp s) (fun s =>
    let s1 := tapSelect (useFree s) 0x10 (dbgaccCapture s)
    if s.mg.tap.busy then s1 else dbgaccGo s1 write (hostAddr addr) data) s

/-- What KEYPROG shows on capture (R473). -/
def keyCapture (s : State) : Nat :=
  word ((List.range 4).map (fun i => (i, b2n (s.aon.keys.getD i {}).used)) ++
    [(4, b2n s.aon.keyBusy), (5, b2n s.mg.tap.keyFail), (6, b2n s.mg.tap.keyRefused)])

/-- The conditions of an update (R473). -/
def keyMay (s : State) (slot : Nat) : Bool :=
  !(s.aon.keys.getD slot {}).used && (s.aon.keys.all (fun k => !k.used) || scopeOn s 1)

/-- R473 KEYPROG: capture, then update. Whether a reserved bit at 1 makes the update one of the refused cases is open
(log 4). -/
def execKeyprog (slot : Fin 4) (digest : BitVec 384) (reserved : BitVec 6) (s : State) : Out :=
  act (tapUp s) (fun s =>
    let s1 := tapSelect s 0x20 (keyCapture s)
    let s2 := if reserved = 0 then s1 else useFree s1
    if s.aon.keyBusy then s1
    else if keyMay s slot.val && (reserved = 0 || freeBit s) then
      mTap (mAon s2 fun a => { a with keyBusy := true, keySlot := slot.val, keyDig := digest }) fun t =>
        { t with keyRefused := false, keyFail := false }
    else mTap s2 fun t => { t with keyRefused := true }) s

/-- R473 KEYPROG_DONE: read-back agrees, or the slot is left unusable and counts as programmed. -/
def execKeyprogDone (good : Bool) (s : State) : Out :=
  act (s.aon.vddAon && s.aon.keyBusy) (fun s =>
    mTap (mAon s fun a => { a with
      keyBusy := false, keys := setAt a.keys a.keySlot { digest := a.keyDig, used := true, bad := !good } }) fun t =>
      { t with keyFail := !good }) s

/-! ### Wrapper (R474, R475) -/

/-- A wrapper instruction is updated; `AON_CTL.ISOLATE` stays as it is when another one is left. -/
def wirPut (s : State) (code : BitVec 6) (on : Bool) : State := mTap s fun t => { t with wir := code, wirOn := on }

/-- WS_EXTEST and WS_INTEST_SCAN take effect while the lock is open with WRAP; otherwise they act as WS_BYPASS. -/
def wirTest (s : State) (code : BitVec 6) : State :=
  if scopeOn s 2 then wirPut (isolateSet s) code true else wirPut s code false

/-- R474 WS_BYPASS. -/
def execWsBypass (s : State) : Out := act (tapUp s) (fun s => wirPut s 0 false) s

/-- R475 WS_EXTEST. -/
def execWsExtest (s : State) : Out := act (tapUp s) (fun s => wirTest s 1) s

/-- R475 WS_INTEST_SCAN. -/
def execWsIntestScan (s : State) : Out := act (tapUp s) (fun s => wirTest s 2) s

/-- R474 WS_PRELOAD: the cells of the list are loaded with 1, the others with 0; outputs are unchanged. -/
def execWsPreload (cells : List Nat) (s : State) : Out :=
  act (tapUp s) (fun s => mTap (wirPut s 3 false) fun t => { t with
    cells := foldNat (fun c i => if i < 53117 then tset false c i true else c) [] cells }) s

end Sys2Proof.Machine
end

