-- ==== Sys2Proof/Machine/KeArith.lean ====
section
/-! DEFINITION. KE arithmetic and logic, immediates and division (spec/05 R173–R176). -/

namespace Sys2Proof.Machine

/-- ALU form of class L: D[rd] := f D[rs] D[rt], Z and N from the result, C and V 0. -/
def aluL (i : Instr) (f : W32 → W32 → W32) (g : Fin 2048) (rd rs rt : Fin 16) (s : State) : Out :=
  keReg i g [] 1 (fun r => .ok [.d rd (f (rD r rs) (rD r rt)), flagL (f (rD r rs) (rD r rt))]) s

/-- ALU form of class A: `f` gives the result and its flags; it may read C. -/
def aluA (i : Instr) (f : W32 → W32 → Bool → W32 × RWr) (g : Fin 2048) (rd rs rt : Fin 16) (s : State) : Out :=
  keReg i g [] 1
    (fun r => .ok [.d rd (f (rD r rs) (rD r rt) r.fl.c).1, (f (rD r rs) (rD r rt) r.fl.c).2]) s

/-- Shift form, amount D[rt][4:0], class S. -/
def aluS (i : Instr) (f : W32 → Nat → W32 × Bool) (g : Fin 2048) (rd rs rt : Fin 16) (s : State) : Out :=
  keReg i g [] 1 (fun r =>
    let x := f (rD r rs) ((rD r rt).toNat % 32)
    .ok [.d rd x.1, flagS x.1 x.2]) s

/-- One-operand form of class L. -/
def alu1 (i : Instr) (f : W32 → W32) (g : Fin 2048) (rd rs : Fin 16) (s : State) : Out :=
  keReg i g [] 1 (fun r => .ok [.d rd (f (rD r rs)), flagL (f (rD r rs))]) s

/-- Test form: T := p D[rs] D[rt]; no other flag changes. -/
def aluT (i : Instr) (p : W32 → W32 → Bool) (g : Fin 2048) (rs rt : Fin 16) (s : State) : Out :=
  keReg i g [] 1 (fun r => .ok [.t (p (rD r rs) (rD r rt))]) s

/-- Immediate form of class L, imm17 sign-extended. -/
def immL (i : Instr) (f : W32 → W32 → W32) (g : Fin 2048) (rd rs : Fin 16) (imm : BitVec 17) (s : State) : Out :=
  keReg i g [] 1 (fun r =>
    let x := f (rD r rs) (imm.signExtend 32)
    .ok [.d rd x, flagL x]) s

/-- What a division writes (R176); `f` gives the result and V. -/
def divWrites (f : W32 → W32 → W32 × Bool) (r : Regs) (rd rs rt : Nat) : List RWr :=
  let x := f (rD r rs) (rD r rt)
  [.d rd x.1, .znvc (decide (x.1 = 0)) x.1.msb false x.2]

/-- Division (R132, R176): a long operation of 18 slots, which writes in the last of them. -/
def divForm (i : Instr) (f : W32 → W32 → W32 × Bool) (g : Fin 2048) (rd rs rt : Fin 16) (s : State) : Out :=
  let k := thrKey s g.val
  keIssue i g (fun s => startLong s k 18 (divWrites f (gThr s k).r rd rs rt)) s

/-- The corner cases of R176: division by zero, and the most negative number by -1. -/
def minInt32 : W32 := 0x80000000
def divQ (x y : W32) : W32 × Bool :=
  if y = 0 then (0xFFFFFFFF, true) else if x = minInt32 ∧ y = 0xFFFFFFFF then (minInt32, true) else (x.sdiv y, false)
def divuQ (x y : W32) : W32 × Bool := if y = 0 then (0xFFFFFFFF, true) else (x / y, false)
def remsQ (x y : W32) : W32 × Bool :=
  if y = 0 then (x, true) else if x = minInt32 ∧ y = 0xFFFFFFFF then (0, true) else (x.srem y, false)
def remuQ (x y : W32) : W32 × Bool := if y = 0 then (x, true) else (x % y, false)

/-- R174 ADD. -/
def execAdd (g : Fin 2048) (rd rs rt : Fin 16) (s : State) : Out :=
  aluA (.add g rd rs rt) (fun x y _ => addA x y false) g rd rs rt s

/-- R174 ADDC. -/
def execAddc (g : Fin 2048) (rd rs rt : Fin 16) (s : State) : Out :=
  aluA (.addc g rd rs rt) (fun x y c => addA x y c) g rd rs rt s

/-- R174 SUB. -/
def execSub (g : Fin 2048) (rd rs rt : Fin 16) (s : State) : Out :=
  aluA (.sub g rd rs rt) (fun x y _ => subA x y false) g rd rs rt s

/-- R174 SUBC. -/
def execSubc (g : Fin 2048) (rd rs rt : Fin 16) (s : State) : Out :=
  aluA (.subc g rd rs rt) (fun x y c => subA x y c) g rd rs rt s

/-- R174 AND. -/
def execAnd (g : Fin 2048) (rd rs rt : Fin 16) (s : State) : Out :=
  aluL (.and g rd rs rt) (fun x y => x &&& y) g rd rs rt s

/-- R174 OR. -/
def execOr (g : Fin 2048) (rd rs rt : Fin 16) (s : State) : Out :=
  aluL (.or g rd rs rt) (fun x y => x ||| y) g rd rs rt s

/-- R174 XOR. -/
def execXor (g : Fin 2048) (rd rs rt : Fin 16) (s : State) : Out :=
  aluL (.xor g rd rs rt) (fun x y => x ^^^ y) g rd rs rt s

/-- R174 ANDN. -/
def execAndn (g : Fin 2048) (rd rs rt : Fin 16) (s : State) : Out :=
  aluL (.andn g rd rs rt) (fun x y => x &&& ~~~y) g rd rs rt s

/-- R174 SHL. -/
def execShl (g : Fin 2048) (rd rs rt : Fin 16) (s : State) : Out :=
  aluS (.shl g rd rs rt) (shlS) g rd rs rt s

/-- R174 SHR. -/
def execShr (g : Fin 2048) (rd rs rt : Fin 16) (s : State) : Out :=
  aluS (.shr g rd rs rt) (shrS) g rd rs rt s

/-- R174 SAR. -/
def execSar (g : Fin 2048) (rd rs rt : Fin 16) (s : State) : Out :=
  aluS (.sar g rd rs rt) (sarS) g rd rs rt s

/-- R174 ROR. -/
def execRor (g : Fin 2048) (rd rs rt : Fin 16) (s : State) : Out :=
  aluS (.ror g rd rs rt) (rorS) g rd rs rt s

/-- R174 MUL. -/
def execMul (g : Fin 2048) (rd rs rt : Fin 16) (s : State) : Out :=
  aluL (.mul g rd rs rt) (fun x y => x * y) g rd rs rt s

/-- R174 MULHS. -/
def execMulhs (g : Fin 2048) (rd rs rt : Fin 16) (s : State) : Out :=
  aluL (.mulhs g rd rs rt) (fun x y => (x.signExtend 64 * y.signExtend 64).extractLsb' 32 32) g rd rs rt s

/-- R174 MULHU. -/
def execMulhu (g : Fin 2048) (rd rs rt : Fin 16) (s : State) : Out :=
  aluL (.mulhu g rd rs rt) (fun x y => (x.setWidth 64 * y.setWidth 64).extractLsb' 32 32) g rd rs rt s

/-- R174 CMP: D[rs] - D[rt], result discarded. -/
def execCmp (g : Fin 2048) (rs rt : Fin 16) (s : State) : Out :=
  keReg (.cmp g rs rt) g [] 1 (fun r => .ok [(subA (rD r rs) (rD r rt) false).2]) s

/-- R174 MIN, signed. -/
def execMin (g : Fin 2048) (rd rs rt : Fin 16) (s : State) : Out :=
  aluL (.min g rd rs rt) (fun x y => if x.slt y then x else y) g rd rs rt s

/-- R174 MAX, signed. -/
def execMax (g : Fin 2048) (rd rs rt : Fin 16) (s : State) : Out :=
  aluL (.max g rd rs rt) (fun x y => if x.slt y then y else x) g rd rs rt s

/-- R174 MINU. -/
def execMinu (g : Fin 2048) (rd rs rt : Fin 16) (s : State) : Out :=
  aluL (.minu g rd rs rt) (fun x y => if x.ult y then x else y) g rd rs rt s

/-- R174 MAXU. -/
def execMaxu (g : Fin 2048) (rd rs rt : Fin 16) (s : State) : Out :=
  aluL (.maxu g rd rs rt) (fun x y => if x.ult y then y else x) g rd rs rt s

/-- R174 CLZ. -/
def execClz (g : Fin 2048) (rd rs : Fin 16) (s : State) : Out := alu1 (.clz g rd rs) (clz32) g rd rs s

/-- R174 POPC. -/
def execPopc (g : Fin 2048) (rd rs : Fin 16) (s : State) : Out := alu1 (.popc g rd rs) (popc32) g rd rs s

/-- R174 BREV. -/
def execBrev (g : Fin 2048) (rd rs : Fin 16) (s : State) : Out := alu1 (.brev g rd rs) (brev32) g rd rs s

/-- R174 BSWAP. -/
def execBswap (g : Fin 2048) (rd rs : Fin 16) (s : State) : Out := alu1 (.bswap g rd rs) (bswap32) g rd rs s

/-- R174 SEXTB. -/
def execSextb (g : Fin 2048) (rd rs : Fin 16) (s : State) : Out := alu1 (.sextb g rd rs) (fun x => (x.extractLsb' 0 8).signExtend 32) g rd rs s

/-- R174 SEXTH. -/
def execSexth (g : Fin 2048) (rd rs : Fin 16) (s : State) : Out := alu1 (.sexth g rd rs) (fun x => (x.extractLsb' 0 16).signExtend 32) g rd rs s

/-- R174 SELT: D[rd] := D[rs] if T = 1, else D[rt]. -/
def execSelt (g : Fin 2048) (rd rs rt : Fin 16) (s : State) : Out :=
  keReg (.selt g rd rs rt) g [] 1 (fun r => .ok [.d rd (if r.fl.t then rD r rs else rD r rt)]) s

/-- R174 TEQ. -/
def execTeq (g : Fin 2048) (rs rt : Fin 16) (s : State) : Out := aluT (.teq g rs rt) (fun x y => decide (x = y)) g rs rt s

/-- R174 TLT. -/
def execTlt (g : Fin 2048) (rs rt : Fin 16) (s : State) : Out := aluT (.tlt g rs rt) (fun x y => x.slt y) g rs rt s

/-- R174 TLTU. -/
def execTltu (g : Fin 2048) (rs rt : Fin 16) (s : State) : Out := aluT (.tltu g rs rt) (fun x y => x.ult y) g rs rt s

/-- R174 TBIT. -/
def execTbit (g : Fin 2048) (rs rt : Fin 16) (s : State) : Out := aluT (.tbit g rs rt) (fun x y => x.getLsbD (y.toNat % 32)) g rs rt s

/-- R175 ADDI. -/
def execAddi (g : Fin 2048) (rd rs : Fin 16) (i : BitVec 17) (s : State) : Out :=
  keReg (.addi g rd rs i) g [] 1 (fun r =>
    .ok [.d rd (addA (rD r rs) (i.signExtend 32) false).1, (addA (rD r rs) (i.signExtend 32) false).2]) s

/-- R175 ANDI. -/
def execAndi (g : Fin 2048) (rd rs : Fin 16) (i : BitVec 17) (s : State) : Out :=
  immL (.andi g rd rs i) (fun x y => x &&& y) g rd rs i s

/-- R175 ORI. -/
def execOri (g : Fin 2048) (rd rs : Fin 16) (i : BitVec 17) (s : State) : Out :=
  immL (.ori g rd rs i) (fun x y => x ||| y) g rd rs i s

/-- R175 XORI. -/
def execXori (g : Fin 2048) (rd rs : Fin 16) (i : BitVec 17) (s : State) : Out :=
  immL (.xori g rd rs i) (fun x y => x ^^^ y) g rd rs i s

/-- R175 SHI: imm17[16:15] selects the shift, imm17[14:5] must be 0 (R171), the amount is imm17[4:0]. -/
def execShi (g : Fin 2048) (rd rs : Fin 16) (i : BitVec 17) (s : State) : Out :=
  keReg (.shi g rd rs i) g [] 1 (fun r =>
    if i.extractLsb' 5 10 ≠ 0 then .error 0x01
    else
      let n := i.toNat % 32
      let x := match i.toNat / 2 ^ 15 with
        | 0 => shlS (rD r rs) n
        | 1 => shrS (rD r rs) n
        | 2 => sarS (rD r rs) n
        | _ => rorS (rD r rs) n
      .ok [.d rd x.1, flagS x.1 x.2]) s

/-- R175 CMPI. -/
def execCmpi (g : Fin 2048) (rs : Fin 16) (i : BitVec 17) (s : State) : Out :=
  keReg (.cmpi g rs i) g [] 1 (fun r => .ok [(subA (rD r rs) (i.signExtend 32) false).2]) s

/-- R175 TSTI: the rd field selects the test; 4–15, and TBIT with imm17[16:5] not 0, take fault 0x01. -/
def execTsti (g : Fin 2048) (sel rs : Fin 16) (i : BitVec 17) (s : State) : Out :=
  keReg (.tsti g sel rs i) g [] 1 (fun r =>
    let x := rD r rs
    let y := i.signExtend 32
    match sel.val with
    | 0 => .ok [.t (decide (x = y))]
    | 1 => .ok [.t (x.slt y)]
    | 2 => .ok [.t (x.ult y)]
    | 3 => if 32 ≤ i.toNat then .error 0x01 else .ok [.t (x.getLsbD i.toNat)]
    | _ => .error 0x01) s

/-- R175 MOVI: h = 0 sign-extends, h = 1 writes bits [31:16] and keeps the rest. -/
def execMovi (g : Fin 2048) (rd : Fin 16) (h : Bool) (imm : W16) (s : State) : Out :=
  keReg (.movi g rd h imm) g [] 1 (fun r =>
    .ok [.d rd (if h then imm ++ (rD r rd).extractLsb' 0 16 else imm.signExtend 32)]) s

/-- R176 DIV. -/
def execDiv (g : Fin 2048) (rd rs rt : Fin 16) (s : State) : Out :=
  divForm (.div g rd rs rt) (divQ) g rd rs rt s

/-- R176 DIVU. -/
def execDivu (g : Fin 2048) (rd rs rt : Fin 16) (s : State) : Out :=
  divForm (.divu g rd rs rt) (divuQ) g rd rs rt s

/-- R176 REMS. -/
def execRems (g : Fin 2048) (rd rs rt : Fin 16) (s : State) : Out :=
  divForm (.rems g rd rs rt) (remsQ) g rd rs rt s

/-- R176 REMU. -/
def execRemu (g : Fin 2048) (rd rs rt : Fin 16) (s : State) : Out :=
  divForm (.remu g rd rs rt) (remuQ) g rd rs rt s

end Sys2Proof.Machine
end

