-- ==== Sys2Proof/Machine/SmCmd.lean ====
section
/-! DEFINITION. The short commands of the stage manager (spec/12 R434–R446, R452, spec/10 R374). -/

namespace Sys2Proof.Machine

/-- Source ID of the stage manager's requests (R34, R37). -/
def smSrc : W16 := srcId 0 0x900

/-! ### IDENTIFY, STATUS -/

/-- R442 IDENTIFY. -/
def execIdentify (s : State) : Out :=
  shortCmd { op := 0x01 } (fun e s => cmdDone s e 0 (dataOf [(8, 1, s.blk.rev.toNat), (9, 1, b2n s.blk.fwSlot),
    (10, 4, s.mg.sm.fwVersion.toNat), (16, 8, Config.serial.toNat), (24, 2, s.mg.sm.calSource.toNat),
    (26, 2, leNat (calBytes s 4 2))])) s

/-- Highest thermal VALUE in whole °C. -/
def hottest (s : State) : Int :=
  ((List.range 24).foldl (fun (a : Int) i => max a (gSens s i).value.toInt) (-32768)).tdiv 8

/-- Fill of the ruling half in %. -/
def jFill (s : State) : Nat :=
  match rulingHalf s with
  | some i => (jHalf s i).units * 64 * 100 / 2 ^ 22
  | none => 0

/-- R442 STATUS. -/
def execStatus (s : State) : Out :=
  shortCmd { op := 0x02 } (fun e s => cmdDone s e 0 (dataOf [(8, 8, blkStat s.blk), (16, 1, (opsLive s).length),
    (17, 1, (BitVec.ofInt 8 (hottest s)).toNat), (18, 1, jFill s), (20, 4, s.mg.log.seq.toNat)])) s

/-! ### CONFIG_SET, CONFIG_GET (R443) -/

def itemLen (item : Nat) : Option Nat :=
  match item with
  | 1 => some 12
  | 2 => some 2
  | 3 => some 8
  | 4 => some 16
  | 5 => some 4
  | _ => none

/-- A base of CKPTSLOT. -/
def ckptBaseOk (a : Nat) : Bool := decide (a = 0) || (inExt a 0x4000000 && decide (a % 0x4000000 = 0))

def clkwinOk (v : List W8) : Bool := decide (ent v 0 4 ≤ 5 ∨ (8 ≤ ent v 0 4 ∧ ent v 0 4 ≤ 31))

def sensthrOk (v : List W8) : Bool :=
  let i := ent v 0 1
  let b := ent v 1 1
  decide (i < 40) && decide (b < 16) && decide (b % 4 ≠ 3) && decide (b / 4 ≠ 3) &&
    (decide (i < 24) || (decide (b % 4 ≠ 2) && decide (b / 4 ≠ 2))) &&
    ((decide (24 ≤ i ∧ i < 36)) || decide (ent v 6 2 = 0))

/-- ENGPWR names an engine that the value applies to. -/
def engpwrOk (s : State) (v : List W8) : Bool :=
  let p := ent v 0 1
  decide (p < 68) && match ent v 1 1 with
    | 0 => peMapped s p
    | 1 => decide ((gPe s p).st = .off) && !peMapped s p && !s.mg.sm.retired.contains p
    | _ => false

def itemOk (s : State) (item : Nat) (v : List W8) : Bool :=
  match item with
  | 1 => clkwinOk v
  | 2 => engpwrOk s v
  | 3 => sensthrOk v
  | 4 => ckptBaseOk (ent v 0 8) && ckptBaseOk (ent v 8 8)
  | 5 => decide (1 ≤ ent v 0 4 ∧ ent v 0 4 ≤ 10000000)
  | _ => false

/-- Nominal frequency in kHz and tolerance in ppm that R85 gives a clock by default, where it gives a nominal. -/
def clkDefault (s : State) (id : Nat) : Option (Nat × Nat) :=
  match id with
  | 0 => some (s.clk.nomE / 1000, 5000)
  | 1 => some (s.clk.nomF / 1000, 5000)
  | 2 => some (500000, 5000)
  | 4 => some (156250, 100)
  | _ => none

/-- Default SENSTHR value of a sensor (R425, R426). -/
def sensDefault (i : Nat) : List W8 :=
  if i < 24 then leBytes 1 i ++ leBytes 1 9 ++ leBytes 2 800 ++ leBytes 2 896 ++ leBytes 2 0
  else if i < 36 then leBytes 1 i ++ leBytes 1 5 ++ leBytes 2 (railHigh i) ++ leBytes 2 0 ++ leBytes 2 (railLow i)
  else leBytes 1 i ++ leBytes 1 5 ++ leBytes 2 1 ++ leBytes 2 0 ++ leBytes 2 0

/-- Default value of an item under a key, where there is one. -/
def itemDefault (s : State) (item key : Nat) : Option (List W8) :=
  match item with
  | 1 => (clkDefault s key).map fun x => leBytes 4 key ++ leBytes 4 x.1 ++ leBytes 4 x.2
  | 3 => some (sensDefault key)
  | 4 => some (List.replicate 16 0)
  | 5 => some (leBytes 4 10000)
  | _ => none

/-- ENGPWR with value 0: the engine is reset, unmapped and powered off (R97). -/
def engPowerOff (s : State) (p : Nat) : State :=
  match logicalOf s p with
  | some e => powerDown (mapEng (engineReset s p) e 0x7F) p
  | none => s

/-- ENGPWR with value 1. -/
def engPowerOn (s : State) (p : Nat) : State :=
  match lowestUnmapped s with
  | some _ => powerUp s p false .map
  | none => powerUp s p true .spare

/-- An item takes a value in force, and in the journal with PERSIST. -/
def itemPut (s : State) (item : W16) (v : List W8) (persist : Bool) : State :=
  let key := cfgKey item v
  if persist then
    if itemDefault s item.toNat key = some v then
      mSm (jAppend s (.configDefault item key)) fun m => { m with cfg := cfgDel m.cfg item key }
    else mSm (jAppend s (.config item v)) fun m => { m with
      cfg := cfgPut m.cfg { item := item, key := key, val := v, persist := true } }
  else mSm s fun m => { m with cfg := cfgPut m.cfg { item := item, key := key, val := v, persist := false } }

/-- R443 CONFIG_SET. -/
def execConfigSet (s : State) : Out :=
  shortCmd { op := 0x10, flags := 1, used := [(8, 2), (10, 2), (16, 48)] } (fun e s =>
    let item := ent e 8 2
    let persist := decide (ent e 1 1 = 1)
    match itemLen item with
    | none => cmdDone s e 0x03 []
    | some len =>
      let v := (e.drop 16).take len
      if !entryOk e (if item = 2 then 0 else 1) [(8, 2), (10, 2), (16, len)] || decide (ent e 10 2 ≠ len) || !itemOk s item v then
        cmdDone s e 0x03 []
      else if item = 2 then
        if ckRuns s then cmdDone s e 0x04 []
        else cmdDone (if ent v 1 1 = 0 then engPowerOff s (ent v 0 1) else engPowerOn s (ent v 0 1)) e 0 []
      else if persist then needMram s e fun s => cmdDone (itemPut s (BitVec.ofNat 16 item) v true) e 0 []
      else cmdDone (itemPut s (BitVec.ofNat 16 item) v false) e 0 []) s

/-- Keys of CLKWIN. -/
def clkKeys : List Nat := List.range 6 ++ (List.range 24).map fun i => 8 + i

/-- Which of the keys of an item CONFIG_GET shows, the manual leaves open (log 4). -/
def getKey (s : State) (item : Nat) : Nat :=
  let x := (freeVal s).toNat
  match item with
  | 1 => clkKeys.getD (x % 30) 0
  | 2 => x % 68
  | 3 => x % 40
  | _ => 0

/-- Value of an item in use. A clock without a nominal has an open one (log 4). -/
def itemValue (s : State) (item key : Nat) : List W8 :=
  match cfgVal s (BitVec.ofNat 16 item) key with
  | some v => v
  | none =>
    if item = 2 then leBytes 1 key ++ leBytes 1 (b2n (peMapped s key))
    else match itemDefault s item key with
      | some v => v
      | none => leBytes 4 key ++ leBytes 8 (Config.free64 (s.fresh + 1)).toNat

/-- R443 CONFIG_GET. -/
def execConfigGet (s : State) : Out :=
  shortCmd { op := 0x11, used := [(8, 2), (10, 2)] } (fun e s =>
    let item := ent e 8 2
    let off := ent e 10 2
    match itemLen item with
    | none => cmdDone s e 0x03 []
    | some len =>
      if len ≤ off then cmdDone s e 0x03 []
      else
        let key := getKey s item
        let kept := s.mg.sm.cfg.any fun c => decide (c.item = BitVec.ofNat 16 item ∧ c.key = key) && c.persist
        cmdDone { s with fresh := s.fresh + 2 } e 0
          (leBytes 2 len ++ leBytes 1 (b2n kept) ++ leBytes 1 0 ++ (itemValue s item key).drop off)) s

/-! ### Calibration (R434–R436) -/

/-- R436, R442 CAL_READ. -/
def execCalRead (s : State) : Out :=
  shortCmd { op := 0x20, used := [(8, 2), (10, 2)] } (fun e s =>
    let off := ent e 8 2
    let len := ent e 10 2
    if len = 0 ∨ 24 < len ∨ 0x10000 < off + len then cmdDone s e 0x03 []
    else cmdDone s e 0 (calBytes s off len)) s

/-- R435 CAL_WRITE. -/
def execCalWrite (ans : MemAns) (s : State) : Out :=
  shortCmd { op := 0x21, used := [(8, 2), (10, 2), (16, 8)] } (fun e s =>
    let off := ent e 8 2
    let len := ent e 10 2
    if off < 0x40 ∨ len = 0 ∨ 0x5E0 < off + len ∨ inExt (ent e 16 8) len = false then cmdDone s e 0x03 []
    else if groupBusy s 0x21 || ckRuns s then cmdDone s e 0x04 []
    else match moverRead s smSrc 3 (ent e 16 8) len ans with
      | (s1, none) => cmdDone s1 e 0x07 []
      | (s1, some bs) => needMram s1 e fun s =>
        let s2 := calReplace s 2 (mwrite (calContent s) off bs)
        cmdDone s2 e 0 (dataOf [(8, 4, (calStored s2).toNat)])) s

/-- R436 CAL_EXPORT: all 64 KiB. -/
def execCalExport (ans : MemAns) (s : State) : Out :=
  shortCmd { op := 0x22, used := [(16, 8)] } (fun e s =>
    let a := ent e 16 8
    if a % 64 ≠ 0 ∨ inExt a 0x10000 = false then cmdDone s e 0x03 []
    else match moverWrite s smSrc 3 a (calBytes s 0 0x10000) ans with
      | (s1, false) => cmdDone s1 e 0x07 []
      | (s1, true) => cmdDone s1 e 0 (dataOf [(8, 4, (calStored s).toNat), (12, 2, leNat (calBytes s 6 2))])) s

/-! ### LOG_READ (R427, R428, R442) -/

/-- DLEN and DATA of a record, 0 past DLEN (R427). R244 lays out those of event 0x6101; the widths of the data of the other
codes, and so their bytes, the manual leaves open (log 4). -/
def recData (s : State) (r : LogRec) : Nat × List W8 :=
  if r.code = 0x6101 then
    (12, leBytes 2 (r.data.getD 0 0) ++ leBytes 1 (r.data.getD 1 0) ++ leBytes 1 (r.data.getD 2 0) ++
      leBytes 8 (r.data.getD 3 0))
  else
    let n := (freeVal s).toNat % 17
    (n, (freeBytes (useFree s) 2).take n)

/-- A record's 32 bytes (R427). -/
def recBytes (s : State) (r : LogRec) : List W8 :=
  leBytes 8 r.tb.toNat ++ leBytes 4 r.seq.toNat ++ leBytes 2 r.code.toNat ++
    leBytes 1 (recData s r).1 ++ leBytes 1 0 ++ ((recData s r).2 ++ List.replicate 16 0).take 16

/-- Records with their bytes, each with free values of its own. -/
def recsBytes : State → List LogRec → List W8
  | _, [] => []
  | s, r :: t => recBytes s r ++ recsBytes { s with fresh := s.fresh + 3 } t

/-- Records of the ring from number `first` on, oldest first, at most n. -/
def logFrom (l : LogSt) (first : W32) (n : Nat) : List LogRec :=
  let age (x : W32) : Nat := (l.seq - x).toNat
  if 2 ^ 31 ≤ age first then []
  else ((l.ring.takeWhile fun r => decide (age r.seq ≤ age first)).reverse).take n

/-- R442 LOG_READ: from the ring in MRAM. -/
def execLogRead (ans : MemAns) (s : State) : Out :=
  shortCmd { op := 0x30, used := [(8, 4), (12, 4), (16, 8)] } (fun e s =>
    let n := ent e 12 4
    if n = 0 ∨ 65535 < n ∨ inExt (ent e 16 8) (32 * n) = false then cmdDone s e 0x03 []
    else
      let rs := logFrom s.mg.log (BitVec.ofNat 32 (ent e 8 4)) n
      let first := match rs with | r :: _ => r.seq | [] => BitVec.ofNat 32 (ent e 8 4)
      let data := dataOf [(8, 4, first.toNat), (12, 4, rs.length), (16, 4, (first + BitVec.ofNat 32 rs.length).toNat)]
      if rs.isEmpty then cmdDone s e 0 data
      else match moverWrite { s with fresh := s.fresh + 3 * rs.length } smSrc 3 (ent e 16 8) (recsBytes s rs) ans with
        | (s1, false) => cmdDone s1 e 0x07 []
        | (s1, true) => cmdDone s1 e 0 data) s

/-! ### FW_ACTIVATE (R450, R452) -/

/-- Why a slot's image is refused. An empty slot holds no signature; what its event shows, the manual leaves open (log 4). -/
def slotRefused (s : State) (n : Nat) : Option (W16 × List Nat) :=
  match fwSlot s n with
  | some i => imgRefused s 1 (secverMin s) i
  | none => some (0x8001, [(freeVal s).toNat, (freeVal s).toNat / 2 ^ 16])

/-- The stage manager restarts onto slot n, until `restartEnd`; in RECOVERY start-up runs instead (R100). -/
def fwRestart (s : State) (n : Nat) (i : Image) : State :=
  if s.aon.power = .recovery then
    mLog (mSm (toBoot s) fun m => { m with alive := false }) fun l => { l with opened := false }
  else mSm (mBlk s fun b => { b with fwSlot := decide (n = 1) }) fun m => { m with
    fwVersion := i.version, alive := false, restart := true }

/-- R452 FW_ACTIVATE. -/
def execFwActivate (s : State) : Out :=
  shortCmd { op := 0x41, used := [(8, 1)] } (fun e s =>
    let n := ent e 8 1
    if 1 < n then cmdDone s e 0x03 []
    else if groupBusy s 0x41 then cmdDone s e 0x04 []
    else if !(opsLive s).isEmpty then cmdDone s e 0x09 []
    else match slotRefused s n, fwSlot s n with
      | none, some i => needMram s e fun s =>
        let s1 := secverRaise (jAppend s (.fwAct n i.version)) i
        fwRestart (cmdDone s1 e 0 []) n i
      | some (c, d), _ => cmdDone (logEv (useFree s) c d) e 0x06 []
      | none, none => cmdDone s e 0x06 []) s

/-! ### REPLAY_ARM (R374, R377, R442) -/

/-- The range of a port lies inside the prompt book. -/
def rangeOk (s : State) (r : W32 × W32) : Bool :=
  let u := s.tr.ush
  let n := (u.pbWr - u.pbRd).toNat
  decide ((r.1 - u.pbRd).toNat ≤ (r.2 - u.pbRd).toNat) && decide ((r.2 - u.pbRd).toNat < n)

/-- The port's own entries in its range, in ring order. -/
def rangeEntries (tbl : ReplayTable) (n : Nat) (rx : Bool) : List (W32 × PbEntry) :=
  let r := tbl.ranges.getD n (0, 0)
  tbl.entries.filter fun x => decide (x.2.port.val = n) && decide (x.2.rx = rx) &&
    decide ((x.1 - r.1).toNat ≤ (r.2 - r.1).toNat)

/-- Port n with the domains that its range names as feeding it (R374, DEDUCED log 26). -/
def rangePort (tbl : ReplayTable) (s : State) (n : Nat) : Dp :=
  let d := gDp s n
  { d with fed := (rangeEntries tbl n false).foldr (fun x l => insAsc x.2.od.toNat l) d.fed }

/-- Port n enters REPLAY; with no entry of its own it leaves it at once. -/
def replayArmPort (tbl : ReplayTable) (s : State) (n : Nat) : State :=
  let r := tbl.ranges.getD n (0, 0)
  let s1 := mDp (domsZero s (rangePort tbl s n)) n fun d => { d with
    mode := .replay, cfg := (d.cfg &&& ~~~ (3 : W64)) ||| 2, rpTx := rangeEntries tbl n false
    rpRx := rangeEntries tbl n true, rpRet := 0, rpLate := false, rpLogTx := false, rpLogRx := false }
  replayEnd (logEv s1 0x5011 [n, r.1.toNat, r.2.toNat]) n

/-- R374, R442 REPLAY_ARM. -/
def execReplayArm (tbl : Option ReplayTable) (s : State) : Out :=
  shortCmd { op := 0x78, used := [(8, 2), (16, 8)] } (fun e s =>
    let ports := (List.range 16).filter fun n => bitOf (ent e 8 2) n
    if !s.tr.ush.pbEn || !inExt (ent e 16 8) 256 || ports.any fun n => !(gDp s n).en || decide ((gDp s n).mode = .record) then
      cmdDone s e 0x03 []
    else if ckRuns s then cmdDone s e 0x04 []
    else match tbl with
      | none => cmdDone s e 0x07 []
      | some t =>
        if ports.any fun n => !rangeOk s (t.ranges.getD n (0, 0)) then cmdDone s e 0x03 []
        else if ports.any fun n => !domsEmpty s (rangePort t s n) then cmdDone s e 0x09 []
        else cmdDone (foldNat (replayArmPort t) s ports) e 0 []) s

/-! ### SUSPEND, RESUME, CANCEL, OP_STATUS (R444–R446) -/

/-- FLAGS of an operation's command. -/
def opPersist (o : OpSlot) : Bool := bitOf (ent o.cmd 1 1) 0
def opHold (o : OpSlot) : Bool := bitOf (ent o.cmd 1 1) 1

/-- The operation has suspend points (R446). -/
def canSuspend (o : OpSlot) : Bool :=
  match opCode o with
  | 0x23 => true
  | 0x40 => true
  | 0x50 => true
  | 0x51 => true
  | 0x70 => opHold o
  | 0x71 => opHold o
  | _ => false

/-- A command on an op handle: NOHANDLE where it names no operation, otherwise `f` gives the result and the slot. -/
def onOp (op : Nat) (f : OpSlot → W8 × OpSlot) (s : State) : Out :=
  shortCmd { op := op, used := [(8, 2)] } (fun e s =>
    match ophSlot s (ent e 8 2) with
    | none => cmdDone s e 0x0A []
    | some i => cmdDone (mOp s i fun o => (f o).2) e (f (gOp s i)).1.toNat []) s

/-- R445 SUSPEND. -/
def execSuspend (s : State) : Out :=
  onOp 0xF0 (fun o =>
    if !canSuspend o then (0x09, o)
    else if o.st = .intermission then (0, o)
    else if o.st = .running then (0, { o with susp := true })
    else (0x09, o)) s

/-- R445 RESUME. -/
def execResume (s : State) : Out :=
  onOp 0xF1 (fun o => if o.st = .intermission then (0, { o with st := .running, susp := false }) else (0x09, o)) s

/-- R445, R446 CANCEL: from INTERMISSION in any case, from RUNNING before the commit point. -/
def execCancel (s : State) : Out :=
  onOp 0xF2 (fun o =>
    if o.st = .intermission ∨ (o.st = .running ∧ !o.committed) then (0, { o with st := .cancelling, susp := false })
    else (0x09, o)) s

/-- R442, R444 OP_STATUS: the result of an operation that has not ended is open (log 4). -/
def execOpStatus (s : State) : Out :=
  shortCmd { op := 0xF3, used := [(8, 2)] } (fun e s =>
    match ophSlot s (ent e 8 2) with
    | none => cmdDone s e 0x0A []
    | some i =>
      let o := gOp s i
      let res := if opLive o then (freeVal s).toNat else o.result.toNat
      cmdDone (if opLive o then useFree s else s) e 0 (dataOf [(8, 1, opStNum o.st), (9, 1, res), (10, 1, opCode o),
        (12, 4, o.prog), (16, 4, o.total)])) s

end Sys2Proof.Machine
end

