-- ==== Sys2Proof/Machine/SmOps.lean ====
section
/-! DEFINITION. Long operations of the stage manager on the journal, the firmware, the calibration and an engine's self test
(spec/12 R432, R433, R446, R451, R458, spec/08 R302, R303). A step of an operation does `n` of its work units. -/

namespace Sys2Proof.Machine

/-- One step of an operation: its work while it runs, or the work of its cancel. -/
def opStep (s : State) (i : Nat) (run cancel : State → State) : State :=
  match (gOp s i).st with
  | .running => run s
  | .cancelling => cancel s
  | _ => s

/-! ### Progress in bytes (R442, R446) -/

/-- Between two 64 KiB blocks. -/
def atBlock (o : OpSlot) : Bool := decide (0 < o.prog ∧ o.prog < o.total) && decide (o.prog % 65536 = 0)

/-- n bytes further; with a suspend pending not past the end of the block. -/
def bytesGo (n : Nat) (o : OpSlot) : OpSlot :=
  { o with prog :=
      if !o.susp then min (o.prog + n) o.total
      else if atBlock o then o.prog
      else min (min (o.prog + n) o.total) ((o.prog / 65536 + 1) * 65536) }

/-! ### JOURNAL_COMPACT (R432, R433) -/

/-- The other half takes its header; the operation keeps how many records the image will hold. -/
def compactAccept (e : List W8) (s : State) : State :=
  if compactDue s then cmdDone s e 0x04 []
  else match rulingHalf s with
    | none => cmdDone s e 0x09 []
    | some h =>
      let n := (jHalf s h).recs.length
      longAccept (jImage (jView (jHalf s h).recs)).length (fun o => { o with arg := n }) e s

/-- The half that the next compaction leaves. -/
def compactRun (n i : Nat) (s : State) : State :=
  opStep s i (fun s =>
    let s1 := mOp (if (gOp s i).phase = 0 then compactBegin s else s) i fun o => { o with
      phase := 1, prog := min (o.prog + n) o.total }
    let o := gOp s1 i
    if o.prog < o.total then s1
    else opMram s1 i fun s =>
      let img := match rulingHalf s with
        | some h => jImage (jView ((jHalf s h).recs.take o.arg))
        | none => []
      let s2 := compactEnd (mOp s i fun o => { o with committed := true }) o.arg
      opOk s2 i (dataOf [(8, 8, jGen s2), (16, 4, 64 * unitsOf img)])) (fun s => opCancelled s i)

/-- R432 JOURNAL_COMPACT. -/
def execJournalCompact (n : Nat) (s : State) : Out := longCmd { op := 0x31 } compactAccept (compactRun n) s

/-! ### FW_UPDATE (R451) -/

/-- Slot that is not running. -/
def fwIdle (s : State) : Nat := if s.blk.fwSlot then 0 else 1

def fwAccept (e : List W8) (s : State) : State :=
  if 0x400000 < ent e 24 4 ∨ inExt (ent e 16 8) (ent e 24 4) = false then cmdDone s e 0x03 []
  else longAccept (ent e 24 4) (fun o => { o with arg := fwIdle s }) e s

/-- Why the bytes that an operation read are refused: an image of another length than LEN has no valid signature. -/
def opRefused (s : State) (o : OpSlot) (kind : W16) (i : Image) : Option (W16 × List Nat) :=
  if i.len ≠ o.total then some (0x8001, [i.kind.toNat, i.keyslot.toNat]) else imgRefused s kind (secverMin s) i

/-- The whole slot has been written: it is verified. -/
def fwVerify (s : State) (i : Nat) (img : Image) : State :=
  let o := gOp s i
  let s1 := fwPut s o.arg (some img)
  match opRefused s1 o 1 img with
  | none => opOk s1 i (dataOf [(8, 1, o.arg), (12, 4, img.version.toNat)])
  | some (c, d) => opFail (jAppend (logEv s1 c d) (.fwInvalid o.arg)) i 0x06

def fwRun (n : Nat) (ans : ImgAns) (i : Nat) (s : State) : State :=
  opStep s i (fun s => match ans, (gOp s i).img with
    | .memErr, _ => opFail s i 0x07
    | .ok img, none => fwGo (mOp (fwPut s (gOp s i).arg none) i fun o => { o with img := some img })
    | .ok _, some _ => fwGo s) (fun s =>
    opCancelled (jAppend s (.fwInvalid (gOp s i).arg)) i)
where
  /-- n more bytes; the last ones are followed by the verification. -/
  fwGo (s : State) : State :=
    let s1 := mOp s i (bytesGo n)
    match (gOp s1 i).img with
    | some img => if (gOp s1 i).prog < (gOp s1 i).total then s1 else opMram s1 i fun s => fwVerify s i img
    | none => s1

/-- R451 FW_UPDATE. -/
def execFwUpdate (n : Nat) (ans : ImgAns) (s : State) : Out :=
  longCmd { op := 0x40, used := [(16, 8), (24, 4)] } fwAccept (fwRun n ans) s

/-! ### CAL_PINS (R279, R302, R303) -/

/-- Banks of the command in turn. -/
def calBanks (o : OpSlot) : List Nat := (List.range 32).filter fun b => bitOf (ent o.cmd 8 4) b

def calPinsAccept (e : List W8) (s : State) : State :=
  if ent e 8 4 = 0 then cmdDone s e 0x03 []
  else longAccept ((List.range 32).filter fun b => bitOf (ent e 8 4) b).length id e s

/-- A pin at pause entry: its queued cues are dropped and counted, its levels are kept. -/
def pinPause (p : Pin) : Pin :=
  { p with cueQ := [], cueDrop := satAdd p.cueDrop p.cueQ.length, keptOut := p.out, keptOe := p.oe, lpbk := true }

/-- The bank is paused. -/
def bankPause (s : State) (b : Nat) : State :=
  let s1 := foldNat (fun acc j => mPin acc (8 * b + j) pinPause) s (List.range 8)
  mBank s1 b fun k => { k with
    paused := true
    sq := match k.sq.st with
      | .halt | .paused => k.sq
      | .run | .wait => { k.sq with req := k.sq.req ++ [.pause] }
      | .stopped | .trapped => { k.sq with st := .paused, kept := k.sq.st } }

/-- The pause ends: pins, sequencer. -/
def bankResume (s : State) (b : Nat) : State :=
  let s1 := foldNat (fun acc j => mPin acc (8 * b + j) fun p => { p with
    out := p.keptOut, oe := p.keptOe, lpbk := false }) s (List.range 8)
  mBank s1 b fun k => { k with
    paused := false
    sq := if k.sq.st = .paused then sqGoOn s k.sq else { k.sq with req := k.sq.req.filter fun r => decide (r ≠ .pause) } }

/-- (mean of the loop delays − d) ÷ 2 in steps of 750 fs, to the nearest step. -/
def trimOf (ds : List Int) (d : Int) : Int := (2 * (ds.foldl (fun a x => a + x) 0 - 8 * d) + 12000) / 24000

/-- Trims of the eight pins before clamping. -/
def trimsOf (c : BankCal) : List Int :=
  let ds := (List.range 8).map fun j => c.delays.getD j 0
  ds.map (trimOf ds)

/-- A trim within the range of R300. -/
def trimClamp (x : Int) : Int := max (-128) (min 127 x)

/-- The pins that are clamped. -/
def clampedOf (c : BankCal) : List Nat :=
  (List.range 8).filter fun j => decide (trimClamp ((trimsOf c).getD j 0) ≠ (trimsOf c).getD j 0)

/-- The new content of the calibration page: the bank's trims and its linearity table. -/
def bankContent (s : State) (b : Nat) (c : BankCal) : Mem :=
  let m := mwrite (calContent s) (0x40 + 8 * b) ((trimsOf c).map fun x => BitVec.ofInt 8 (trimClamp x))
  mwrite m (0x140 + 32 * b) (((List.range 16).map fun i => leBytes 2 (c.lin.getD i 0).toNat).flatten)

/-- The bank that is paused is measured, its set committed, and its pause ends. -/
def bankFinish (s : State) (b : Nat) (c : BankCal) : State :=
  let cl := clampedOf c
  let s1 := cl.foldl (fun acc j =>
    logEv acc 0x6302 [8 * b + j, (BitVec.ofInt 32 ((trimsOf c).getD j 0)).toNat]) s
  let s2 := mBank s1 b fun k => { k with outRange := BitVec.ofNat 8 (cl.foldl (fun a j => a + 2 ^ j) 0) }
  logEv (bankResume (calReplace s2 3 (bankContent s2 b c)) b) 0x6301 [b, cl.length]

/-- The bank in turn is paused, if it is not. -/
def calNext (s : State) (i : Nat) : State :=
  let o := gOp s i
  if o.phase = 1 then s
  else match (calBanks o)[o.prog]? with
    | some b => mOp (bankPause s b) i fun o => { o with phase := 1 }
    | none => s

/-- The bank in turn is finished. -/
def calBank (i : Nat) (s : State) (c : BankCal) : State :=
  let s1 := calNext s i
  let o := gOp s1 i
  match (calBanks o)[o.prog]? with
  | some b =>
    if s1.mg.mram.wrErr then opFail (takeWrErr (bankResume s1 b)) i 0x0E
    else mOp (bankFinish s1 b c) i fun o => { o with
      phase := 0, prog := o.prog + 1, arg := if (clampedOf c).isEmpty then o.arg else o.arg + 2 ^ b }
  | none => s1

/-- The first n measurements, one bank each, while the operation runs; with a suspend pending none is begun. -/
def calGo (i : Nat) : Nat → List BankCal → State → State
  | n + 1, c :: cs, s =>
    let o := gOp s i
    if o.st = .running && (o.phase = 1 || !(o.susp && decide (0 < o.prog ∧ o.prog < o.total))) then
      calGo i n cs (calBank i s c)
    else s
  | _, _, s => s

def calPinsData (o : OpSlot) : List W8 :=
  dataOf [(8, 4, ((calBanks o).take o.prog).foldl (fun a b => a + 2 ^ b) 0), (12, 4, o.arg)]

def calPinsRun (n : Nat) (cals : List BankCal) (i : Nat) (s : State) : State :=
  opStep s i (fun s =>
    if n = 0 then
      if (gOp s i).susp && decide (0 < (gOp s i).prog) then s else calNext s i
    else
      let s1 := calGo i n cals s
      let o := gOp s1 i
      if o.st = .running && decide (o.total ≤ o.prog) then opOk s1 i (calPinsData o) else s1) (fun s =>
    if (gOp s i).phase = 1 then
      match cals with
      | c :: _ =>
        let s1 := calBank i s c
        if (gOp s1 i).st = .cancelling then opCancelled s1 i else s1
      | [] => s
    else opCancelled s i)

/-- R302 CAL_PINS: with n at 0 the next bank is paused; with n measurements n banks are finished. -/
def execCalPins (n : Nat) (cals : List BankCal) (s : State) : Out :=
  longCmd { op := 0x23, used := [(8, 4)] } calPinsAccept (calPinsRun n cals) s

/-! ### ENGINE_BIST (R446, R447, R458) -/

/-- An ENGINE_SWING is staging physical engine p. -/
def swingStages (s : State) (p : Nat) : Bool :=
  match opOf s 0x60 with
  | some i => decide ((gOp s i).arg = p)
  | none => false

/-- The operation keeps the engine and whether it counted as failed. -/
def bistAccept (e : List W8) (s : State) : State :=
  let p := ent e 8 1
  if 68 ≤ p ∨ peMapped s p then cmdDone s e 0x03 []
  else if swingStages s p then cmdDone s e 0x04 []
  else if (gPe s p).st ≠ .off then cmdDone s e 0x09 []
  else
    let i := nextSlot s
    let bad := (gPe s p).failed
    let s1 := longAccept 1 (fun o => { o with arg := p + 128 * b2n bad }) e s
    if opRuns s1 0x61 && !opRuns s 0x61 then powerUp s1 p true (.bist i) else s1

/-- A pass: a retired engine returns to service. -/
def bistPass (s : State) (i p : Nat) : State :=
  let back := s.mg.sm.retired.contains p
  let s1 := mPe s p fun x => { x with failed := false }
  let s2 := if back then
      logEv (mSm (jAppend s1 (.engReturn p)) fun m => { m with retired := m.retired.filter fun q => decide (q ≠ p) }) 0x7042 [p]
    else s1
  opOk (powerDown (mOp s2 i fun o => { o with prog := 1 }) p) i (dataOf [(8, 1, 0)])

/-- A fail: the engine is retired. -/
def bistFailed (s : State) (i p : Nat) : State :=
  let s1 := mSm (jAppend (powerDown s p) (.engRetire p)) fun m => { m with retired := insAsc p m.retired }
  opOk (mapStat (mOp s1 i fun o => { o with prog := 1 })) i (dataOf [(8, 1, 1)])

def bistRun (n : Nat) (pass : Bool) (i : Nat) (s : State) : State :=
  let p := (gOp s i).arg % 128
  opStep s i (fun s =>
    if n = 0 then s
    else match (gPe s p).st with
      | .bist => opMram s i fun s =>
        if pass then bistPass s i p else bistFailed (logEv (peFail s p) 0x1022 [p, 0x7F]) i p
      | .on => opMram s i fun s => bistPass s i p
      | .off => opMram s i fun s => bistFailed s i p
      | _ => s) (fun s =>
    opCancelled (mapStat (mPe (powerDown s p) p fun x => { x with failed := decide (128 ≤ (gOp s i).arg) })) i)

/-- R458 ENGINE_BIST: it ends with `pass` when the engine is in BIST, or with what ENGINE_BIST_DONE has left. -/
def execEngineBist (n : Nat) (pass : Bool) (s : State) : Out :=
  longCmd { op := 0x61, used := [(8, 1)] } bistAccept (bistRun n pass) s

end Sys2Proof.Machine
end

