-- ==== Sys2Proof/Machine/SmRep.lean ====
section
/-! DEFINITION. REPERTORY_LOAD and REPERTORY_SWAP (spec/12 R446, R449–R455, spec/06 R246). Phases of both: 0 the image is still to
be read, 1 its bytes are being read, 2 its pinned lines are being filled, and for a swap 3 its threads run to their curtain
points. -/

namespace Sys2Proof.Machine

/-! ### What both share -/

def repAccept (e : List W8) (s : State) : State :=
  let max := if bitOf (ent e 1 1) 0 then 0x400000 else 0x4000000000
  if max < ent e 24 4 ∨ inExt (ent e 16 8) (ent e 24 4) = false then cmdDone s e 0x03 []
  else longAccept (ent e 24 4) (fun o => { o with arg := repOther s }) e s

/-- The PERSIST slot is invalid again. -/
def repInvalid (s : State) (i : Nat) : State :=
  if opPersist (gOp s i) && decide ((gOp s i).phase ≠ 0) then
    jAppend (repPut s (gOp s i).arg none) (.repInvalid (gOp s i).arg)
  else s

/-- The new pages are free again, when they had been loaded. -/
def repUnload (s : State) (i : Nat) : State :=
  match (gOp s i).img with
  | some img => if 2 ≤ (gOp s i).phase then (pagesOf img).foldl freePage s else s
  | none => s

/-- The operation ends without its image in use. -/
def repFail (s : State) (i : Nat) (res : W8) : State := opFail (repInvalid (repUnload s i) i) i res

/-- Every thread that the image names is in HALT and no swap is pending for it (R454). -/
def namedIdle (s : State) (img : Image) : Bool :=
  (namedBy img).all fun g => !isMapped s (g / 32) ||
    (decide ((gThr s (thrKey s g)).st = .halt) && !(gThr s (thrKey s g)).swap)

/-- The image has been read: it is verified before anything is loaded. `idle` says that the command asks for idle threads. -/
def repRead (s : State) (i : Nat) (idle : Bool) (img : Image) : State :=
  match opRefused s (gOp s i) 2 img with
  | some (c, d) => opFail (logEv s c d) i 0x06
  | none =>
    if pinsBad img then opFail s i 0x03
    else if idle && !namedIdle s img then opFail s i 0x09
    else if pagesClash s img then opFail s i 0x08
    else
      let s1 := mOp s i fun o => { o with img := some img, phase := 1 }
      if opPersist (gOp s i) then repPut s1 (gOp s i).arg none else s1

/-- All bytes are there: with PERSIST they are in the slot, the code is loaded and the lines are pinned. The digest is extended
when the image comes into use. -/
def repLoad (s : State) (i : Nat) (img : Image) : State :=
  let s1 := if opPersist (gOp s i) then repPut s (gOp s i).arg (some img) else s
  let s2 := mSm (loadCode s1 img) fun m => { m with digest := s.mg.sm.digest }
  let s3 := mOp s2 i fun o => { o with phase := 2 }
  match pinsOfImage s3 img with
  | .ok s4 => s4
  | .error s4 => repFail s4 i 0x08

/-- Fills of pinned lines of the image are under way. -/
def pinsPending (s : State) (img : Image) : Bool :=
  (threadsOf img).any fun t => isMapped s (t.g.val / 32) && t.pinned.any fun a =>
    (gIc s (secEng s t)).fills.any fun f => f.pin && decide (f.line = a.toNat / 64)

/-- Every line of the image is pinned. -/
def pinsHere (s : State) (img : Image) : Bool :=
  (threadsOf img).all fun t => !isMapped s (t.g.val / 32) || t.pinned.all fun a => linePinned s (secEng s t) (a.toNat / 64)

/-- The digest is extended. -/
def repDigest (s : State) (img : Image) : State :=
  mSm s fun m => { m with digest := Config.sha384Pair m.digest (imgDigest img) }

/-- The steps up to the pinned lines; `go` goes on from there. -/
def repSteps (n : Nat) (ans : ImgAns) (idle : Bool) (i : Nat) (go : State → Image → State) (s : State) : State :=
  let next (s : State) : State :=
    match (gOp s i).img with
    | none => s
    | some img =>
      if (gOp s i).phase < 2 then s
      else if pinsPending s img then s
      else if !pinsHere s img then repFail s i 0x07
      else go s img
  let load (s : State) : State :=
    let s1 := mOp s i (bytesGo n)
    match (gOp s1 i).img with
    | none => s1
    | some img =>
      if (gOp s1 i).prog < (gOp s1 i).total then s1
      else if s1.mg.mram.wrErr then repFail (takeWrErr s1) i 0x0E
      else next (repLoad s1 i img)
  match (gOp s i).phase, ans with
  | 0, .ok img =>
    let s1 := repRead s i idle img
    if (gOp s1 i).phase = 1 then load s1 else s1
  | 0, .memErr => opFail s i 0x07
  | 1, .ok _ => load s
  | 1, .memErr => repFail s i 0x07
  | _, _ => next s

/-! ### REPERTORY_LOAD (R454) -/

/-- The image comes into use: bills, threads, banks, then REP_ACT. -/
def loadDone (i : Nat) (s : State) (img : Image) : State :=
  let here := (threadsOf img).filter fun t => isMapped s (t.g.val / 32)
  let s1 := repDigest (placeImage (mOp s i fun o => { o with committed := true }) img here) img
  let s2 := if opPersist (gOp s i) then
      secverRaise (jAppend s1 (.repAct (gOp s i).arg (imgDigest img))) img
    else s1
  opOk s2 i (dataOf [(8, 4, here.length), (12, 4, (banksOf img).length)])

def loadRun (n : Nat) (ans : ImgAns) (i : Nat) (s : State) : State :=
  opStep s i (repSteps n ans true i (loadDone i)) (fun s => opCancelled (repInvalid (repUnload s i) i) i)

/-- R454 REPERTORY_LOAD. -/
def execRepertoryLoad (n : Nat) (ans : ImgAns) (s : State) : Out :=
  longCmd { op := 0x50, flags := 1, used := [(16, 8), (24, 4)] } repAccept (loadRun n ans) s

/-! ### REPERTORY_SWAP (R246, R455) -/

/-- A pending swap for thread g, which accepts the numbers of its map. -/
def swapMark (s : State) (m : Nat × List (W16 × W48)) : State :=
  if isMapped s (m.1 / 32) then
    mThr s (thrKey s m.1) fun t => { t with swap := true, swapNums := some (m.2.map Prod.fst) }
  else s

/-- The thread with key k goes on from a curtain point, at `pc` when one is given. -/
def curtainGo (s : State) (k : Nat) (pc : Option W48) : State :=
  mThr s k fun t =>
    let t1 := { t with swap := false, swapNums := none }
    if t.curtain then
      let t2 := { t1 with curtain := false, r := { t1.r with pc := pc.getD t1.r.pc } }
      if t.st = .wait then { t2 with st := .run, waitK := none } else t2
    else t1

/-- The pending swaps of an image's threads are cleared, and stopped threads go on unchanged. -/
def swapUndo (s : State) (i : Nat) : State :=
  match (gOp s i).img with
  | some img =>
    if 3 ≤ (gOp s i).phase then
      (mapsOf img).foldl (fun acc m => if isMapped acc (m.1 / 32) then curtainGo acc (thrKey acc m.1) none else acc) s
    else s
  | none => s

/-- Thread g is stopped at a curtain point or in HALT. -/
def swapStopped (s : State) (g : Nat) : Bool :=
  !isMapped s (g / 32) || (gThr s (thrKey s g)).curtain || decide ((gThr s (thrKey s g)).st = .halt)

/-- THREAD values of a thread that keeps its PC. -/
def swapValues (s : State) (t : ThreadSec) : State :=
  let k := thrKey s t.g.val
  if (gThr s k).curtain then placeThread s { t with pc := (gThr s k).r.pc } else placeThread s t

/-- A stopped thread takes the resume address of its curtain point and goes on. -/
def swapResume (s : State) (m : Nat × List (W16 × W48)) : State :=
  if isMapped s (m.1 / 32) then
    let k := thrKey s m.1
    curtainGo s k ((m.2.find? fun p => decide (p.1 = (gThr s k).cptAt)).map Prod.snd)
  else s

/-- Old code pages of the swapped threads. -/
def oldPages (s : State) (img : Image) : List Nat :=
  (s.mg.sm.pages.filter fun q => !q.2.isEmpty && q.2.all (namedBy img).contains && !(pagesOf img).contains q.1).map Prod.fst

/-- SWAP_COMMIT, and the apply phase. -/
def swapApply (i : Nat) (s : State) (img : Image) : State :=
  let o := gOp s i
  let slot := if opPersist o then o.arg else 0xFF
  let us := usSince s o.t0
  let s1 := repDigest (mOp s i fun o => { o with committed := true }) img
  let s2 := logEv (jAppend s1 (.swapCommit (BitVec.ofNat 16 (ophOf s i)) s1.mg.sm.digest slot)) 0x7060 [ophOf s i, slot]
  let s3 := img.sections.foldl placeOther s2
  let s4 := (mapsOf img).foldl swapResume ((threadsOf img).foldl swapValues s3)
  let s5 := pagesFree (mSm s4 fun m => { m with oldPages := (oldPages s4 img ++ m.oldPages).foldr insAsc [] })
  opOk s5 i (dataOf [(8, 4, (namedBy img).length), (12, 4, us)])

def swapCancel (s : State) (i : Nat) : State := repInvalid (repUnload (swapUndo s i) i) i

/-- The lines are pinned: the swaps are pending, and once every named thread is stopped the swap commits. -/
def swapGo (i : Nat) (s : State) (img : Image) : State :=
  if (gOp s i).phase = 2 then
    (mapsOf img).foldl swapMark (mOp s i fun o => { o with phase := 3, t0 := s.tb.now })
  else if (namedBy img).all (swapStopped s) then
    if s.mg.mram.wrErr then opFail (swapCancel (takeWrErr s) i) i 0x0E else swapApply i s img
  else s

def swapRun (n : Nat) (ans : ImgAns) (i : Nat) (s : State) : State :=
  opStep s i (repSteps n ans false i (swapGo i)) (fun s => opCancelled (swapCancel s i) i)

/-- R455 REPERTORY_SWAP. -/
def execRepertorySwap (n : Nat) (ans : ImgAns) (s : State) : Out :=
  longCmd { op := 0x51, flags := 1, used := [(16, 8), (24, 4), (28, 4)] } repAccept (swapRun n ans) s

end Sys2Proof.Machine
end

