-- ==== Sys2Proof/Machine/SmSwing.lean ====
section
/-! DEFINITION. ENGINE_SWING (spec/12 R446, R456, R457). Phases: 0 the new engine powers up, 1 its pinned lines are being filled,
2 the threads drain. -/

namespace Sys2Proof.Machine

/-- Entries with keys in [a, a+n) move to [b, b+n). -/
def tmove {α : Type} (t : Tab α) (a b n : Nat) : Tab α :=
  (t.filter fun x => decide (a ≤ x.1 ∧ x.1 < a + n)).foldl (fun acc x => tput (x.1 - a + b) x.2 (tdel acc (x.1 - a + b))) (tclr (tclr t a n) b n)

/-- SWAPTMO in µs (R443), or the timeout that a command names. -/
def swapTmo (s : State) : Nat :=
  match cfgVal s 0x0005 0 with
  | some v => ent v 0 4
  | none => 10000
def cmdTmo (s : State) (t : Nat) : Nat := if t = 0 then swapTmo s else t

/-- Fields of the command: logical engine, RETIRE, BIST. -/
def swEng (o : OpSlot) : Nat := ent o.cmd 8 1
def swRetire (o : OpSlot) : Bool := bitOf (ent o.cmd 10 1) 0

/-- The swing engine to take: the one that is named, or the lowest. -/
def swPick (s : State) (n : Nat) : Option Nat := (swingEngines s).find? fun p => decide (n = 0xFF ∨ p = n)

def swingAccept (e : List W8) (s : State) : State :=
  let i := nextSlot s
  if 64 ≤ ent e 8 1 ∨ (68 ≤ ent e 9 1 ∧ ent e 9 1 ≠ 0xFF) ∨ 4 ≤ ent e 10 1 ∨ isMapped s (ent e 8 1) = false then
    cmdDone s e 0x03 []
  else if longBusy s 0x60 then cmdDone s e 0x04 []
  else match swPick s (ent e 9 1) with
    | none => cmdDone s e 0x08 []
    | some q =>
      needMram s e fun s => powerUp (opStart s e 32 fun o => { o with arg := q }) q (bitOf (ent e 10 1) 1) (.swing i)

/-- Pinned lines of physical engine p. -/
def pinnedLines (s : State) (p : Nat) : List Nat :=
  ((gIc s p).sets.map fun x => (x.2.filter fun l => l.pinned).map fun l => l.line).flatten

/-- Source ID of the staging of swing engine q (R35, R384): which of the four IDs it has is the number of engines that are not
mapped below it (DESIGN CHOICE log 19). -/
def swingSrc (s : State) (q : Nat) : W16 :=
  srcId 0 (0x880 + ((List.range q).filter fun p => (logicalOf s p).isNone).length % 4)

/-- A thread counts as stopped (R456 step 3). -/
def swingStopped (t : Thread) : Bool :=
  t.curtain || decide (t.st = .halt) || decide (t.st = .faulted) ||
    (decide (t.st = .wait) && t.save.isNone && t.posted.isEmpty)

/-- Threads of physical engine p that count as stopped. -/
def stoppedCount (s : State) (p : Nat) : Nat :=
  ((List.range 32).filter fun t => swingStopped (gThr s (p * 32 + t))).length

/-- Every thread of physical engine p goes on from its curtain point, and no swap is pending. -/
def swingRelease (s : State) (p : Nat) : State := foldNat (fun acc t => curtainGo acc (p * 32 + t) none) s (List.range 32)

/-- Every thread of physical engine p has a pending swap that accepts every curtain point. -/
def swingMark (s : State) (p : Nat) : State :=
  foldNat (fun acc t => mThr acc (p * 32 + t) fun x => { x with swap := true, swapNums := none }) s (List.range 32)

/-- The cancel of a swing: the threads go on on the old engine, the swing engine is powered off. -/
def swingUndo (s : State) (i : Nat) : State :=
  let o := gOp s i
  let s1 := if o.phase = 2 && isMapped s (swEng o) then swingRelease s (physOf s (swEng o)) else s
  powerDown s1 o.arg

/-- Logical engine e moves from physical engine p to q: local memory, threads, control page, dispatch queue, mapping. -/
def engineMove (s : State) (e p q : Nat) : State :=
  let bad (w : Nat) : Bool := decide (p * 0x8000 ≤ w ∧ w < p * 0x8000 + 0x8000)
  let old (w : Nat) : Bool := decide (q * 0x8000 ≤ w ∧ w < q * 0x8000 + 0x8000)
  let s1 := mRam s fun r => { r with
    lm := tmove r.lm (p * 0x40000) (q * 0x40000) 0x40000
    lmBad := ((r.lmBad.filter bad).map fun w => w - p * 0x8000 + q * 0x8000).foldr insAsc
      (r.lmBad.filter fun w => !bad w && !old w) }
  let s2 := { s1 with en := { s1.en with
    thr := tmove s1.en.thr (p * 32) (q * 32) 32, eng := tmove s1.en.eng p q 1 } }
  mUsh (mapEng s2 e q) fun u => { u with win := u.win.map fun x => (x.1, x.2.map fun k =>
    if k.st = .queued p then { k with st := .queued q } else k) }

/-- The old engine is reset and powered off. -/
def engineRetireOld (s : State) (p : Nat) : State :=
  let s1 := (gIc s p).fills.foldl (fun acc f => match f.job with | some j => dropJob acc j | none => acc) s
  powerDown (engineClear s1 p) p

/-- Steps 4 and 5 of R456. -/
def swingSwitch (s : State) (i : Nat) : State :=
  let o := gOp s i
  let e := swEng o
  let p := physOf s e
  let q := o.arg
  let us := usSince s o.start
  let s1 := engineMove (mOp s i fun o => { o with committed := true, prog := 32 }) e p q
  let s2 := engineRetireOld (swingRelease (mPe s1 q fun x => { x with goal := .none }) q) p
  let s3 := if swRetire o then
      logEv (mSm (jAppend s2 (.engRetire p)) fun m => { m with retired := insAsc p m.retired }) 0x7041 [p]
    else s2
  let s4 := foldNat (fun acc l => if isMapped acc l then setNotice acc (physOf acc l) 2 else acc) (mapStat s3) (List.range 64)
  opOk (logEv s4 0x7040 [e, p, q, us]) i (dataOf [(8, 1, p), (9, 1, q), (12, 4, us)])

/-- The operation fails before the switch. -/
def swingFail (s : State) (i : Nat) (res : W8) : State := opFail (swingUndo s i) i res

/-- One step of the operation. -/
def swingGo (s : State) (i : Nat) : State :=
  let o := gOp s i
  let p := physOf s (swEng o)
  if !isMapped s (swEng o) then swingFail s i 0x09
  else match o.phase with
    | 0 =>
      if (gPe s o.arg).st = .on then
        let s1 := (pinnedLines s p).foldl (fun acc l => (pinLine acc o.arg l (swingSrc s o.arg)).getD acc) s
        mOp s1 i fun o => { o with phase := 1 }
      else if (gPe s o.arg).st = .off then swingFail s i 0x08
      else s
    | 1 =>
      if (gIc s o.arg).fills.any fun f => f.pin then s
      else if (pinnedLines s p).all fun l => linePinned s o.arg l then
        swingMark (mOp s i fun o => { o with phase := 2, t0 := s.tb.now }) p
      else swingFail s i 0x07
    | _ =>
      if stoppedCount s p = 32 && decide (s.ec % 64 = 0) then
        if swRetire o && s.mg.mram.wrErr then swingFail (takeWrErr s) i 0x0E else swingSwitch s i
      else mOp s i fun o => { o with prog := stoppedCount s p }

def swingRun (n i : Nat) (s : State) : State :=
  opStep s i (fun s => if n = 0 then s else swingGo s i) (fun s => opCancelled (swingUndo s i) i)

/-- R456 ENGINE_SWING. -/
def execEngineSwing (n : Nat) (s : State) : Out :=
  longCmd { op := 0x60, used := [(8, 1), (9, 1), (10, 1), (12, 4)] } swingAccept (swingRun n) s

end Sys2Proof.Machine
end

