-- ==== Sys2Proof/Machine/SmCkpt.lean ====
section
/-! DEFINITION. CHECKPOINT and RESTORE, the suspend points and the timeouts of long operations (spec/12 R445, R446, R459–R463).
Phases of both: 0 the DUT ports become quiet, 1 the block is frozen and becomes idle, 2 the slot is written or read, 3 the block
is to be thawed, 4 the same after a failed access. -/

namespace Sys2Proof.Machine

/-! ### Slots (R443, R459, R460) -/

/-- Base of slot n; 0: none. -/
def ckBase (s : State) (n : Nat) : Nat :=
  match cfgVal s 0x0004 0 with
  | some v => ent v (8 * n) 8
  | none => 0

/-- The valid checkpoint of slot n. -/
def ckSlot (s : State) (n : Nat) : Option Ckpt :=
  match (if n = 0 then s.mg.ckA else s.mg.ckB) with
  | some c => if c.base = ckBase s n ∧ c.base ≠ 0 then some c else none
  | none => none

def ckPut (s : State) (n : Nat) (c : Option Ckpt) : State :=
  if n = 0 then { s with mg := { s.mg with ckA := c } } else { s with mg := { s.mg with ckB := c } }

/-- Slot that holds the newest valid checkpoint. -/
def ckNewest (s : State) : Option Nat :=
  match ckSlot s 0, ckSlot s 1 with
  | some a, some b => some (if a.gen < b.gen then 1 else 0)
  | some _, none => some 0
  | none, some _ => some 1
  | none, none => none

/-- Slot that CHECKPOINT writes. -/
def ckTarget (s : State) : Nat := match ckNewest s with | some 0 => 1 | _ => 0

/-- GEN of the next checkpoint. -/
def ckGen (s : State) : Nat := max (((ckSlot s 0).map Ckpt.gen).getD 0) (((ckSlot s 1).map Ckpt.gen).getD 0) + 1

/-- Mapped logical engines. -/
def mappedList (s : State) : List Nat := (List.range 64).filter fun e => isMapped s e

/-- Entries by blocks of n keys, block b moved to block `f b`; blocks without a place are left out. -/
def remap {α : Type} (t : Tab α) (n : Nat) (f : Nat → Option Nat) : Tab α :=
  t.foldl (fun acc x => match f (x.1 / n) with
    | some b => tput (b * n + x.1 % n) x.2 (tdel acc (b * n + x.1 % n))
    | none => acc) []

/-- Physical engine of a mapped logical one. -/
def physMap (s : State) (e : Nat) : Option Nat := if isMapped s e then some (physOf s e) else none

/-- What a checkpoint holds (R459). -/
def ckTake (s : State) (slot : Nat) (tb : W64) : Ckpt :=
  { base := ckBase s slot, gen := ckGen s, tb := tb, digest := s.mg.sm.digest, mask := mappedList s
    lm := remap s.ram.lm 0x40000 (logicalOf s), wings := s.ram.wings
    thr := remap s.en.thr 32 (logicalOf s), eng := remap s.en.eng 1 (logicalOf s), ce := s.en.ce, cb := s.en.cb
    ush := s.tr.ush, box := s.tr.box, dc := s.mv.dc, bank := s.bank, pin := s.pin, au := s.mv.au
    lg := s.tr.lg, lane := s.tr.lane, link := s.tr.link, dp := s.tr.dp }

/-! ### Freeze and thaw (R461) -/

/-- An enabled DUT port raises its hold. -/
def ckHoldPort (s : State) (n : Nat) : State :=
  mDp s n fun d => if d.en then
      { d with ckHold := true, hold := true, holds := if d.hold then d.holds else satInc d.holds }
    else d

def ckHolds (s : State) : State := foldNat ckHoldPort s (List.range 16)

/-- Every port is quiet. -/
def portsQuiet (s : State) : Bool :=
  (List.range 16).all fun n => !(gDp s n).en || ((gDp s n).hold && !(gDp s n).clkRun)

def ckUnhold (s : State) : State :=
  foldNat (fun acc n => mDp acc n fun d => { d with ckHold := false }) s (List.range 16)

/-- A DUT port's partial receive packet takes buffers and is held as handles: those of the segments it has begun, of the largest
pool, since its end is not known (R461, DESIGN CHOICE log 42). -/
def ckPartial (s : State) (n : Nat) : State :=
  match (gDp s n).rx, bigPool s with
  | some (bs, _), some p =>
    let k := segsOf bs.length (poolSize (gPool s p))
    if bs.isEmpty || (decide (1 < k) && !chainOn s) then s
    else inqRun (mInq s (64 + n) fun q => { q with live := max q.live k }) (64 + n)
  | _, _ => s

/-- Threads, sequencers, framers, ports and movers stop; what threads have under way is abandoned (R239). -/
def ckFreeze (s : State) : State :=
  let s1 := (s.en.thr.map Prod.fst).foldl (fun acc k => if peMapped s (k / 32) then abandon acc k else acc) s
  mSm (foldNat ckPartial s1 (List.range 16)) fun m => { m with frozen := true }

/-- Posted accesses are acknowledged, every byte that a DMA channel has read is written, memory ports are idle, atomic units hold
no line. -/
def ckIdle (s : State) : Bool :=
  s.en.thr.all (fun e => e.2.posted.isEmpty) &&
    s.mv.dc.all (fun e => e.2.stage.isEmpty && e.2.rdOut.isEmpty && e.2.wrOut.isEmpty) &&
    s.ms.mp.all (fun e => e.2.stage.isEmpty && e.2.wait.isEmpty && e.2.out.isEmpty) &&
    s.mv.au.all fun e => e.2.lines.isEmpty && e.2.fills.isEmpty && e.2.wbs.isEmpty && e.2.q.isEmpty

def ckThaw (s : State) : State := ckUnhold (mSm s fun m => { m with frozen := false })

/-- The operation has failed with MEMERR: it ends when the block is thawed, at position 0 of a lap (phase 4). -/
def ckMemErr (s : State) (i : Nat) : State := mOp s i fun o => { o with phase := 4 }

/-- Position 0 of a lap. -/
def lapStart (s : State) : Bool := decide (s.ec % 64 = 0)

/-- Bytes of a slot (R459). -/
def ckBytes : Nat := 0x3431000

/-- Fields of the command: slot and timebase at the freeze in `arg`. -/
def ckSlotOf (o : OpSlot) : Nat := o.arg % 2
def ckTbOf (o : OpSlot) : W64 := BitVec.ofNat 64 (o.arg / 2)

/-- The ports are quiet at position 0 of a lap: the block is frozen. -/
def ckWait (s : State) (i : Nat) : State :=
  if portsQuiet s && lapStart s then
    mOp (ckFreeze s) i fun o => { o with phase := 1, arg := o.arg % 2 + 2 * s.tb.now.toNat }
  else s

/-- Offset in external memory at which an operation's slot goes on. -/
def ckOff (s : State) (o : OpSlot) : Nat := ckBase s (ckSlotOf o) - extBase + o.prog

/-- The operation's next n bytes at most, that is up to its end. -/
def ckPart (o : OpSlot) (n : Nat) : Nat := min n (o.total - o.prog)

/-- The operation's cancel: the block is thawed, at position 0 of a lap when it is frozen. -/
def ckCancel (i : Nat) (s : State) : State :=
  if (gOp s i).phase = 0 then opCancelled (ckUnhold s) i
  else if lapStart s then opCancelled (ckThaw s) i
  else s

/-! ### CHECKPOINT -/

def ckAccept (e : List W8) (s : State) : State :=
  if longBusy s 0x70 then cmdDone s e 0x04 []
  else if ckBase s (ckTarget s) = 0 then cmdDone s e 0x09 []
  else needMram s e fun s => ckHolds (opStart s e ckBytes fun o => { o with arg := ckTarget s })

/-- The header is written: the slot is valid. With HOLD the operation enters INTERMISSION. -/
def ckWritten (s : State) (i : Nat) : State :=
  let o := gOp s i
  let slot := ckSlotOf o
  let c := ckTake s slot (ckTbOf o)
  logEv (mOp (ckPut s slot (some c)) i fun o => { o with
    committed := true, phase := 3, st := if opHold o then .intermission else .running, susp := false }) 0x7050 [slot, c.gen]

def ckRun (n : Nat) (ans : MemAns) (i : Nat) (s : State) : State :=
  opStep s i (fun s =>
    let o := gOp s i
    match o.phase with
    | 0 => ckWait s i
    | 1 => if ckIdle s then ckPut (mOp s i fun o => { o with phase := 2 }) (ckSlotOf o) none else s
    | 2 => match extWrite { s with fresh := s.fresh + ckPart o n / 8 + 1 } smSrc 3 (ckOff s o)
        ((freeBytes s (ckPart o n / 8 + 1)).take (ckPart o n)) ans with
      | (s1, true) =>
        let s2 := mOp s1 i fun o => { o with prog := min (o.prog + n) o.total }
        if (gOp s2 i).prog < o.total then s2 else ckWritten s2 i
      | (s1, false) => ckMemErr s1 i
    | 4 => if lapStart s then opFail (ckThaw s) i 0x07 else s
    | _ =>
      if lapStart s then
        opOk (ckThaw s) i (dataOf [(8, 1, ckSlotOf o), (12, 4, usSince s o.start), (16, 8, (ckTbOf o).toNat)])
      else s) (ckCancel i)

/-- R459–R462 CHECKPOINT. -/
def execCheckpoint (n : Nat) (ans : MemAns) (s : State) : Out :=
  longCmd { op := 0x70, flags := 2, used := [(12, 4)] } ckAccept (ckRun n ans) s

/-! ### RESTORE (R462, R463) -/

/-- Slot that the command names. -/
def rsSlot (s : State) (e : List W8) : Option Nat :=
  if ent e 8 1 = 0xFF then ckNewest s
  else if ent e 8 1 < 2 ∧ (ckSlot s (ent e 8 1)).isSome then some (ent e 8 1)
  else none

def rsAccept (e : List W8) (s : State) : State :=
  if 2 ≤ ent e 8 1 ∧ ent e 8 1 ≠ 0xFF then cmdDone s e 0x03 []
  else if longBusy s 0x71 then cmdDone s e 0x04 []
  else match rsSlot s e with
    | none => cmdDone s e 0x09 []
    | some n => match ckSlot s n with
      | none => cmdDone s e 0x09 []
      | some c =>
        if c.digest ≠ s.mg.sm.digest ∨ c.mask ≠ mappedList s then cmdDone s e 0x0D []
        else needMram s e fun s => ckHolds (opStart s e ckBytes fun o => { o with arg := n })

/-- Δ: the time since the freeze, rounded up to whole laps (R463). -/
def rsDelta (s : State) (c : Ckpt) : W64 := BitVec.ofNat 64 (((s.tb.now - c.tb).toNat + 1023) / 1024 * 1024)

/-- A thread on its return: its time is shifted, and it is ready at once. -/
def thrShift (d : W64) (t : Thread) : Thread := { t with r := { t.r with wake := t.r.wake + d }, readyAt := 0, entryEnd := 0 }

/-- An engine on its return, in lap l: its lap count is the block's, and a pending commit is due. -/
def engBack (l : Nat) (e : Eng) : Eng :=
  { e with
    lapAt := 0, commit := e.commit.map fun _ => l, commitEc := false, shdWas := none, slot := none, prev := none }

/-- Keys of the threads of the mapped engines. -/
def mappedKeys (s : State) : List Nat := ((mappedList s).map fun e => (List.range 32).map fun t => physOf s e * 32 + t).flatten

/-- A cue's times are shifted; it and a capture entry are where they were saved (log 42). -/
def cueShift (d : W64) (c : Cue) : Cue := { c with t := c.t + d, min := c.min + d, ec := 0 }

def pinShift (d : W64) (p : Pin) : Pin :=
  { p with
    cueQ := p.cueQ.map (cueShift d), capQ := p.capQ.map fun c => { c with t := c.t + d, vis := 0 }
    lastFire := p.lastFire.map fun t => t + d, lastEdge := p.lastEdge.map fun t => t + d
    placed := p.placed.map fun t => t + d }

/-- A bank on its return. -/
def bankShift (d : W64) (k : Bank) : Bank :=
  let old (r : Strm) : Strm := { r with since := r.since.map fun _ => 0 }
  { k with
    due := k.due.map fun x => { x with ec := 0, cue := cueShift d x.cue }, sin := old k.sin, sout := old k.sout
    sq := { k.sq with lastPc := none } }

/-- Packets that a requester has written are in their buffers. -/
def rsWritten (l : List RxWr) : List RxWr := l.map fun x => { x with job := 0 }

/-- A link's input on its return: frames in the receive store stay, those in their buffers come back (R462). -/
def rsInq (live saved : Inq) : Inq :=
  { waiting := live.writing.map (fun x => x.pkt) ++ live.waiting, writing := rsWritten saved.writing }

/-- What a link's input had taken for a frame that a checkpoint does not hold goes back (R462, DESIGN CHOICE log 42). -/
def rsGive (c : Ckpt) (s : State) (k : Nat) : State :=
  let q := (tget {} c.link k).fr.inq
  let p := match q.waiting with
    | x :: _ => x.pool
    | [] => (bigPool s).getD 0
  let s1 := q.got.foldl (fun acc h => freeHandle acc p h) s
  match q.chidx with
  | some i => chainRelease s1 i
  | none => s1

/-- The box office on its return; what it has under way with the pool manager goes on. -/
def rsBox (live saved : Box) : Box :=
  { saved with pool := foldNat (fun t n =>
      let x := tget {} live.pool n
      tset {} t n { tget {} saved.pool n with
        req := x.req, refill := x.refill, retry := x.retry, lastFree := x.lastFree }) [] (List.range 8) }

/-- The usher on its return: the time for which a domain has had its head goes on, the prompt book stays. -/
def rsUsh (d : W64) (live saved : Ush) : Ush :=
  { saved with
    dom := tmap {} (fun (x : Dom) => { x with relLast := none, headTb := x.headTb + d }) saved.dom
    pbEn := live.pbEn, pbWrap := live.pbWrap, pbLog2 := live.pbLog2, pbBase := live.pbBase, pbWr := live.pbWr
    pbRd := live.pbRd, pbOut := live.pbOut }

/-- A DUT port on its return: the levels on its pins stay. -/
def rsDp (d : W64) (live saved : Dp) : Dp :=
  { saved with
    rstN := live.rstN, clkRun := live.clkRun, hold := live.hold, ckHold := live.ckHold
    smp := saved.smp.map fun x => (x.1, x.2.1, x.2.2 + d), inq := { saved.inq with writing := rsWritten saved.inq.writing }
    dq := saved.dq.map fun e => { e with job := 0 }, tx := saved.tx.map fun p => { p with ent := { p.ent with job := 0 } } }

/-- Engines, memories and callboard on the present mapping. -/
def rsEngines (s : State) (c : Ckpt) (d : W64) : State :=
  { s with
    ram := { s.ram with lm := remap c.lm 0x40000 (physMap s), wings := c.wings, lmBad := [], wingsBad := [] }
    en := { s.en with
      thr := (mappedKeys s).foldl (fun acc k => tset {} acc k (thrShift d (tget {} (remap c.thr 32 (physMap s)) k))) []
      eng := tmap {} (engBack (s.ec / 64)) (remap c.eng 1 (physMap s)), ce := c.ce
      cb := { c.cb with fly := c.cb.fly.map fun m => { m with ec := 0 } } } }

/-- Pins: levels that come from outside and the calibration set stay. -/
def rsPins (s : State) (c : Ckpt) (d : W64) : State :=
  let pin (acc : State) (k : Nat) : State :=
    let live := gPin s k
    mPin acc k fun _ => { pinShift d (tget {} c.pin k) with
      inp := live.inp, in1 := live.in1, sync := live.sync, trim := live.trim }
  let bank (acc : State) (b : Nat) : State :=
    let live := gBank s b
    let saved := tget {} c.bank b
    mBank acc b fun _ => { bankShift d saved with
      lin := live.lin, outRange := live.outRange, paused := live.paused, driven := live.driven || saved.driven }
  foldNat bank (foldNat pin s (List.range 256)) (List.range 32)

/-- Lanes, links and ports: configuration, counters, transmit queues; what is being received and the levels stay. -/
def rsTraffic (s : State) (c : Ckpt) (d : W64) : State :=
  let lane (acc : State) (k : Nat) : State :=
    let live := gLane s k
    mLane acc k fun _ => { tget {} c.lane k with rx := live.rx, tx := live.tx }
  let link (acc : State) (k : Nat) : State :=
    let live := gLink s k
    let x := tget {} c.link k
    mLink acc k fun _ => { x with
      st := live.st, dsk := live.dsk, rounds := live.rounds, badInt := live.badInt, refused := live.refused
      fr := { live.fr with inq := rsInq live.fr.inq x.fr.inq }
      asm := { live.asm with q := x.asm.q } }
  let dp (acc : State) (n : Nat) : State :=
    mDp acc n fun _ => rsDp d (gDp s n) (tget {} c.dp n)
  let s1 := mBox (mUsh s fun u => rsUsh d u c.ush) fun b => rsBox b c.box
  let s2 := { s1 with tr := { s1.tr with lg := c.lg } }
  let s3 := foldNat dp (foldNat link (foldNat lane s2 (List.range 64)) (List.range 64)) (List.range 16)
  boxRun (foldNat (rsGive c) s3 (List.range 64))

/-- DMA channels, and the tables of the atomic units. -/
def rsMovers (s : State) (c : Ckpt) : State :=
  let s1 := { s with mv := { s.mv with dc := c.dc } }
  foldNat (fun acc u => mAu acc u fun a => { a with
    holdings := (tget {} c.au u).holdings, watches := (tget {} c.au u).watches }) s1 (List.range 9)

/-- The sections are loaded. -/
def rsLoad (s : State) (c : Ckpt) : State :=
  let d := rsDelta s c
  rsMovers (rsTraffic (rsPins (rsEngines s c d) c d) c d) c

def rsRun (n : Nat) (ans : MemAns) (i : Nat) (s : State) : State :=
  opStep s i (fun s =>
    let o := gOp s i
    match o.phase with
    | 0 => ckWait s i
    | 1 =>
      if ckIdle s then
        mOp s i fun o => { o with phase := 2, st := if opHold o then .intermission else .running, susp := false }
      else s
    | 2 => match extRead s smSrc 3 (ckOff s o) (ckPart o n) ans with
      | (s1, some _) =>
        let p := min (o.prog + n) o.total
        mOp s1 i fun o => { o with prog := p, committed := true, phase := if p < o.total then 2 else 3 }
      | (s1, none) => ckMemErr s1 i
    | 4 => if lapStart s then opFail (ckThaw s) i 0x07 else s
    | _ =>
      if lapStart s then
        match ckSlot s (ckSlotOf o) with
        | some c =>
          let s1 := logEv (ckThaw (rsLoad s c)) 0x7051 [ckSlotOf o, c.gen, (rsDelta s c).toNat]
          opOk s1 i (dataOf [(16, 8, (rsDelta s c).toNat)])
        | none => opFail (ckThaw s) i 0x09
      else s) (ckCancel i)

/-- R462, R463 RESTORE. -/
def execRestore (n : Nat) (ans : MemAns) (s : State) : Out :=
  longCmd { op := 0x71, flags := 2, used := [(8, 1), (12, 4)] } rsAccept (rsRun n ans) s

/-! ### Suspend points and timeouts (R445, R446, R455, R456, R461) -/

/-- The operation stands at a suspend point; CHECKPOINT and RESTORE with HOLD enter INTERMISSION by themselves. -/
def atSuspend (o : OpSlot) : Bool :=
  match opCode o with
  | 0x23 => decide (o.phase = 0) && decide (0 < o.prog ∧ o.prog < o.total)
  | 0x40 => atBlock o
  | 0x50 => decide (o.phase = 1) && atBlock o
  | 0x51 => decide (o.phase = 1) && atBlock o
  | _ => false

/-- R445 SUSPEND_POINT. -/
def execSuspendPoint (slot : Fin 8) (s : State) : Out :=
  let o := gOp s slot.val
  act (smAlive s && decide (o.st = .running) && o.susp && atSuspend o) (fun s =>
    mOp s slot.val fun o => { o with st := .intermission, susp := false }) s

/-- Timeout in µs of the wait that the operation is in, if it is in one. -/
def opWaits (s : State) (o : OpSlot) : Option Nat :=
  match opCode o with
  | 0x51 => if o.phase = 3 then some (cmdTmo s (ent o.cmd 28 4)) else none
  | 0x60 => if o.phase = 2 then some (cmdTmo s (ent o.cmd 12 4)) else none
  | 0x70 => if o.phase = 0 then some (cmdTmo s (ent o.cmd 12 4)) else none
  | 0x71 => if o.phase = 0 then some (cmdTmo s (ent o.cmd 12 4)) else none
  | _ => none

/-- A wait has run out: a swing ends as by CANCEL, the others with TIMEOUT. -/
def opTimedOut (s : State) (i : Nat) : State :=
  match opCode (gOp s i) with
  | 0x51 => opFail (swapCancel s i) i 0x0B
  | 0x60 => opCancelled (swingUndo s i) i
  | _ => opFail (ckUnhold s) i 0x0B

/-- R455, R456, R461 LONG_OPERATION_TIMEOUT. -/
def execLongOperationTimeout (slot : Fin 8) (s : State) : Out :=
  let o := gOp s slot.val
  act (smAlive s && decide (o.st = .running) && match opWaits s o with
    | some us => decide (us * tickUs ≤ (s.tb.now - o.t0).toNat)
    | none => false) (fun s => opTimedOut s slot.val) s

end Sys2Proof.Machine
end

