-- ==== Sys2Proof/Machine/Dispatch.lean ====
section
/-! DEFINITION. The dispatcher: one arm per command, each one direct call of that command's meaning. -/

namespace Sys2Proof.Machine

def exec (i : Instr) (s : State) : Host.Outcome State Fault Refusal :=
  match i with
  | .vddAonUp => Sys2Proof.Machine.execVddAonUp s
  | .porNAssert => Sys2Proof.Machine.execPorNAssert s
  | .porNRelease => Sys2Proof.Machine.execPorNRelease s
  | .corePwrOkFall => Sys2Proof.Machine.execCorePwrOkFall s
  | .corePwrOkRise => Sys2Proof.Machine.execCorePwrOkRise s
  | .blkRstNAssert => Sys2Proof.Machine.execBlkRstNAssert s
  | .blkRstNRelease => Sys2Proof.Machine.execBlkRstNRelease s
  | .isolate => Sys2Proof.Machine.execIsolate s
  | .isolateClear => Sys2Proof.Machine.execIsolateClear s
  | .wrapperClockLoss id => Sys2Proof.Machine.execWrapperClockLoss id s
  | .dpRstNAssert n => Sys2Proof.Machine.execDpRstNAssert n s
  | .dpRstNRelease n => Sys2Proof.Machine.execDpRstNRelease n s
  | .tapReset => Sys2Proof.Machine.execTapReset s
  | .startUp env => Sys2Proof.Machine.execStartUp env s
  | .mramNotReady => Sys2Proof.Machine.execMramNotReady s
  | .clockCheck env => Sys2Proof.Machine.execClockCheck env s
  | .engineRampDone p => Sys2Proof.Machine.execEngineRampDone p s
  | .engineRampTimeout p => Sys2Proof.Machine.execEngineRampTimeout p s
  | .engineZeroingDone p => Sys2Proof.Machine.execEngineZeroingDone p s
  | .engineBistDone p pass => Sys2Proof.Machine.execEngineBistDone p pass s
  | .clockPoll meas => Sys2Proof.Machine.execClockPoll meas s
  | .sensorPoll raw => Sys2Proof.Machine.execSensorPoll raw s
  | .ppsPulse => Sys2Proof.Machine.execPpsPulse s
  | .ppsMissing => Sys2Proof.Machine.execPpsMissing s
  | .refclkLoss => Sys2Proof.Machine.execRefclkLoss s
  | .refclkReturn => Sys2Proof.Machine.execRefclkReturn s
  | .refclkGap => Sys2Proof.Machine.execRefclkGap s
  | .tbSample => Sys2Proof.Machine.execTbSample s
  | .tbRateJournal => Sys2Proof.Machine.execTbRateJournal s
  | .hostRequest write addr be wdata par => Sys2Proof.Machine.execHostRequest write addr be wdata par s
  | .hostResponse => Sys2Proof.Machine.execHostResponse s
  | .hostTimeout => Sys2Proof.Machine.execHostTimeout s
  | .mpRequest m => Sys2Proof.Machine.execMpRequest m s
  | .mpResponse m tag beats => Sys2Proof.Machine.execMpResponse m tag beats s
  | .mpTimeout m job => Sys2Proof.Machine.execMpTimeout m job s
  | .pmAllocRequest p => Sys2Proof.Machine.execPmAllocRequest p s
  | .pmHandleBeat p hnd last empty parOk => Sys2Proof.Machine.execPmHandleBeat p hnd last empty parOk s
  | .pmFreeReturn p ready => Sys2Proof.Machine.execPmFreeReturn p ready s
  | .boxRetryExpiry p => Sys2Proof.Machine.execBoxRetryExpiry p s
  | .laneRxWord lane ctl data => Sys2Proof.Machine.execLaneRxWord lane ctl data s
  | .lnRxLockChange lane level => Sys2Proof.Machine.execLnRxLockChange lane level s
  | .framerEnter link => Sys2Proof.Machine.execFramerEnter link s
  | .txFrameStart link ans arrived => Sys2Proof.Machine.execTxFrameStart link ans arrived s
  | .laneTxWord lane => Sys2Proof.Machine.execLaneTxWord lane s
  | .lgEnable g => Sys2Proof.Machine.execLgEnable g s
  | .lgDisable g => Sys2Proof.Machine.execLgDisable g s
  | .rebond g => Sys2Proof.Machine.execRebond g s
  | .rebondStart g => Sys2Proof.Machine.execRebondStart g s
  | .rebondDrainExpiry g => Sys2Proof.Machine.execRebondDrainExpiry g s
  | .rebondQuietExpiry g us => Sys2Proof.Machine.execRebondQuietExpiry g us s
  | .cntclr g => Sys2Proof.Machine.execCntclr g s
  | .dpTxBeat n edges ready => Sys2Proof.Machine.execDpTxBeat n edges ready s
  | .dpRxBeat n data sop eop bytes err edges => Sys2Proof.Machine.execDpRxBeat n data sop eop bytes err edges s
  | .dpRxEnter n => Sys2Proof.Machine.execDpRxEnter n s
  | .dpStagePacket n entry ans => Sys2Proof.Machine.execDpStagePacket n entry ans s
  | .replaySopPresent n edges => Sys2Proof.Machine.execReplaySopPresent n edges s
  | .dpHoldRaise n edges => Sys2Proof.Machine.execDpHoldRaise n edges s
  | .dpHoldRelease n => Sys2Proof.Machine.execDpHoldRelease n s
  | .dutClkRunningChange n level => Sys2Proof.Machine.execDutClkRunningChange n level s
  | .drainSample n edges => Sys2Proof.Machine.execDrainSample n edges s
  | .dpEnable n => Sys2Proof.Machine.execDpEnable n s
  | .dpDisable n => Sys2Proof.Machine.execDpDisable n s
  | .dpCntclr n => Sys2Proof.Machine.execDpCntclr n s
  | .ushEnter g handle len od => Sys2Proof.Machine.execUshEnter g handle len od s
  | .dispatch od => Sys2Proof.Machine.execDispatch od s
  | .retirement od => Sys2Proof.Machine.execRetirement od s
  | .domainTimeout od => Sys2Proof.Machine.execDomainTimeout od s
  | .forceDrop who od handle => Sys2Proof.Machine.execForceDrop who od handle s
  | .boxEnable => Sys2Proof.Machine.execBoxEnable s
  | .boxDisable => Sys2Proof.Machine.execBoxDisable s
  | .boxDrainDone => Sys2Proof.Machine.execBoxDrainDone s
  | .boxPoolWrite p data => Sys2Proof.Machine.execBoxPoolWrite p data s
  | .boxAlloc who p => Sys2Proof.Machine.execBoxAlloc who p s
  | .boxFree who handle => Sys2Proof.Machine.execBoxFree who handle s
  | .commit e => Sys2Proof.Machine.execCommit e s
  | .billSwitch e => Sys2Proof.Machine.execBillSwitch e s
  | .fetchMiss g => Sys2Proof.Machine.execFetchMiss g s
  | .fillDone p line => Sys2Proof.Machine.execFillDone p line s
  | .stiCacheUpdate g => Sys2Proof.Machine.execStiCacheUpdate g s
  | .heldAccessResponse g => Sys2Proof.Machine.execHeldAccessResponse g s
  | .postedAccessResponse g k => Sys2Proof.Machine.execPostedAccessResponse g k s
  | .eventEntry g => Sys2Proof.Machine.execEventEntry g s
  | .threadWake g => Sys2Proof.Machine.execThreadWake g s
  | .threadWatchdog g => Sys2Proof.Machine.execThreadWatchdog g s
  | .restart who g dropev => Sys2Proof.Machine.execRestart who g dropev s
  | .thrEvWrite who g data => Sys2Proof.Machine.execThrEvWrite who g data s
  | .add g rd rs rt => Sys2Proof.Machine.execAdd g rd rs rt s
  | .addc g rd rs rt => Sys2Proof.Machine.execAddc g rd rs rt s
  | .sub g rd rs rt => Sys2Proof.Machine.execSub g rd rs rt s
  | .subc g rd rs rt => Sys2Proof.Machine.execSubc g rd rs rt s
  | .and g rd rs rt => Sys2Proof.Machine.execAnd g rd rs rt s
  | .or g rd rs rt => Sys2Proof.Machine.execOr g rd rs rt s
  | .xor g rd rs rt => Sys2Proof.Machine.execXor g rd rs rt s
  | .andn g rd rs rt => Sys2Proof.Machine.execAndn g rd rs rt s
  | .shl g rd rs rt => Sys2Proof.Machine.execShl g rd rs rt s
  | .shr g rd rs rt => Sys2Proof.Machine.execShr g rd rs rt s
  | .sar g rd rs rt => Sys2Proof.Machine.execSar g rd rs rt s
  | .ror g rd rs rt => Sys2Proof.Machine.execRor g rd rs rt s
  | .mul g rd rs rt => Sys2Proof.Machine.execMul g rd rs rt s
  | .mulhs g rd rs rt => Sys2Proof.Machine.execMulhs g rd rs rt s
  | .mulhu g rd rs rt => Sys2Proof.Machine.execMulhu g rd rs rt s
  | .cmp g rs rt => Sys2Proof.Machine.execCmp g rs rt s
  | .min g rd rs rt => Sys2Proof.Machine.execMin g rd rs rt s
  | .max g rd rs rt => Sys2Proof.Machine.execMax g rd rs rt s
  | .minu g rd rs rt => Sys2Proof.Machine.execMinu g rd rs rt s
  | .maxu g rd rs rt => Sys2Proof.Machine.execMaxu g rd rs rt s
  | .clz g rd rs => Sys2Proof.Machine.execClz g rd rs s
  | .popc g rd rs => Sys2Proof.Machine.execPopc g rd rs s
  | .brev g rd rs => Sys2Proof.Machine.execBrev g rd rs s
  | .bswap g rd rs => Sys2Proof.Machine.execBswap g rd rs s
  | .sextb g rd rs => Sys2Proof.Machine.execSextb g rd rs s
  | .sexth g rd rs => Sys2Proof.Machine.execSexth g rd rs s
  | .selt g rd rs rt => Sys2Proof.Machine.execSelt g rd rs rt s
  | .teq g rs rt => Sys2Proof.Machine.execTeq g rs rt s
  | .tlt g rs rt => Sys2Proof.Machine.execTlt g rs rt s
  | .tltu g rs rt => Sys2Proof.Machine.execTltu g rs rt s
  | .tbit g rs rt => Sys2Proof.Machine.execTbit g rs rt s
  | .addi g rd rs imm17 => Sys2Proof.Machine.execAddi g rd rs imm17 s
  | .andi g rd rs imm17 => Sys2Proof.Machine.execAndi g rd rs imm17 s
  | .ori g rd rs imm17 => Sys2Proof.Machine.execOri g rd rs imm17 s
  | .xori g rd rs imm17 => Sys2Proof.Machine.execXori g rd rs imm17 s
  | .shi g rd rs imm17 => Sys2Proof.Machine.execShi g rd rs imm17 s
  | .cmpi g rs imm17 => Sys2Proof.Machine.execCmpi g rs imm17 s
  | .tsti g sel rs imm17 => Sys2Proof.Machine.execTsti g sel rs imm17 s
  | .movi g rd h imm16 => Sys2Proof.Machine.execMovi g rd h imm16 s
  | .div g rd rs rt => Sys2Proof.Machine.execDiv g rd rs rt s
  | .divu g rd rs rt => Sys2Proof.Machine.execDivu g rd rs rt s
  | .rems g rd rs rt => Sys2Proof.Machine.execRems g rd rs rt s
  | .remu g rd rs rt => Sys2Proof.Machine.execRemu g rd rs rt s
  | .aaddi g ad as imm19 => Sys2Proof.Machine.execAaddi g ad as imm19 s
  | .aadd g ad as dt => Sys2Proof.Machine.execAadd g ad as dt s
  | .asub g ad as dt => Sys2Proof.Machine.execAsub g ad as dt s
  | .amov g ad as => Sys2Proof.Machine.execAmov g ad as s
  | .alo g ad as dt => Sys2Proof.Machine.execAlo g ad as dt s
  | .ahi g ad as dt => Sys2Proof.Machine.execAhi g ad as dt s
  | .atod g as dt => Sys2Proof.Machine.execAtod g as dt s
  | .atodh g as dt => Sys2Proof.Machine.execAtodh g as dt s
  | .taeq g ad as => Sys2Proof.Machine.execTaeq g ad as s
  | .taltu g ad as => Sys2Proof.Machine.execTaltu g ad as s
  | .amovi g ad h imm16 => Sys2Proof.Machine.execAmovi g ad h imm16 s
  | .mts g reg num => Sys2Proof.Machine.execMts g reg num s
  | .mfs g reg num => Sys2Proof.Machine.execMfs g reg num s
  | .ldb g r a mode imm16 => Sys2Proof.Machine.execLdb g r a mode imm16 s
  | .ldbu g r a mode imm16 => Sys2Proof.Machine.execLdbu g r a mode imm16 s
  | .ldh g r a mode imm16 => Sys2Proof.Machine.execLdh g r a mode imm16 s
  | .ldhu g r a mode imm16 => Sys2Proof.Machine.execLdhu g r a mode imm16 s
  | .ldw g r a mode imm16 => Sys2Proof.Machine.execLdw g r a mode imm16 s
  | .ldd g r a mode imm16 => Sys2Proof.Machine.execLdd g r a mode imm16 s
  | .lda g r a mode imm16 => Sys2Proof.Machine.execLda g r a mode imm16 s
  | .stb g r a mode imm16 => Sys2Proof.Machine.execStb g r a mode imm16 s
  | .sth g r a mode imm16 => Sys2Proof.Machine.execSth g r a mode imm16 s
  | .stw g r a mode imm16 => Sys2Proof.Machine.execStw g r a mode imm16 s
  | .std g r a mode imm16 => Sys2Proof.Machine.execStd g r a mode imm16 s
  | .sta g r a mode imm16 => Sys2Proof.Machine.execSta g r a mode imm16 s
  | .sti g r a mode imm16 => Sys2Proof.Machine.execSti g r a mode imm16 s
  | .macx g ac ax ay xm ym sg neg => Sys2Proof.Machine.execMacx g ac ax ay xm ym sg neg s
  | .clmacx g ac ax ay xm ym => Sys2Proof.Machine.execClmacx g ac ax ay xm ym s
  | .mac g ac rs rt sg neg => Sys2Proof.Machine.execMac g ac rs rt sg neg s
  | .clrac g ac => Sys2Proof.Machine.execClrac g ac s
  | .mfac g ac d par => Sys2Proof.Machine.execMfac g ac d par s
  | .mfacs g ac d par => Sys2Proof.Machine.execMfacs g ac d par s
  | .mtac g ac d par => Sys2Proof.Machine.execMtac g ac d par s
  | .acshr g ac par => Sys2Proof.Machine.execAcshr g ac par s
  | .acshl g ac par => Sys2Proof.Machine.execAcshl g ac par s
  | .clred g ac d par => Sys2Proof.Machine.execClred g ac d par s
  | .acadd g ac => Sys2Proof.Machine.execAcadd g ac s
  | .acxor g ac => Sys2Proof.Machine.execAcxor g ac s
  | .bcrc g ac ax ay xm ym dn => Sys2Proof.Machine.execBcrc g ac ax ay xm ym dn s
  | .br g cond off21 => Sys2Proof.Machine.execBr g cond off21 s
  | .dbnz g d off21 => Sys2Proof.Machine.execDbnz g d off21 s
  | .call g off25 => Sys2Proof.Machine.execCall g off25 s
  | .jr g a => Sys2Proof.Machine.execJr g a s
  | .callr g a => Sys2Proof.Machine.execCallr g a s
  | .ret g => Sys2Proof.Machine.execRet g s
  | .rete g => Sys2Proof.Machine.execRete g s
  | .waitt g => Sys2Proof.Machine.execWaitt g s
  | .waite g mask => Sys2Proof.Machine.execWaite g mask s
  | .ldtb g d => Sys2Proof.Machine.execLdtb g d s
  | .cue g src p act => Sys2Proof.Machine.execCue g src p act s
  | .caprd g d p k => Sys2Proof.Machine.execCaprd g d p k s
  | .tmrRead g d n sel => Sys2Proof.Machine.execTmrRead g d n sel s
  | .tmrWrite g d n sel => Sys2Proof.Machine.execTmrWrite g d n sel s
  | .chopen g ce d tr => Sys2Proof.Machine.execChopen g ce d tr s
  | .chw g ce d tr => Sys2Proof.Machine.execChw g ce d tr s
  | .chclose g ce tr => Sys2Proof.Machine.execChclose g ce tr s
  | .chr g ce d tr => Sys2Proof.Machine.execChr g ce d tr s
  | .chabort g ce tr => Sys2Proof.Machine.execChabort g ce tr s
  | .take g r1 tr => Sys2Proof.Machine.execTake g r1 tr s
  | .release g r1 r2 => Sys2Proof.Machine.execRelease g r1 r2 s
  | .casw g a d t => Sys2Proof.Machine.execCasw g a d t s
  | .casd g a d t => Sys2Proof.Machine.execCasd g a d t s
  | .acq g a d t => Sys2Proof.Machine.execAcq g a d t s
  | .rel g a => Sys2Proof.Machine.execRel g a s
  | .lwatch g a => Sys2Proof.Machine.execLwatch g a s
  | .lunwatch g a => Sys2Proof.Machine.execLunwatch g a s
  | .nop g => Sys2Proof.Machine.execNop g s
  | .synci g => Sys2Proof.Machine.execSynci g s
  | .cpt g num => Sys2Proof.Machine.execCpt g num s
  | .fence g => Sys2Proof.Machine.execFence g s
  | .bkpt g num => Sys2Proof.Machine.execBkpt g num s
  | .tset g => Sys2Proof.Machine.execTset g s
  | .tclr g => Sys2Proof.Machine.execTclr g s
  | .pair g a b => Sys2Proof.Machine.execPair g a b s
  | .cbOpenArrive ep => Sys2Proof.Machine.execCbOpenArrive ep s
  | .cbNextGrant ep => Sys2Proof.Machine.execCbNextGrant ep s
  | .cbGrantArrive ep => Sys2Proof.Machine.execCbGrantArrive ep s
  | .cbWordArrive ep => Sys2Proof.Machine.execCbWordArrive ep s
  | .cbCreditArrive ep => Sys2Proof.Machine.execCbCreditArrive ep s
  | .cbCloseNews ep => Sys2Proof.Machine.execCbCloseNews ep s
  | .cbAbortArrive ep => Sys2Proof.Machine.execCbAbortArrive ep s
  | .ceAbort who ep => Sys2Proof.Machine.execCeAbort who ep s
  | .ceAbortTx who ep => Sys2Proof.Machine.execCeAbortTx who ep s
  | .stalledRoute ep => Sys2Proof.Machine.execStalledRoute ep s
  | .standstillEvaluation => Sys2Proof.Machine.execStandstillEvaluation s
  | .timerTop e n => Sys2Proof.Machine.execTimerTop e n s
  | .timerBottom e n => Sys2Proof.Machine.execTimerBottom e n s
  | .timerCompareMatch e n => Sys2Proof.Machine.execTimerCompareMatch e n s
  | .timerTrigger e n => Sys2Proof.Machine.execTimerTrigger e n s
  | .tmrCfgWrite e n data => Sys2Proof.Machine.execTmrCfgWrite e n data s
  | .clr e n => Sys2Proof.Machine.execClr e n s
  | .swcap e n => Sys2Proof.Machine.execSwcap e n s
  | .cmpWrite e n b data => Sys2Proof.Machine.execCmpWrite e n b data s
  | .periodWrite e n data => Sys2Proof.Machine.execPeriodWrite e n data s
  | .cntWrite e n data => Sys2Proof.Machine.execCntWrite e n data s
  | .tmrCapRead who e n => Sys2Proof.Machine.execTmrCapRead who e n s
  | .tmrOvrClear e n => Sys2Proof.Machine.execTmrOvrClear e n s
  | .pinEdge k rising off => Sys2Proof.Machine.execPinEdge k rising off s
  | .cueFire k => Sys2Proof.Machine.execCueFire k s
  | .flushCue k => Sys2Proof.Machine.execFlushCue k s
  | .flushCap k => Sys2Proof.Machine.execFlushCap k s
  | .pinOvrClear k => Sys2Proof.Machine.execPinOvrClear k s
  | .pbRfxWrite b r data => Sys2Proof.Machine.execPbRfxWrite b r data s
  | .seqStart b => Sys2Proof.Machine.execSeqStart b s
  | .seqStop b => Sys2Proof.Machine.execSeqStop b s
  | .programMemoryWrite b w data => Sys2Proof.Machine.execProgramMemoryWrite b w data s
  | .dmWrite b w data => Sys2Proof.Machine.execDmWrite b w data s
  | .seqMbinWrite b be data => Sys2Proof.Machine.execSeqMbinWrite b be data s
  | .streamInFetch b ans => Sys2Proof.Machine.execStreamInFetch b ans s
  | .streamOutFlush b ans => Sys2Proof.Machine.execStreamOutFlush b ans s
  | .kpWaitEnd b => Sys2Proof.Machine.execKpWaitEnd b s
  | .seqTrap b why => Sys2Proof.Machine.execSeqTrap b why s
  | .kpNop b => Sys2Proof.Machine.execKpNop b s
  | .kpEnd b => Sys2Proof.Machine.execKpEnd b s
  | .kpTrap b imm8 => Sys2Proof.Machine.execKpTrap b imm8 s
  | .kpBr b imm8 => Sys2Proof.Machine.execKpBr b imm8 s
  | .kpCall b imm8 => Sys2Proof.Machine.execKpCall b imm8 s
  | .kpRet b => Sys2Proof.Machine.execKpRet b s
  | .kpJv b src => Sys2Proof.Machine.execKpJv b src s
  | .kpCallv b src => Sys2Proof.Machine.execKpCallv b src s
  | .kpBz b imm8 => Sys2Proof.Machine.execKpBz b imm8 s
  | .kpBnz b imm8 => Sys2Proof.Machine.execKpBnz b imm8 s
  | .kpBc b imm8 => Sys2Proof.Machine.execKpBc b imm8 s
  | .kpBnc b imm8 => Sys2Proof.Machine.execKpBnc b imm8 s
  | .kpBt b imm8 => Sys2Proof.Machine.execKpBt b imm8 s
  | .kpBf b imm8 => Sys2Proof.Machine.execKpBf b imm8 s
  | .kpDjnz b imm8 => Sys2Proof.Machine.execKpDjnz b imm8 s
  | .kpMov b d src => Sys2Proof.Machine.execKpMov b d src s
  | .kpAdd b d src => Sys2Proof.Machine.execKpAdd b d src s
  | .kpSub b d src => Sys2Proof.Machine.execKpSub b d src s
  | .kpAnd b d src => Sys2Proof.Machine.execKpAnd b d src s
  | .kpOr b d src => Sys2Proof.Machine.execKpOr b d src s
  | .kpXor b d src => Sys2Proof.Machine.execKpXor b d src s
  | .kpNot b d src => Sys2Proof.Machine.execKpNot b d src s
  | .kpCmp b d src => Sys2Proof.Machine.execKpCmp b d src s
  | .kpAddi b d imm5 => Sys2Proof.Machine.execKpAddi b d imm5 s
  | .kpLdi b d imm5 => Sys2Proof.Machine.execKpLdi b d imm5 s
  | .kpLdb0 b imm8 => Sys2Proof.Machine.execKpLdb0 b imm8 s
  | .kpLdh0 b imm8 => Sys2Proof.Machine.execKpLdh0 b imm8 s
  | .kpShl b d imm5 => Sys2Proof.Machine.execKpShl b d imm5 s
  | .kpShr b d imm5 => Sys2Proof.Machine.execKpShr b d imm5 s
  | .kpRlt b d => Sys2Proof.Machine.execKpRlt b d s
  | .kpTbv b d imm5 => Sys2Proof.Machine.execKpTbv b d imm5 s
  | .kpLd b d src => Sys2Proof.Machine.execKpLd b d src s
  | .kpSt b d src => Sys2Proof.Machine.execKpSt b d src s
  | .kpLdlc b imm8 => Sys2Proof.Machine.execKpLdlc b imm8 s
  | .kpTolc b src => Sys2Proof.Machine.execKpTolc b src s
  | .kpFrlc b d => Sys2Proof.Machine.execKpFrlc b d s
  | .kpPush b src => Sys2Proof.Machine.execKpPush b src s
  | .kpPull b d => Sys2Proof.Machine.execKpPull b d s
  | .kpEpnow b => Sys2Proof.Machine.execKpEpnow b s
  | .kpEpadd b src => Sys2Proof.Machine.execKpEpadd b src s
  | .kpEpaddi b imm8 => Sys2Proof.Machine.execKpEpaddi b imm8 s
  | .kpCue b j act => Sys2Proof.Machine.execKpCue b j act s
  | .kpCuec b j => Sys2Proof.Machine.execKpCuec b j s
  | .kpCueimg b src drive => Sys2Proof.Machine.execKpCueimg b src drive s
  | .kpMarknow b j => Sys2Proof.Machine.execKpMarknow b j s
  | .kpEpcr b => Sys2Proof.Machine.execKpEpcr b s
  | .kpInp b d => Sys2Proof.Machine.execKpInp b d s
  | .kpTpin b j => Sys2Proof.Machine.execKpTpin b j s
  | .kpCapr b j => Sys2Proof.Machine.execKpCapr b j s
  | .kpCrd b d => Sys2Proof.Machine.execKpCrd b d s
  | .kpCre b d => Sys2Proof.Machine.execKpCre b d s
  | .kpMbr b r k => Sys2Proof.Machine.execKpMbr b r k s
  | .kpMbw b r k => Sys2Proof.Machine.execKpMbw b r k s
  | .kpWaitep b => Sys2Proof.Machine.execKpWaitep b s
  | .kpWaitn b imm8 => Sys2Proof.Machine.execKpWaitn b imm8 s
  | .kpWaitv b src => Sys2Proof.Machine.execKpWaitv b src s
  | .kpWcap b j => Sys2Proof.Machine.execKpWcap b j s
  | .kpWmb b k => Sys2Proof.Machine.execKpWmb b k s
  | .kpWroom b j => Sys2Proof.Machine.execKpWroom b j s
  | .dcEnable c => Sys2Proof.Machine.execDcEnable c s
  | .dcDisable c => Sys2Proof.Machine.execDcDisable c s
  | .pause c => Sys2Proof.Machine.execPause c s
  | .pauseClear c => Sys2Proof.Machine.execPauseClear c s
  | .dmaAbort c => Sys2Proof.Machine.execDmaAbort c s
  | .arm c => Sys2Proof.Machine.execArm c s
  | .doorbell c => Sys2Proof.Machine.execDoorbell c s
  | .dmaDescriptorFetch c ans => Sys2Proof.Machine.execDmaDescriptorFetch c ans s
  | .dmaCompletion c writeBack => Sys2Proof.Machine.execDmaCompletion c writeBack s
  | .dmaError c => Sys2Proof.Machine.execDmaError c s
  | .dmaPaused c => Sys2Proof.Machine.execDmaPaused c s
  | .dmaAbortDone c => Sys2Proof.Machine.execDmaAbortDone c s
  | .auLineFill u line => Sys2Proof.Machine.execAuLineFill u line s
  | .auLineWriteback u line => Sys2Proof.Machine.execAuLineWriteback u line s
  | .go => Sys2Proof.Machine.execGo s
  | .logUnitWrite => Sys2Proof.Machine.execLogUnitWrite s
  | .journalCompaction => Sys2Proof.Machine.execJournalCompaction s
  | .mramUnitWrite off data good => Sys2Proof.Machine.execMramUnitWrite off data good s
  | .identify => Sys2Proof.Machine.execIdentify s
  | .status => Sys2Proof.Machine.execStatus s
  | .configSet => Sys2Proof.Machine.execConfigSet s
  | .configGet => Sys2Proof.Machine.execConfigGet s
  | .calRead => Sys2Proof.Machine.execCalRead s
  | .calWrite ans => Sys2Proof.Machine.execCalWrite ans s
  | .calExport ans => Sys2Proof.Machine.execCalExport ans s
  | .calPins n cals => Sys2Proof.Machine.execCalPins n cals s
  | .logRead ans => Sys2Proof.Machine.execLogRead ans s
  | .journalCompact n => Sys2Proof.Machine.execJournalCompact n s
  | .fwUpdate n ans => Sys2Proof.Machine.execFwUpdate n ans s
  | .fwActivate => Sys2Proof.Machine.execFwActivate s
  | .repertoryLoad n ans => Sys2Proof.Machine.execRepertoryLoad n ans s
  | .repertorySwap n ans => Sys2Proof.Machine.execRepertorySwap n ans s
  | .engineSwing n => Sys2Proof.Machine.execEngineSwing n s
  | .engineBist n pass => Sys2Proof.Machine.execEngineBist n pass s
  | .checkpoint n ans => Sys2Proof.Machine.execCheckpoint n ans s
  | .restore n ans => Sys2Proof.Machine.execRestore n ans s
  | .replayArm tbl => Sys2Proof.Machine.execReplayArm tbl s
  | .suspend => Sys2Proof.Machine.execSuspend s
  | .resume => Sys2Proof.Machine.execResume s
  | .cancel => Sys2Proof.Machine.execCancel s
  | .opStatus => Sys2Proof.Machine.execOpStatus s
  | .suspendPoint slot => Sys2Proof.Machine.execSuspendPoint slot s
  | .longOperationTimeout slot => Sys2Proof.Machine.execLongOperationTimeout slot s
  | .unlock => Sys2Proof.Machine.execUnlock s
  | .unlockDone chal => Sys2Proof.Machine.execUnlockDone chal s
  | .relock => Sys2Proof.Machine.execRelock s
  | .debugHalt g => Sys2Proof.Machine.execDebugHalt g s
  | .debugHaltEffect g => Sys2Proof.Machine.execDebugHaltEffect g s
  | .forcedHalt g => Sys2Proof.Machine.execForcedHalt g s
  | .debugResume g => Sys2Proof.Machine.execDebugResume g s
  | .debugStep g => Sys2Proof.Machine.execDebugStep g s
  | .addressBreakpoint g => Sys2Proof.Machine.execAddressBreakpoint g s
  | .seqDebugHalt b => Sys2Proof.Machine.execSeqDebugHalt b s
  | .seqDebugResume b => Sys2Proof.Machine.execSeqDebugResume b s
  | .seqDebugStep b => Sys2Proof.Machine.execSeqDebugStep b s
  | .seqBreakpoint b => Sys2Proof.Machine.execSeqBreakpoint b s
  | .blkid => Sys2Proof.Machine.execBlkid s
  | .dbgacc write addr data => Sys2Proof.Machine.execDbgacc write addr data s
  | .keyprog slot digest reserved => Sys2Proof.Machine.execKeyprog slot digest reserved s
  | .keyprogDone good => Sys2Proof.Machine.execKeyprogDone good s
  | .bypass => Sys2Proof.Machine.execBypass s
  | .wsBypass => Sys2Proof.Machine.execWsBypass s
  | .wsExtest => Sys2Proof.Machine.execWsExtest s
  | .wsIntestScan => Sys2Proof.Machine.execWsIntestScan s
  | .wsPreload cells => Sys2Proof.Machine.execWsPreload cells s
  | .registerWrite who addr be data => Sys2Proof.Machine.execRegisterWrite who addr be data s
  | .illegalOpcode g => Sys2Proof.Machine.execIllegalOpcode g s
  | .vddAonLoss => Sys2Proof.Machine.execVddAonLoss s
  | .vddMramLoss => Sys2Proof.Machine.execVddMramLoss s
  | .waitingFifoRetry p => Sys2Proof.Machine.execWaitingFifoRetry p s
  | .wrstnAssert => Sys2Proof.Machine.execWrstnAssert s

end Sys2Proof.Machine
end

