-- ==== Sys2Proof/Machine/Tick.lean ====
section
/-! DEFINITION. One ec: the rows that its start brings, the words that issue in it, and its end (log 9). -/

namespace Sys2Proof.Machine

/-! ### Who is there -/

/-- Logical engines that are mapped and have a thread in the table, in ascending order. -/
def runEngines (s : State) : List Nat :=
  (List.range 64).filter fun e => isMapped s e && s.en.thr.any fun x => decide (x.1 / 32 = physOf s e)

/-- The logical threads of logical engine e that the table lists, in ascending order. -/
def threadsOfEng (s : State) (e : Nat) : List Nat :=
  (s.en.thr.filter fun x => decide (x.1 / 32 = physOf s e)).map fun x => e * 32 + x.1 % 32

/-- Every logical thread that runs anywhere, in ascending order. -/
def runThreads (s : State) : List Nat := (runEngines s).flatMap (threadsOfEng s)

/-- A command for each number of `xs` that meets `p`. -/
def rows (xs : List Nat) (p : Nat → Bool) (c : Nat → Instr) : List Instr := (xs.filter p).map c

def fin64 (n : Nat) : Fin 64 := Fin.ofNat 64 n
def finThr (n : Nat) : Fin 2048 := Fin.ofNat 2048 n

/-! ### The start of an ec -/

/-- Rows of position 0: bill switches and watchdogs (R122, R213). -/
def lapRows (s : State) : List Instr :=
  if s.ec % 64 = 0 then
    rows (List.range 64) (fun e => isMapped s e && (gEng s (physOf s e)).commit.isSome) (fun e => .billSwitch (fin64 e)) ++
    rows (runThreads s) (fun g => decide ((gThr s (thrKey s g)).wdLimit ≠ 0)) (fun g => .threadWatchdog (finThr g))
  else []

/-- Rows of the threads: wakes, event entries, halts (R22, R146, R238, R480). -/
def thrRows (s : State) : List Instr :=
  let t (g : Nat) : Thread := gThr s (thrKey s g)
  rows (runThreads s) (fun g => decide ((t g).st = .wait)) (fun g => .threadWake (finThr g)) ++
  rows (runThreads s) (fun g => (t g).entering.isSome) (fun g => .eventEntry (finThr g)) ++
  rows (runThreads s) (fun g => haltNow s g) (fun g => .debugHaltEffect (finThr g)) ++
  rows (runThreads s) (fun g => haltForced s g) (fun g => .forcedHalt (finThr g))

/-- Fills from the repertory store that end in the present ec (R139). -/
def fillRows (s : State) : List Instr :=
  s.en.ic.flatMap fun x => (x.2.fills.filter fun f => f.job.isNone && decide (f.due ≤ s.ec)).map fun f =>
    .fillDone (Fin.ofNat 68 x.1) (BitVec.ofNat 48 f.line)

/-- Cues whose fire instant falls in the present ec (R271). -/
def cueRows (s : State) : List Instr :=
  (s.pin.filter fun x => x.2.cueQ.head?.any fun c => decide ((fireAt x.2 c).toNat < (tbAt s 1).toNat)).map fun x =>
    .cueFire (Fin.ofNat 256 x.1)

/-- Sequencers whose wait ends with the present pc (R293). -/
def waitRows (s : State) : List Instr :=
  (s.bank.filter fun x => waitOver s x.1).map fun x => .kpWaitEnd (Fin.ofNat 32 x.1)

/-- Messages on the callboard that arrive now at the latest, and grants to the next waiting request (R228, R230). -/
def cbRows (s : State) : List Instr :=
  (s.en.cb.fly.filter (cbMust s)).map arriveRow ++
  (s.en.ce.filter fun x => !x.2.rxBusy && !x.2.waiting.isEmpty).map fun x => .cbNextGrant (Fin.ofNat 8192 x.1)

/-- The evaluation of the wait graph, every 256 ec (R243). -/
def graphRows (s : State) : List Instr := if s.ec % 256 = 0 then [.standstillEvaluation] else []

/-- What the start of the present ec brings. -/
def startRows (s : State) : List Instr :=
  lapRows s ++ cbRows s ++ graphRows s ++ thrRows s ++ fillRows s ++ cueRows s ++ waitRows s

/-! ### The words of an ec -/

/-- The sequencers' words, or breakpoints in their place (R284, R481). -/
def kpRows (s : State) : List Instr :=
  (s.bank.flatMap fun x =>
    let b := Fin.ofNat 32 x.1
    if sqIssues s x.1 then [kpDecode b (kpWord x.2.sq)] else if x.2.sq.bpEn then [.seqBreakpoint b] else [])

/-- Threads whose line is missing (R139). -/
def missRows (s : State) : List Instr :=
  rows (runThreads s) (fun g => engRuns s g && missDue s (thrKey s g) && (missAt s (thrKey s g)).isSome)
    (fun g => .fetchMiss (finThr g))

/-- The word of logical engine e's issuer, or the breakpoint before it (R119, R479). -/
def keRow (s : State) (e : Nat) : List Instr :=
  match issuer s (physOf s e) with
  | none => []
  | some t =>
    let g := e * 32 + t
    if !fetches s g then []
    else if bpMatch s g then [.addressBreakpoint (finThr g)]
    else (nextInstr s (finThr g)).toList

/-- The words of the present ec: sequencers before threads, threads by logical number (R273, R278, R295). -/
def wordRows (s : State) : List Instr := kpRows s ++ missRows s ++ (runEngines s).flatMap (keRow s)

/-! ### The end of an ec -/

/-- The timebase advances by INC (R249). -/
def tbAdvance (t : Tb) : Tb :=
  if t.running then
    let v := t.now.toNat * 2 ^ 32 + t.sub.toNat + tbInc t
    { t with now := BitVec.ofNat 64 (v / 2 ^ 32), sub := BitVec.ofNat 32 v }
  else t

/-- An issuer that owes a slot has paid it (R131, R132). -/
def tickPay (s : State) (e : Nat) : State :=
  let p := physOf s e
  match issuer s p with
  | some t => if engRuns s (e * 32) && owes s (p * 32 + t) then paySlot s (p * 32 + t) else s
  | none => s

/-- A thread with a pending halt counts its own position as it ends (R238). -/
def tickDefer (s : State) (k : Nat) : State :=
  if (gThr s k).dbg.pending && decide (posThread (gEng s (k / 32)).live (s.ec % 64) = some (k % 32)) then
    mThr s k fun t => { t with dbg := { t.dbg with deferred := t.dbg.deferred + 1 } }
  else s

/-- The watchdog counts a lap that ends while its thread is in RUN (R213). The count stops at 2^24 - 1 (DESIGN CHOICE log 12). -/
def tickWdog (s : State) (k : Nat) : State :=
  if decide ((gThr s k).st = .run) && (logicalOf s (k / 32)).isSome then
    mThr s k fun t => { t with wdCount := satInc t.wdCount }
  else s

/-- Every thread that the table lists, in key order. -/
def overThreads (f : State → Nat → State) (s : State) : State := (s.en.thr.map Prod.fst).foldl f s

/-- The threads' share of the end of an ec. -/
def tickThreads (s : State) : State :=
  if s.mg.sm.frozen then s
  else overThreads tickDefer (overThreads recognize ((runEngines s).foldl tickPay s))

/-- The timers of a frozen block stand still, and capture nothing (R461, DEDUCED log 42). -/
def timersStand (s : State) : State :=
  let f (e : Eng) : Eng :=
    let t := tmap {} (fun t => { t with capDue := false, capEdge := false, byTmr := [] }) e.tmr
    { e with tmr := t, tmr0 := t }
  { s with en := { s.en with eng := tmap {} f s.en.eng } }

/-- The timers' share: those of every engine that is on (R257–R268). -/
def tickTimers (s : State) : State :=
  if s.mg.sm.frozen then timersStand s
  else (s.en.eng.map Prod.fst).foldl (fun acc p => if peOn acc p then tmrEnd acc p else acc) s

/-- What the ec leaves behind on its way out: pins are synchronized, slots, and notes of the ec (R12, R13, R24, R33, R118). -/
def tickPass (s : State) : State :=
  { s with
    pin := tmap {} pinSync s.pin, bank := tmap {} bankEcEnd s.bank
    ram := { s.ram with lmEc := [] }
    tr := { s.tr with lg := tmap {} (fun (x : Lg) => { x with rbEc := false }) s.tr.lg }
    en := { s.en with eng := tmap {} (fun (e : Eng) => { e with prev := e.slot, slot := none, commitEc := false, shdWas := none }) s.en.eng } }

/-- The events of position 0 of a lap: CORR comes into use, watchdogs and stalled routes count (R213, R236, R251). -/
def tickLap (s : State) : State :=
  let s1 := mTb { s with lap := s.lap + 1 } fun t => { t with corrLive := t.corr }
  let s2 := if s.mg.sm.frozen then s1 else overThreads tickWdog s1
  if s2.mg.sm.frozen then s2 else (s2.en.ce.map Prod.fst).foldl (fun acc ep => mCe acc ep ceLap) s2

/-- The next ec begins: the timebase, the lap, the pc boundary, the cues that reach their queues (R249, R280, R284, R294). -/
def tickNext (s : State) : State :=
  let s1 := mTb { s with ec := s.ec + 1 } tbAdvance
  let s2 := if s1.ec % 64 = 0 then tickLap s1 else s1
  let banks := s2.bank.map Prod.fst
  let s3 := if s2.ec % 2 = 0 && !s2.mg.sm.frozen then banks.foldl sqPc s2 else s2
  banks.foldl postDue s3

/-- Force-drops of the ec whose packet has not been released in it (R19). -/
def tickForce (s : State) : State :=
  (s.tr.ush.dom.map Prod.fst).foldl (fun acc od => if (gDom acc od).fdBy.isSome then forceEnd acc od else acc) s

/-- The stage manager's share: a restart ends, end completions find room, and old code pages are freed (R437, R452, R455). -/
def smTick (s : State) : State :=
  let s1 := restartEnd s
  pagesFree (if s1.mg.sm.alive then oweFlush s1 else s1)

/-- The present ec ends and the next one begins. -/
def tick (s : State) : State := smTick (tickNext (tickPass (tickTimers (dmaEnd (usherEnd (tickForce (tickThreads s)))))))

/-- What the block does when no command waits (log 9): the rows that the start of the ec brings come into the queue, then the
words of the ec, then the ec ends. Behind the curtain no clock of the block acts (R74). -/
def advance (s : State) : State :=
  if !up s then s
  else match s.phase with
    | 0 => { s with pending := startRows s, phase := 1 }
    | 1 => { s with pending := wordRows s, phase := 2 }
    | _ => tick { s with phase := 0 }

end Sys2Proof.Machine
end

