-- ==== Sys2Proof/Safety.lean ====
section
/-! DEFINITION. Safety: the terms in which claims are made. When memory is in its form, when the block is as the manual rules
it to stay, what the end of a word leaves, and which commands an engine's thread or a pin bank's sequencer issues. -/

namespace Sys2Proof.Machine

/-- The command answers a next state, and P holds of it. -/
def Gives (c : Instr) (s : State) (P : State → Prop) : Prop := ∃ t, exec c s = .next t ∧ P t

/-! ### Memory -/

/-- The memories of a checkpoint are in canonical form. -/
def ckptOk : Option Ckpt → Bool
  | none => true
  | some c => Memory.wf c.lm && Memory.wf c.wings

/-- Every byte memory of the block is in canonical form: local memories, wings, repertory store, MRAM bytes, the stage
manager's rings, the token window, and the memories in the checkpoint slots. -/
def memOk (s : State) : Bool :=
  Memory.wf s.ram.lm && Memory.wf s.ram.wings && Memory.wf s.ram.rep && Memory.wf s.mg.mram.bytes &&
    Memory.wf s.mg.sm.cmdRing && Memory.wf s.mg.sm.cplRing && Memory.wf s.mg.lock.token && ckptOk s.mg.ckA &&
    ckptOk s.mg.ckB

/-! ### Words of an engine's thread -/

/-- Registers of logical thread g. -/
def regsOf (s : State) (g : Fin 2048) : Regs := (gThr s (thrKey s g.val)).r

/-- When the word at the PC of logical thread g is `c`, the command answers a next state, and
P holds of it. -/
def KeGives (c : Instr) (s : State) (g : Fin 2048) (P : State → Prop) : Prop := nextInstr s g = some c → Gives c s P

/-- What issuing a word of thread k does to the engines' control pages and to the log: the thread has the slot of the present ec,
the round-robin pointer follows it where no owner was ready (R119), and a correctable error of the instruction cache is logged
(R152). No other engine's page differs. -/
def slotFrame (s t : State) (k : Nat) : Prop :=
  (∀ q, gEng t q = if q = k / 32 then { gEng s q with
      slot := some (k % 32), rr := if (owner s q).isSome then (gEng s q).rr else k % 32 } else gEng s q) ∧
    t.mg.log = (fetchTouch s k).mg.log ∧ ∀ q, q ≠ k / 32 → gIc t q = gIc s q

/-- Nothing but thread k, what issuing changes, endpoint ep and the mesh of the callboard differs, and the messages on the mesh
are those of s and `m` behind them. -/
def cbFrame (s t : State) (k ep : Nat) (m : List CbMsg) : Prop :=
  t = { s with
    en := { s.en with
      thr := t.en.thr, eng := t.en.eng, ic := t.en.ic, ce := t.en.ce, cb := { s.en.cb with fly := s.en.cb.fly ++ m } }
    mg := { s.mg with log := t.mg.log } } ∧
    slotFrame s t k ∧ (∀ j, j ≠ k → gThr t j = gThr s j) ∧ ∀ e, e ≠ ep → gCe t e = gCe s e

/-- Nothing but thread k differs, and what issuing changes. -/
def thrFrame (s t : State) (k : Nat) : Prop :=
  t = { s with en := { s.en with thr := t.en.thr, eng := t.en.eng, ic := t.en.ic }, mg := { s.mg with log := t.mg.log } } ∧
    (∀ j, j ≠ k → gThr t j = gThr s j) ∧ slotFrame s t k

/-- Nothing but thread k differs, and what issuing changes; its control-space access is the latest of its engine's (R48). -/
def ctlIssued (s t : State) (k : Nat) : Prop :=
  t = { s with en := { s.en with thr := t.en.thr, eng := t.en.eng, ic := t.en.ic }, mg := { s.mg with log := t.mg.log } } ∧
    (∀ j, j ≠ k → gThr t j = gThr s j) ∧ (∀ q, q ≠ k / 32 → gEng t q = gEng s q) ∧
    (gEng t (k / 32)).ctlQ = (gEng s (k / 32)).ctlQ.filter (fun n => decide (n ≠ k % 32)) ++ [k % 32] ∧
    (gEng t (k / 32)).slot = some (k % 32)

/-- In thread k nothing differs but its registers, and what the end of a word itself changes: the dead slots of its cost that it
owes (R130, R131), the record of loaded values, the successor copy, and the debug state of a stepped word. It still runs unless it
was stepped. -/
def wordCost (s t : State) (k : Nat) (r : Regs) (cost : Nat) : Prop :=
  gThr t k = { gThr s k with
    r := r, owe := cost - 1, loaded := (gThr t k).loaded, succ := none, ownFirst := false
    dbg := (gThr t k).dbg, st := (gThr t k).st, waitK := (gThr t k).waitK } ∧
    ((gThr s k).dbg.stepping = false → (gThr t k).st = .run ∧ (gThr t k).dbg = { (gThr s k).dbg with bpPass := false })

/-- The same for a word of one slot. -/
def wordDone (s t : State) (k : Nat) (r : Regs) : Prop := wordCost s t k r 1

/-- The word completes with the registers r at a cost of n slots, and nothing else of the block changes. -/
def keCost (c : Instr) (s : State) (g : Fin 2048) (n : Nat) (r : Regs) : Prop :=
  KeGives c s g fun t => thrFrame s t (thrKey s g.val) ∧ wordCost s t (thrKey s g.val) r n

/-- The word completes with the registers r in one slot, and nothing else of the block changes. -/
def keWord (c : Instr) (s : State) (g : Fin 2048) (r : Regs) : Prop := keCost c s g 1 r

/-- Thread k is FAULTED with the code, its registers and its PC stand, its bit of the engine's fault map is set, no other thread
differs, and outside the engines only the log and the stage manager's report can differ (R150, R210, R211). -/
def trapDone (s t : State) (k : Nat) (code : W8) : Prop :=
  (gThr t k).st = .faulted ∧ (gThr t k).fcode = code ∧ (gThr t k).r = (gThr s k).r ∧
    (gEng t (k / 32)).fltmap = setBit (gEng s (k / 32)).fltmap (k % 32) ∧ (gEng t (k / 32)).slot = some (k % 32) ∧
    (∀ q, q ≠ k / 32 → gEng t q = gEng s q) ∧ (∀ j, j ≠ k → gThr t j = gThr s j) ∧
    t = { s with
      en := { s.en with thr := t.en.thr, eng := t.en.eng, ic := t.en.ic }
      mg := { s.mg with log := t.mg.log, sm := t.mg.sm } }

/-- The word takes a thread fault. -/
def keTrap (c : Instr) (s : State) (g : Fin 2048) (code : W8) : Prop :=
  KeGives c s g fun t => trapDone s t (thrKey s g.val) code

/-! ### Words of a pin sequencer -/

/-- Nothing but pin bank b differs. -/
def bankFrame (s t : State) (b : Nat) : Prop :=
  t = { s with bank := t.bank } ∧ ∀ j, j ≠ b → gBank t j = gBank s j

/-- The word at the PC of bank b's sequencer is `c`: the command answers a next state, and P holds of it. -/
def KpGives (c : Instr) (s : State) (b : Fin 32) (P : State → Prop) : Prop :=
  kpDecode b (kpWord (gSq s b.val)) = c → Gives c s P

/-- A sequencer after its word, which left it as x: halted again when the word was stepped (R481), and no other word issues in the
present pc (R284). -/
def sqAfter (s : State) (x : Sq) : Sq := { sqStepEnd { x with bpPass := false } with lastPc := some (s.ec / 2) }

/-- The word completes: bank b is as `k` says but for its sequencer, which is x, and nothing else of the block changes. -/
def kpBank (c : Instr) (s : State) (b : Fin 32) (k : Bank) (x : Sq) : Prop :=
  KpGives c s b fun t => bankFrame s t b.val ∧ gBank t b.val = { k with sq := sqAfter s x }

/-- The word completes: the sequencer of bank b is x, and nothing else of the block changes. -/
def kpDone (c : Instr) (s : State) (b : Fin 32) (x : Sq) : Prop := kpBank c s b (gBank s b.val) x

/-- The word completes with the sequencer x, and these cues are on their way to their queues (R294). -/
def kpCues (c : Instr) (s : State) (b : Fin 32) (x : Sq) (cs : List DueCue) : Prop :=
  kpBank c s b { gBank s b.val with due := (gBank s b.val).due ++ cs } x

/-- A cue that the sequencer posts in the present pc for pin j of bank b: it reaches its queue in the second ec of the pc and
fires no earlier than the next pc (R294). -/
def sqCue (s : State) (b : Fin 32) (j : Nat) (t : W64) (a : BitVec 4) : DueCue :=
  let e := s.ec / 2 * 2 + 1
  { ec := e, rank := 4, pin := 8 * b.val + j, cue := { t := t, min := tbPcNext s, act := a, ec := e } }

/-- The sequencer of bank b, which was x, is TRAPPED with the cause at its word, and the trap is logged (R298); where TRAPMARK asks for
it, a mark is on its way to the pin TRAPPIN. Nothing differs but its bank and the log. -/
def kpTrapped (c : Instr) (s : State) (b : Fin 32) (x : Sq) (cause : W8) : Prop :=
  KpGives c s b fun t =>
    gBank t b.val = { gBank s b.val with
      sq := { x with
        st := .trapped, wait := none, tcause := cause, stepping := false, bpPass := false, req := []
        lastPc := some (s.ec / 2) }
      due := (gBank s b.val).due ++ if x.trapMark then [sqCue s b x.trapPin.toNat (tbPcNext s) 7] else [] } ∧
      (∀ j, j ≠ b.val → gBank t j = gBank s j) ∧ t.mg.log = (logEv s 0x6303 [b.val, x.pc.toNat, cause.toNat]).mg.log ∧
      t = { s with bank := t.bank, mg := { s.mg with log := t.mg.log } }

/-! ### Frames of the other commands -/

/-- The log of t is that of s, with the event `ev` added where there is one. -/
def logAs (s t : State) : Option (W16 × List Nat) → Prop
  | none => t.mg.log = s.mg.log
  | some (code, data) => t.mg.log = (logEv s code data).mg.log

/-- The command changes nothing. -/
def keeps (c : Instr) (s : State) : Prop := exec c s = .next s

/-- Nothing but thread k differs, and in the rest of the block only the log. -/
def thrOnly (s t : State) (k : Nat) : Prop :=
  t = { s with en := { s.en with thr := t.en.thr }, mg := { s.mg with log := t.mg.log } } ∧ ∀ j, j ≠ k → gThr t j = gThr s j

/-- Nothing but the control page of physical engine p differs, and the log. -/
def engOnly (s t : State) (p : Nat) : Prop :=
  t = { s with en := { s.en with eng := t.en.eng }, mg := { s.mg with log := t.mg.log } } ∧ ∀ q, q ≠ p → gEng t q = gEng s q

/-- Nothing but pin k differs, and the log. -/
def pinOnly (s t : State) (k : Nat) : Prop :=
  t = { s with pin := t.pin, mg := { s.mg with log := t.mg.log } } ∧ ∀ j, j ≠ k → gPin t j = gPin s j

/-- Thread k is FAULTED with the code; its registers stand but for the PC, which is that of the faulting word. -/
def faultedAt (s t : State) (k : Nat) (code : W8) (pc : W48) : Prop :=
  (gThr t k).st = .faulted ∧ (gThr t k).fcode = code ∧ (gThr t k).r = { (gThr s k).r with pc := pc } ∧ (gThr t k).held = none

/-- Nothing but DUT port n differs, and the log. -/
def dpOnly (s t : State) (n : Nat) : Prop :=
  t = { s with tr := { s.tr with dp := t.tr.dp }, mg := { s.mg with log := t.mg.log } } ∧ ∀ j, j ≠ n → gDp t j = gDp s j

/-- Nothing but DMA channel c differs, and the log. -/
def dcOnly (s t : State) (c : Nat) : Prop :=
  t = { s with mv := { s.mv with dc := t.mv.dc }, mg := { s.mg with log := t.mg.log } } ∧ ∀ j, j ≠ c → gDc t j = gDc s j

/-- The channel has asked memory for nothing that is still unanswered. -/
def dcQuiet (d : Dc) : Prop := d.rdOut = [] ∧ d.wrOut = []

/-- Channel c has stopped in error: ERR and its bit of DMA_ERRMAP are set, and event 0x2201 is logged (R400). -/
def dcFailed (s t : State) (c : Nat) (code : W8) (a : W48) : Prop :=
  (gDc t c).st = .error ∧ (gDc t c).err = true ∧ (gDc t c).errCode = code ∧ (gDc t c).errAddr = a ∧
    (gDc t c).loaded = false ∧ t.mv.errMap = setBit s.mv.errMap c ∧ logAs s t (some (0x2201, [c, code.toNat, a.toNat]))

/-- DMADONE has become pending at the threads that name channel c, and no thread differs otherwise (R215). -/
def dmaTold (s t : State) (c : Nat) : Prop :=
  ∀ k, gThr t k = if (s.en.emap.any fun e => decide (e.2 = k / 32)) = true ∧ (gThr s k).evDma.toNat = c then
    { gThr s k with pend := setBit (gThr s k).pend 13 } else gThr s k

/-- The command completes in what the movers (box office, chain records, prompt book, DMA channels, DBGACC) make of a state y of which
P holds: each goes on with the answers it has waited for. -/
def GivesMovers (c : Instr) (s : State) (P : State → Prop) : Prop := ∃ y, exec c s = .next (memGo y) ∧ P y

/-- Nothing but memory port m and the answers that wait for their masters differs, and the log. -/
def mpOnly (s t : State) (m : Nat) : Prop :=
  t = { s with ms := { s.ms with mp := t.ms.mp, fin := t.ms.fin }, mg := { s.mg with log := t.mg.log } } ∧
    ∀ j, j ≠ m → gMp t j = gMp s j

/-! ### The stage manager's commands (R437–R447) -/

/-- The stage manager serves its rings in power state p, no end completion waits, and the head of the command ring is the entry e, with
this opcode. -/
def smTurn (s : State) (p : Power) (op : Nat) (e : List W8) : Prop :=
  smAlive s = true ∧ s.aon.power = p ∧ (∀ i, i ∈ s.mg.sm.freed → (gOp s i).owes = false) ∧ cmdReady s = true ∧
    cmdEntry s = e ∧ ent e 0 1 = op

/-- The command at the head completes: the block is x with the completion entry added and the entry consumed. -/
def answers (c : Instr) (s x : State) (e : List W8) (res : Nat) (data : List W8) : Prop := exec c s = .next (cmdDone x e res data)

/-- A long command has been accepted in slot i as its next operation: RUNNING, with `total` units of work and `arg`; its START is in the journal's ruling half
and in the log, and its STARTED completion in the ring (R444). -/
def smStarted (s t : State) (i : Nat) (e : List W8) (total arg : Nat) : Prop :=
  let h := i + 8 * (gOp t i).gen
  (gOp t i).st = .running ∧ (gOp t i).cmd = e ∧ (gOp t i).total = total ∧ (gOp t i).prog = 0 ∧ (gOp t i).arg = arg ∧
    (gOp t i).gen = (if 8191 ≤ (gOp s i).gen then 1 else (gOp s i).gen + 1) ∧ t.mg.sm.cmdRd = s.mg.sm.cmdRd + 1 ∧
    t.mg.sm.cplWr = s.mg.sm.cplWr + 1 ∧ t.mg.sm.freed = s.mg.sm.freed.tail ∧ (∀ j, j ≠ i → gOp t j = gOp s j) ∧
    (∀ r, rulingHalf s = some r → (jHalf t r).recs = (jHalf s r).recs ++ [
      .opStart (BitVec.ofNat 16 h) (BitVec.ofNat 8 (ent e 0 1)) (e.drop 8)]) ∧
    logAs s t (some (0x7030, [h, ent e 0 1]))

/-- The operation in slot i has ended in this state with this result, and its slot is free again (R445). -/
def smEnded (t : State) (i : Nat) (st : OpSt) (res : W8) : Prop :=
  (gOp t i).st = st ∧ (gOp t i).result = res ∧ i ∈ t.mg.sm.freed

/-- The stage manager serves its rings, the command ring is empty, no end completion waits, and the operation of this opcode that has not
ended is in slot i. -/
def smWorks (s : State) (op i : Nat) : Prop :=
  smAlive s = true ∧ s.mg.sm.cmdRd = s.mg.sm.cmdWr ∧ (∀ j, j ∈ s.mg.sm.freed → (gOp s j).owes = false) ∧ opOf s op = some i

/-! ### Which commands are words -/

/-- The engine's thread whose word a command is. -/
def keOf : Instr → Option (Fin 2048)
  | .add g .. | .addc g .. | .sub g .. | .subc g .. | .and g .. | .or g .. | .xor g .. | .andn g .. | .shl g .. | .shr g ..
  | .sar g .. | .ror g .. | .mul g .. | .mulhs g .. | .mulhu g .. | .cmp g .. | .min g .. | .max g .. | .minu g ..
  | .maxu g .. | .clz g .. | .popc g .. | .brev g .. | .bswap g .. | .sextb g .. | .sexth g .. | .selt g .. | .teq g ..
  | .tlt g .. | .tltu g .. | .tbit g .. | .addi g .. | .andi g .. | .ori g .. | .xori g .. | .shi g .. | .cmpi g ..
  | .tsti g .. | .movi g .. | .div g .. | .divu g .. | .rems g .. | .remu g .. | .aaddi g .. | .aadd g .. | .asub g ..
  | .amov g .. | .alo g .. | .ahi g .. | .atod g .. | .atodh g .. | .taeq g .. | .taltu g .. | .amovi g .. | .mts g ..
  | .mfs g .. | .ldb g .. | .ldbu g .. | .ldh g .. | .ldhu g .. | .ldw g .. | .ldd g .. | .lda g .. | .stb g .. | .sth g ..
  | .stw g .. | .std g .. | .sta g .. | .sti g .. | .macx g .. | .clmacx g .. | .mac g .. | .clrac g .. | .mfac g ..
  | .mfacs g .. | .mtac g .. | .acshr g .. | .acshl g .. | .clred g .. | .acadd g .. | .acxor g .. | .bcrc g .. | .br g ..
  | .dbnz g .. | .call g .. | .jr g .. | .callr g .. | .ret g | .rete g | .waitt g | .waite g .. | .ldtb g .. | .cue g ..
  | .caprd g .. | .tmrRead g .. | .tmrWrite g .. | .chopen g .. | .chw g .. | .chclose g .. | .chr g .. | .chabort g ..
  | .take g .. | .release g .. | .casw g .. | .casd g .. | .acq g .. | .rel g .. | .lwatch g .. | .lunwatch g .. | .nop g
  | .synci g | .cpt g .. | .fence g | .bkpt g .. | .tset g | .tclr g | .pair g .. | .illegalOpcode g => some g
  | _ => none

/-- The pin bank whose sequencer's word a command is. -/
def kpOf : Instr → Option (Fin 32)
  | .kpNop b | .kpEnd b | .kpTrap b .. | .kpBr b .. | .kpCall b .. | .kpRet b | .kpJv b .. | .kpCallv b .. | .kpBz b ..
  | .kpBnz b .. | .kpBc b .. | .kpBnc b .. | .kpBt b .. | .kpBf b .. | .kpDjnz b .. | .kpMov b .. | .kpAdd b .. | .kpSub b ..
  | .kpAnd b .. | .kpOr b .. | .kpXor b .. | .kpNot b .. | .kpCmp b .. | .kpAddi b .. | .kpLdi b .. | .kpLdb0 b ..
  | .kpLdh0 b .. | .kpShl b .. | .kpShr b .. | .kpRlt b .. | .kpTbv b .. | .kpLd b .. | .kpSt b .. | .kpLdlc b ..
  | .kpTolc b .. | .kpFrlc b .. | .kpPush b .. | .kpPull b .. | .kpEpnow b | .kpEpadd b .. | .kpEpaddi b .. | .kpCue b ..
  | .kpCuec b .. | .kpCueimg b .. | .kpMarknow b .. | .kpEpcr b | .kpInp b .. | .kpTpin b .. | .kpCapr b .. | .kpCrd b ..
  | .kpCre b .. | .kpMbr b .. | .kpMbw b .. | .kpWaitep b | .kpWaitn b .. | .kpWaitv b .. | .kpWcap b .. | .kpWmb b ..
  | .kpWroom b .. => some b
  | _ => none

end Sys2Proof.Machine
end

