-- ==== Sys2Proof/Certificates/Slice0/Obligations.lean ====
section
/-! DEFINITION. The statements. Each says what it formalises; OBLIGATIONS.json lists them. A completion clause has the form
`Gives c s P`, `keWord c s g r` or `keTrap c s g code` (Sys2Proof/Safety.lean): exec of the command ANSWERS A NEXT STATE, of which P
holds. -/

section
open Sys2Proof Sys2Proof.Machine

/-! ### Engine words on registers (spec/05) -/

/-- R174, R175: ADD, ADDC, SUB, SUBC, CMP, ADDI, CMPI: the sum or difference, and flags of class A. Z and N are those of the
result, C is the unsigned carry or borrow, V the signed overflow. CMP and CMPI write flags only. AND, OR, XOR, ANDN, MUL, MULHS,
MULHU, ANDI, ORI, XORI: the result, and flags of class L: Z and N from the result, C and V cleared. -/
def Obligations.ArithmeticLogicWords : Prop :=
  (∀ (s : State) (g : Fin 2048) (rd rs rt : Fin 16) (i : BitVec 17), canIssue s g.val = true →
      let r := regsOf s g
      let x := rD r rs
      let y := rD r rt
      let m := i.signExtend 32
      let cin := r.fl.c
      let sum (a b : W32) (c : Bool) : Regs → Regs := fun q =>
        let v := a + b + BitVec.ofNat 32 (b2n c)
        { q with fl := { q.fl with
            z := decide (v = 0), n := v.msb, c := decide (2 ^ 32 ≤ a.toNat + b.toNat + b2n c)
            v := decide (a.toInt + b.toInt + b2n c < -(2 ^ 31) ∨ 2 ^ 31 ≤ a.toInt + b.toInt + b2n c) } }
      let dif (a b : W32) (c : Bool) : Regs → Regs := fun q =>
        let v := a - b - BitVec.ofNat 32 (b2n c)
        { q with fl := { q.fl with
            z := decide (v = 0), n := v.msb, c := decide (a.toNat < b.toNat + b2n c)
            v := decide (a.toInt - b.toInt - b2n c < -(2 ^ 31) ∨ 2 ^ 31 ≤ a.toInt - b.toInt - b2n c) } }
      let next : Regs := { r with pc := r.pc + 4 }
      let wr (v : W32) (q : Regs) : Regs := { q with d := tset 0 q.d rd v }
      keWord (.add g rd rs rt) s g (wr (x + y) (sum x y false next)) ∧
        keWord (.addc g rd rs rt) s g (wr (x + y + BitVec.ofNat 32 (b2n cin)) (sum x y cin next)) ∧
        keWord (.sub g rd rs rt) s g (wr (x - y) (dif x y false next)) ∧
        keWord (.subc g rd rs rt) s g (wr (x - y - BitVec.ofNat 32 (b2n cin)) (dif x y cin next)) ∧
        keWord (.cmp g rs rt) s g (dif x y false next) ∧
        keWord (.addi g rd rs i) s g (wr (x + m) (sum x m false next)) ∧
        keWord (.cmpi g rs i) s g (dif x m false next)) ∧
    ∀ (s : State) (g : Fin 2048) (rd rs rt : Fin 16) (i : BitVec 17), canIssue s g.val = true →
      let r := regsOf s g
      let x := rD r rs
      let y := rD r rt
      let m := i.signExtend 32
      let out (v : W32) : Regs := { r with
        pc := r.pc + 4, d := tset 0 r.d rd v, fl := { r.fl with z := decide (v = 0), n := v.msb, c := false, v := false } }
      keWord (.and g rd rs rt) s g (out (x &&& y)) ∧ keWord (.or g rd rs rt) s g (out (x ||| y)) ∧
        keWord (.xor g rd rs rt) s g (out (x ^^^ y)) ∧ keWord (.andn g rd rs rt) s g (out (x &&& ~~~y)) ∧
        keWord (.mul g rd rs rt) s g (out (BitVec.ofNat 32 (x.toNat * y.toNat))) ∧
        keWord (.mulhs g rd rs rt) s g (out (BitVec.ofInt 32 (x.toInt * y.toInt / 2 ^ 32))) ∧
        keWord (.mulhu g rd rs rt) s g (out (BitVec.ofNat 32 (x.toNat * y.toNat / 2 ^ 32))) ∧
        keWord (.andi g rd rs i) s g (out (x &&& m)) ∧ keWord (.ori g rd rs i) s g (out (x ||| m)) ∧
        keWord (.xori g rd rs i) s g (out (x ^^^ m))

/-- R173–R175: MIN, MAX (signed), MINU, MAXU (unsigned), CLZ, POPC, BREV, BSWAP, SEXTB, SEXTH, with flags of class L. The results are
characterized bit by bit or by their integer value: CLZ by the position of the first one, POPC by the number of ones, BREV
and BSWAP by where each bit comes from, SEXTB and SEXTH by which bit is copied upwards. SHL, SHR, SAR, ROR by D[rt][4:0] and
SHI by imm17[4:0], with flags of class S: Z and N from the result, V 0, C the last bit shifted or rotated out, 0 for an amount
of 0. SHI with imm17[14:5] not 0 takes fault 0x01 (R171). -/
def Obligations.CountShiftWords : Prop :=
  (∀ (s : State) (g : Fin 2048) (rd rs rt : Fin 16), canIssue s g.val = true →
      let r := regsOf s g
      let x := rD r rs
      let y := rD r rt
      let out (v : W32) : Regs := { r with
        pc := r.pc + 4, d := tset 0 r.d rd v, fl := { r.fl with z := decide (v = 0), n := v.msb, c := false, v := false } }
      keWord (.min g rd rs rt) s g (out (BitVec.ofInt 32 (min x.toInt y.toInt))) ∧
        keWord (.max g rd rs rt) s g (out (BitVec.ofInt 32 (max x.toInt y.toInt))) ∧
        keWord (.minu g rd rs rt) s g (out (BitVec.ofNat 32 (min x.toNat y.toNat))) ∧
        keWord (.maxu g rd rs rt) s g (out (BitVec.ofNat 32 (max x.toNat y.toNat))) ∧
        (∃ v : W32, keWord (.clz g rd rs) s g (out v) ∧ v.toNat ≤ 32 ∧ x.toNat < 2 ^ (32 - v.toNat) ∧
          (v.toNat < 32 → x.getLsbD (31 - v.toNat) = true)) ∧
        keWord (.popc g rd rs) s g (out (BitVec.ofNat 32 ((List.range 32).countP fun n => x.getLsbD n))) ∧
        (∃ v : W32, keWord (.brev g rd rs) s g (out v) ∧ ∀ n, n < 32 → v.getLsbD n = x.getLsbD (31 - n)) ∧
        (∃ v : W32, keWord (.bswap g rd rs) s g (out v) ∧
          ∀ n, n < 32 → v.getLsbD n = x.getLsbD (8 * (3 - n / 8) + n % 8)) ∧
        (∃ v : W32, keWord (.sextb g rd rs) s g (out v) ∧ ∀ n, n < 32 → v.getLsbD n = x.getLsbD (min n 7)) ∧
        (∃ v : W32, keWord (.sexth g rd rs) s g (out v) ∧ ∀ n, n < 32 → v.getLsbD n = x.getLsbD (min n 15))) ∧
    ∀ (s : State) (g : Fin 2048) (rd rs rt : Fin 16) (i : BitVec 17), canIssue s g.val = true →
      let r := regsOf s g
      let x := rD r rs
      let out (v : W32) (c : Bool) : Regs := { r with
        pc := r.pc + 4, d := tset 0 r.d rd v, fl := { r.fl with z := decide (v = 0), n := v.msb, c := c, v := false } }
      let lo (n : Nat) : Bool := decide (0 < n) && x.getLsbD (n - 1)
      let hi (n : Nat) : Bool := decide (0 < n) && x.getLsbD (32 - n)
      let rot (n : Nat) : W32 := (x >>> n) ||| (x <<< (32 - n))
      let n := (rD r rt).toNat % 32
      let k := i.toNat % 32
      keWord (.shl g rd rs rt) s g (out (x <<< n) (hi n)) ∧ keWord (.shr g rd rs rt) s g (out (x >>> n) (lo n)) ∧
        keWord (.sar g rd rs rt) s g (out (BitVec.ofInt 32 (x.toInt / 2 ^ n)) (lo n)) ∧
        keWord (.ror g rd rs rt) s g (out (rot n) (lo n)) ∧
        (i.toNat / 32 % 1024 ≠ 0 → keTrap (.shi g rd rs i) s g 0x01) ∧
        (i.toNat / 32 % 1024 = 0 →
          (i.toNat / 2 ^ 15 = 0 → keWord (.shi g rd rs i) s g (out (x <<< k) (hi k))) ∧
          (i.toNat / 2 ^ 15 = 1 → keWord (.shi g rd rs i) s g (out (x >>> k) (lo k))) ∧
          (i.toNat / 2 ^ 15 = 2 → keWord (.shi g rd rs i) s g (out (BitVec.ofInt 32 (x.toInt / 2 ^ k)) (lo k))) ∧
          (i.toNat / 2 ^ 15 = 3 → keWord (.shi g rd rs i) s g (out (rot k) (lo k))))

/-- R174, R175, R197: SELT, TEQ, TLT, TLTU, TBIT, TSTI, MOVI, TSET, TCLR, NOP. A test writes T and no other flag; SELT and MOVI
write their register and no flag. TSTI with a selector above 3, or a bit number above 31, takes fault 0x01. -/
def Obligations.TestMoveWords : Prop :=
  ∀ (s : State) (g : Fin 2048) (rd rs rt : Fin 16) (i : BitVec 17) (w : W16) (sel : Fin 16), canIssue s g.val = true →
    let r := regsOf s g
    let x := rD r rs
    let y := rD r rt
    let m := i.signExtend 32
    let next : Regs := { r with pc := r.pc + 4 }
    let tt (b : Bool) : Regs := { next with fl := { r.fl with t := b } }
    let wr (v : W32) : Regs := { next with d := tset 0 r.d rd v }
    keWord (.selt g rd rs rt) s g (wr (if r.fl.t then x else y)) ∧
      keWord (.teq g rs rt) s g (tt (decide (x = y))) ∧
      keWord (.tlt g rs rt) s g (tt (decide (x.toInt < y.toInt))) ∧
      keWord (.tltu g rs rt) s g (tt (decide (x.toNat < y.toNat))) ∧
      keWord (.tbit g rs rt) s g (tt (x.getLsbD (y.toNat % 32))) ∧
      (sel.val = 0 → keWord (.tsti g sel rs i) s g (tt (decide (x = m)))) ∧
      (sel.val = 1 → keWord (.tsti g sel rs i) s g (tt (decide (x.toInt < m.toInt)))) ∧
      (sel.val = 2 → keWord (.tsti g sel rs i) s g (tt (decide (x.toNat < m.toNat)))) ∧
      (sel.val = 3 → i.toNat < 32 → keWord (.tsti g sel rs i) s g (tt (x.getLsbD i.toNat))) ∧
      (sel.val = 3 → 32 ≤ i.toNat → keTrap (.tsti g sel rs i) s g 0x01) ∧
      (4 ≤ sel.val → keTrap (.tsti g sel rs i) s g 0x01) ∧
      keWord (.movi g rd false w) s g (wr (w.signExtend 32)) ∧
      keWord (.movi g rd true w) s g (wr (BitVec.ofNat 32 (w.toNat * 65536 + (rD r rd).toNat % 65536))) ∧
      keWord (.tset g) s g (tt true) ∧ keWord (.tclr g) s g (tt false) ∧ keWord (.nop g) s g next

/-- R130, R132, R176: DIV, DIVU, REMS, REMU. Each starts a long operation of 18 slots: its registers stand, and 17 iterations are
still to run, of which the last writes D[rd] and the flags. Quotients truncate toward zero and remainders take the dividend's sign;
Z and N come from the result, C is 0, V is 1 in the corner cases alone: a divisor of 0, and the most negative dividend divided by
-1. A slot that the thread spends on its long operation runs one iteration: it leaves the registers as they were, and the last one
writes and goes on to the next word. -/
def Obligations.DivideWords : Prop :=
  (∀ (s : State) (g : Fin 2048) (rd rs rt : Fin 16), canIssue s g.val = true →
    let k := thrKey s g.val
    let r := regsOf s g
    let x := rD r rs
    let y := rD r rt
    let starts (c : Instr) (v : W32) (o : Bool) : Prop := KeGives c s g fun t => thrFrame s t k ∧
      gThr t k = { gThr s k with
        long := some { left := 17, writes := [.d rd v, .znvc (decide (v = 0)) v.msb false o], crc := none }
        loaded := [], ownFirst := false, dbg := { (gThr s k).dbg with bpPass := false } }
    let div : Instr := .div g rd rs rt
    let divu : Instr := .divu g rd rs rt
    let rems : Instr := .rems g rd rs rt
    let remu : Instr := .remu g rd rs rt
    (y = 0 → starts div 0xFFFFFFFF true ∧ starts divu 0xFFFFFFFF true ∧ starts rems x true ∧ starts remu x true) ∧
      (x = 0x80000000 ∧ y = 0xFFFFFFFF → starts div 0x80000000 true ∧ starts rems 0 true) ∧
      (y ≠ 0 → ¬(x = 0x80000000 ∧ y = 0xFFFFFFFF) →
        starts div (BitVec.ofInt 32 (x.toInt.tdiv y.toInt)) false ∧
          starts rems (BitVec.ofInt 32 (x.toInt.tmod y.toInt)) false) ∧
      (y ≠ 0 → starts divu (BitVec.ofNat 32 (x.toNat / y.toNat)) false ∧
        starts remu (BitVec.ofNat 32 (x.toNat % y.toNat)) false)) ∧
    ∀ (s : State) (k n : Nat) (ws : List RWr),
      (gThr s k).owe = 0 → (gThr s k).long = some { left := n, writes := ws, crc := none } → (gThr s k).dbg.stepping = false →
      let t := paySlot s k
      (∀ j, j ≠ k → gThr t j = gThr s j) ∧ t.ram = s.ram ∧
        (2 ≤ n → gThr t k = { gThr s k with long := some { left := n - 1, writes := ws, crc := none } }) ∧
        (n = 1 → (gThr t k).r = { applyWrs (gThr s k).r ws with pc := (gThr s k).r.pc + 4 } ∧ (gThr t k).long = none ∧
          (gThr t k).owe = 0)

/-- R177: the address instructions. A loads sign-extend D operands and immediates to 48 bits and wrap modulo 2^48; ALO, AHI and
AMOVI replace parts of an address; ATOD, ATODH read parts; TAEQ, TALTU write T alone. AMOVI with h = 3 takes fault 0x01. -/
def Obligations.AddressWords : Prop :=
  ∀ (s : State) (g : Fin 2048) (ad as : Fin 8) (dt : Fin 16) (i : BitVec 19) (h : BitVec 2) (w : W16),
    canIssue s g.val = true →
    let r := regsOf s g
    let x := rA r as
    let y := rD r dt
    let old := rA r ad
    let next : Regs := { r with pc := r.pc + 4 }
    let wa (v : W48) : Regs := { next with a := tset 0 r.a ad v }
    let wd (v : W32) : Regs := { next with d := tset 0 r.d dt v }
    let tt (b : Bool) : Regs := { next with fl := { r.fl with t := b } }
    keWord (.aaddi g ad as i) s g (wa (x + i.signExtend 48)) ∧
      keWord (.aadd g ad as dt) s g (wa (x + y.signExtend 48)) ∧
      keWord (.asub g ad as dt) s g (wa (x - y.signExtend 48)) ∧
      keWord (.amov g ad as) s g (wa x) ∧
      keWord (.alo g ad as dt) s g (wa (BitVec.ofNat 48 (x.toNat / 2 ^ 32 * 2 ^ 32 + y.toNat))) ∧
      keWord (.ahi g ad as dt) s g (wa (BitVec.ofNat 48 (y.toNat % 2 ^ 16 * 2 ^ 32 + x.toNat % 2 ^ 32))) ∧
      keWord (.atod g as dt) s g (wd (BitVec.ofNat 32 x.toNat)) ∧
      keWord (.atodh g as dt) s g (wd (BitVec.ofNat 32 (x.toNat / 2 ^ 32))) ∧
      keWord (.taeq g ad as) s g (tt (decide (old = x))) ∧
      keWord (.taltu g ad as) s g (tt (decide (old.toNat < x.toNat))) ∧
      (h = 0 → keWord (.amovi g ad h w) s g (wa (BitVec.ofNat 48 w.toNat))) ∧
      (h = 1 → keWord (.amovi g ad h w) s g
        (wa (BitVec.ofNat 48 (old.toNat / 2 ^ 32 * 2 ^ 32 + w.toNat * 2 ^ 16 + old.toNat % 2 ^ 16)))) ∧
      (h = 2 → keWord (.amovi g ad h w) s g (wa (BitVec.ofNat 48 (w.toNat * 2 ^ 32 + old.toNat % 2 ^ 32)))) ∧
      (h = 3 → keTrap (.amovi g ad h w) s g 0x01)

/-- R156, R157, R158, R191: MTS, MFS and LDTB. Numbers 0–7 are MB and move through A registers (codes 16–23), 8–15 ML, 0x10
and 0x11 the halves of THR_WAKE, 0x12 FLAGS, 0x13 RSDEPTH, 0x14 TID, through D registers. A code above 23, a number above
0x14 or the wrong class of register takes fault 0x01, MTS to RSDEPTH or TID fault 0x07. LDTB reads the timebase of its ec into
an even pair. -/
def Obligations.SpecialRegisterWords : Prop :=
  ∀ (s : State) (g : Fin 2048) (reg : BitVec 5) (num : W8) (d : Fin 16), canIssue s g.val = true →
    let r := regsOf s g
    let next : Regs := { r with pc := r.pc + 4 }
    let n := num.toNat
    let dn := reg.toNat
    let wd (v : W32) : Regs := { next with d := tset 0 r.d dn v }
    let legal : Prop := dn < 24 ∧ n ≤ 0x14 ∧ (n < 8 ↔ 16 ≤ dn)
    (¬legal → keTrap (.mts g reg num) s g 0x01 ∧ keTrap (.mfs g reg num) s g 0x01) ∧
      (legal → (n = 0x13 ∨ n = 0x14) → keTrap (.mts g reg num) s g 0x07) ∧
      (legal → n < 8 → keWord (.mts g reg num) s g { next with mb := tset 0 r.mb n (rA r (dn - 16)) } ∧
        keWord (.mfs g reg num) s g { next with a := tset 0 r.a (dn - 16) (rMb r n) }) ∧
      (legal → 8 ≤ n → n < 16 →
        keWord (.mts g reg num) s g { next with ml := tset 0 r.ml (n - 8) (BitVec.ofNat 24 (rD r dn).toNat) } ∧
        keWord (.mfs g reg num) s g (wd (BitVec.ofNat 32 (rMl r (n - 8)).toNat))) ∧
      (legal → n = 0x10 →
        keWord (.mts g reg num) s g { next with
          wake := BitVec.ofNat 64 (r.wake.toNat / 2 ^ 32 * 2 ^ 32 + (rD r dn).toNat) } ∧
        keWord (.mfs g reg num) s g (wd (BitVec.ofNat 32 r.wake.toNat))) ∧
      (legal → n = 0x11 →
        keWord (.mts g reg num) s g { next with
          wake := BitVec.ofNat 64 ((rD r dn).toNat * 2 ^ 32 + r.wake.toNat % 2 ^ 32) } ∧
        keWord (.mfs g reg num) s g (wd (BitVec.ofNat 32 (r.wake.toNat / 2 ^ 32)))) ∧
      (legal → n = 0x12 →
        keWord (.mts g reg num) s g { next with fl := {
          z := (rD r dn).getLsbD 0, n := (rD r dn).getLsbD 1, c := (rD r dn).getLsbD 2, v := (rD r dn).getLsbD 3
          t := (rD r dn).getLsbD 4 } } ∧
        keWord (.mfs g reg num) s g (wd (BitVec.ofNat 32
          (b2n r.fl.z + 2 * b2n r.fl.n + 4 * b2n r.fl.c + 8 * b2n r.fl.v + 16 * b2n r.fl.t)))) ∧
      (legal → n = 0x13 → keWord (.mfs g reg num) s g (wd (BitVec.ofNat 32 r.rsd))) ∧
      (legal → n = 0x14 →
        keWord (.mfs g reg num) s g (wd (BitVec.ofNat 32 (g.val + physOf s (g.val / 32) * 65536)))) ∧
      (d.val % 2 = 1 → keTrap (.ldtb g d) s g 0x01) ∧
      (d.val % 2 = 0 → keWord (.ldtb g d) s g { next with
        d := tset 0 (tset 0 r.d d (BitVec.ofNat 32 s.tb.now.toNat)) (d + 1) (BitVec.ofNat 32 (s.tb.now.toNat / 2 ^ 32)) })

/-- R155, R182–R184: the accumulator words. The accumulators are 80 bits and wrap; MAC adds or subtracts a product of operands
sign- or zero-extended by its sg bits; MFACS clamps to 32 bits and writes V; CLRED gives the residue of the low 64 bits
modulo x^32 + D[par]. A parameter that its operation does not
define takes fault 0x01. -/
def Obligations.AccumulatorWords : Prop :=
  ∀ (s : State) (g : Fin 2048) (ac : Fin 2) (rs rt d : Fin 16) (sg : BitVec 2) (neg : Bool) (p : BitVec 13),
    canIssue s g.val = true →
    let r := regsOf s g
    let a := rAc r ac
    let b := rAc r (1 - ac.val)
    let n := p.toNat
    let next : Regs := { r with pc := r.pc + 4 }
    let wac (v : W80) : Regs := { next with ac := tset 0 r.ac ac v }
    let wd (v : W32) : Regs := { next with d := tset 0 r.d d v }
    let val (sgn : Bool) (x : W32) : Int := if sgn then x.toInt else x.toNat
    let prod : Int := val (sg.getLsbD 1) (rD r rs) * val (sg.getLsbD 0) (rD r rt)
    let sh : Int := a.toInt / 2 ^ n
    keWord (.mac g ac rs rt sg neg) s g (wac (BitVec.ofInt 80 (a.toInt + if neg then -prod else prod))) ∧
      keWord (.clrac g ac) s g (wac 0) ∧
      (n < 3 → keWord (.mfac g ac d p) s g (wd (BitVec.ofNat 32 (a.toNat / 2 ^ (32 * n))))) ∧
      (3 ≤ n → keTrap (.mfac g ac d p) s g 0x01) ∧
      (n < 64 → keWord (.mfacs g ac d p) s g { wd (BitVec.ofInt 32 (max (-(2 ^ 31)) (min sh (2 ^ 31 - 1)))) with
        fl := { r.fl with v := decide (sh < -(2 ^ 31) ∨ 2 ^ 31 ≤ sh) } }) ∧
      (64 ≤ n → keTrap (.mfacs g ac d p) s g 0x01) ∧
      (n = 0 → keWord (.mtac g ac d p) s g (wac (BitVec.ofNat 80 (a.toNat / 2 ^ 32 * 2 ^ 32 + (rD r d).toNat)))) ∧
      (n = 1 → keWord (.mtac g ac d p) s g
        (wac (BitVec.ofNat 80 (a.toNat / 2 ^ 64 * 2 ^ 64 + (rD r d).toNat * 2 ^ 32 + a.toNat % 2 ^ 32)))) ∧
      (n = 2 → keWord (.mtac g ac d p) s g
        (wac (BitVec.ofNat 80 ((rD r d).toNat % 2 ^ 16 * 2 ^ 64 + a.toNat % 2 ^ 64)))) ∧
      (n = 3 → keWord (.mtac g ac d p) s g (wac (BitVec.ofInt 80 (rD r d).toInt))) ∧
      (4 ≤ n → keTrap (.mtac g ac d p) s g 0x01) ∧
      (n < 64 → keWord (.acshr g ac p) s g (wac (BitVec.ofInt 80 sh)) ∧
        keWord (.acshl g ac p) s g (wac (BitVec.ofNat 80 (a.toNat * 2 ^ n)))) ∧
      (64 ≤ n → keTrap (.acshr g ac p) s g 0x01 ∧ keTrap (.acshl g ac p) s g 0x01) ∧
      (n < 16 → keWord (.clred g ac d p) s g (wd (clResidue (a.toNat % 2 ^ 64) (rD r n)))) ∧
      (16 ≤ n → keTrap (.clred g ac d p) s g 0x01) ∧
      keWord (.acadd g ac) s g (wac (BitVec.ofNat 80 (a.toNat + b.toNat))) ∧
      keWord (.acxor g ac) s g (wac (a ^^^ b))

/-- R186–R189: BR by its fifteen conditions, DBNZ, CALL, JR, CALLR, RET, RETE. A transfer that is
taken costs 3 slots, one that is not 1 (R130, R135). Offsets count words from the branch itself; a
call pushes the address of the next word, RET pops it; JR and CALLR to an address that is no multiple of 4 take fault 0x04, a
push on a full stack fault 0x08 when RSTRAP is 1 and otherwise overwrites the oldest entry, RET on an empty stack fault 0x09,
condition 15 and RETE without a saved state fault 0x01. RETE restores PC, FLAGS and the successor copy and clears INH. -/
def Obligations.ControlTransferWords : Prop :=
  ∀ (s : State) (g : Fin 2048) (cond : BitVec 4) (o21 : BitVec 21) (o25 : BitVec 25) (d : Fin 16) (a : Fin 8),
    canIssue s g.val = true →
    let th := gThr s (thrKey s g.val)
    let r := regsOf s g
    let f := r.fl
    let at' (pc : W48) : Regs := { r with pc := pc }
    let rel21 := r.pc + 4 * o21.signExtend 48
    let rel25 := r.pc + 4 * o25.signExtend 48
    let holds : List Bool := [f.z, !f.z, f.n != f.v, f.n == f.v, !f.z && f.n == f.v, f.z || f.n != f.v, f.c, !f.c, f.n,
      !f.n, f.v, !f.v, f.t, !f.t, true]
    let push : Regs := { r with
      rs := tset 0 r.rs r.rsp (r.pc + 4), rsp := (r.rsp + 1) % 8, rsd := if r.rsd < 8 then r.rsd + 1 else r.rsd }
    let full : Prop := r.rsd = 8 ∧ th.rstrap = true
    let aligned : Prop := (rA r a).toNat % 4 = 0
    let x := rD r d - 1
    (holds[cond.toNat]? = some true → keCost (.br g cond o21) s g 3 (at' rel21)) ∧
      (holds[cond.toNat]? = some false → keWord (.br g cond o21) s g (at' (r.pc + 4))) ∧
      (cond = 15 → keTrap (.br g cond o21) s g 0x01) ∧
      (x = 0 → keWord (.dbnz g d o21) s g { r with d := tset 0 r.d d x, pc := r.pc + 4 }) ∧
      (x ≠ 0 → keCost (.dbnz g d o21) s g 3 { r with d := tset 0 r.d d x, pc := rel21 }) ∧
      (¬full → keCost (.call g o25) s g 3 { push with pc := rel25 }) ∧
      (full → keTrap (.call g o25) s g 0x08) ∧
      (aligned → keCost (.jr g a) s g 3 (at' (rA r a))) ∧
      (¬aligned → keTrap (.jr g a) s g 0x04 ∧ keTrap (.callr g a) s g 0x04) ∧
      (aligned → ¬full → keCost (.callr g a) s g 3 { push with pc := rA r a }) ∧
      (aligned → full → keTrap (.callr g a) s g 0x08) ∧
      (r.rsd = 0 → keTrap (.ret g) s g 0x09) ∧
      (r.rsd ≠ 0 → keCost (.ret g) s g 3 { r with
        rsp := (r.rsp + 7) % 8, rsd := r.rsd - 1, pc := tget 0 r.rs ((r.rsp + 7) % 8) }) ∧
      (th.save = none → keTrap (.rete g) s g 0x01) ∧
      (∀ sv, th.save = some sv → KeGives (.rete g) s g fun t =>
        thrFrame s t (thrKey s g.val) ∧ (gThr t (thrKey s g.val)).r = { r with fl := sv.fl, pc := sv.pc } ∧
          (gThr t (thrKey s g.val)).owe = 2 ∧
          (gThr t (thrKey s g.val)).save = none ∧ (gThr t (thrKey s g.val)).succ = sv.succ)

/-- R139, R144, R167, R190, R197, R203, R246, R479: WAITT, WAITE, SYNCI, FENCE, CPT, BKPT, and a word without an encoding.
WAITT on a time that has passed sets LATE and goes on, otherwise the thread waits with its PC at the WAITT. WAITE with no
recognized source waits; with one the thread stays in RUN, and its event entry (with INH at 1 its wake) begins in the next ec with
the lowest of them. SYNCI, of 3 slots, and FENCE hold the thread until
its posted accesses have ended. A curtain point that a pending swap accepts stops the thread in WAIT with CURTAIN at 1 and the
PC after the CPT; any other only restarts the watchdog. BKPT halts when BKEN and the lock's scope allow, else it is a NOP. -/
def Obligations.WaitAndSystemWords : Prop :=
  ∀ (s : State) (g : Fin 2048) (mask num : W16), canIssue s g.val = true →
    let k := thrKey s g.val
    let th := gThr s k
    let r := regsOf s g
    let next : Regs := { r with pc := r.pc + 4 }
    let src := pendNow s k &&& (if th.save.isSome then mask else th.evEn ||| mask)
    let bk : Prop := th.dbg.bken = true ∧ s.mg.lock.unlocked = true ∧ s.mg.lock.scope.getLsbD 0 = true
    let cur : Prop := th.swap = true ∧ th.save = none ∧ ∀ ns, th.swapNums = some ns → num ∈ ns
    (s.tb.now.toNat ≤ r.wake.toNat → KeGives (.waitt g) s g fun t =>
        thrFrame s t k ∧ (gThr t k).st = .wait ∧ (gThr t k).waitK = some .waitt ∧ (gThr t k).r = r) ∧
      (r.wake.toNat < s.tb.now.toNat → KeGives (.waitt g) s g fun t =>
        thrFrame s t k ∧ (gThr t k).late = true ∧ (gThr t k).r = next) ∧
      (mask = 0 → keTrap (.waite g mask) s g 0x01) ∧
      (mask ≠ 0 → src = 0 → KeGives (.waite g mask) s g fun t =>
        thrFrame s t k ∧ (gThr t k).st = .wait ∧ (gThr t k).waitK = some (.waite mask) ∧ (gThr t k).r = r) ∧
      (∀ bit, mask ≠ 0 → bit < 16 → src.getLsbD bit = true → (∀ n, n < bit → src.getLsbD n = false) →
        KeGives (.waite g mask) s g fun t =>
          thrFrame s t k ∧ (gThr t k).st = .run ∧ (gThr t k).r = r ∧ (gThr t k).entering = some bit ∧
            (gThr t k).waitK = some (.waite mask) ∧ (gThr t k).pend = th.pend ∧ (gThr t k).wdCount = th.wdCount) ∧
      ((∀ p ∈ th.posted, p.sti = none) → KeGives (.synci g) s g fun t =>
        thrFrame s t k ∧ wordCost s t k next 3 ∧ (gIc t (k / 32)).lb = []) ∧
      ((∃ p ∈ th.posted, p.sti ≠ none) → KeGives (.synci g) s g fun t =>
        thrFrame s t k ∧ (gThr t k).held = some { op := .synci, writes := [] } ∧ (gThr t k).r = r) ∧
      (th.posted = [] → keWord (.fence g) s g next) ∧
      (th.posted ≠ [] → KeGives (.fence g) s g fun t =>
        thrFrame s t k ∧ (gThr t k).held = some { op := .fence, writes := [] } ∧ (gThr t k).r = r) ∧
      (¬cur → KeGives (.cpt g num) s g fun t =>
        thrFrame s t k ∧ (gThr t k).wdCount = 0 ∧ (gThr t k).r = next ∧ (gThr t k).curtain = th.curtain) ∧
      (cur → th.posted = [] → th.dbg.stepping = false → KeGives (.cpt g num) s g fun t =>
        thrFrame s t k ∧ (gThr t k).st = .wait ∧ (gThr t k).waitK = some .curtain ∧ (gThr t k).curtain = true ∧
          (gThr t k).cptAt = num ∧ (gThr t k).r = next) ∧
      (cur → th.posted ≠ [] → KeGives (.cpt g num) s g fun t =>
        thrFrame s t k ∧ (gThr t k).held = some { op := .cptStop, writes := [] } ∧ (gThr t k).r = r) ∧
      (bk → KeGives (.bkpt g num) s g fun t =>
        thrFrame s t k ∧ (gThr t k).st = .halt ∧ (gThr t k).dbg.halted = true ∧ (gThr t k).dbg.pending = false ∧ (gThr t k).dbg.reason = 4 ∧
          (gThr t k).dbg.bknum = num ∧ (gThr t k).r = next) ∧
      (¬bk → keWord (.bkpt g num) s g next) ∧
      keTrap (.illegalOpcode g) s g 0x01

/-- R33, R48, R162–R168, R178: LDB, LDBU, LDH, LDHU, LDW, LDD, LDA. A load from the thread's own local memory completes with the value (a byte
that the shared port has written in the same ec as it was before), extended
as its mnemonic says, and with the step of its address register (the destination wins where they are one register). A load
from the mesh or the wings, from external memory or from control space holds the thread: its registers stand, and what is to
be done at the response is kept; one to control space joins its engine's accesses in the order of issue; a load from external memory has made its request under the next access number. -/
def Obligations.LoadWords : Prop :=
  ∀ (s : State) (g : Fin 2048) (r : Fin 16) (a : Fin 8) (mode : BitVec 2) (i : W16), canIssue s g.val = true →
    ¬(mode = 3 ∧ 16 ≤ i.toNat) →
    let k := thrKey s g.val
    let x := ea (regsOf s g) a mode i
    let adr := x.1.toNat
    let base := k / 32 * 0x40000 + adr
    let q : Regs := { applyWrs (regsOf s g) x.2 with pc := (regsOf s g).pc + 4 }
    let v (n : Nat) : Nat := leNat (lmSeen s true base (mread s.ram.lm base n))
    let wd (y : W32) : Regs := { q with d := tset 0 q.d r y }
    let heldWith (t : State) (op : HeldOp) : Prop :=
      (gThr t k).held = some { op := op, writes := x.2 } ∧ (gThr t k).r = regsOf s g ∧ (gThr t k).st = .run
    let form (c : Instr) (n : Nat) (dst : LDst) (out : Regs) : Prop := adr % n = 0 →
      (adr < 0x40000 → badHit s.ram.lmBad base n = false → keWord c s g out) ∧
      (0x10000000 ≤ adr ∧ adr < 0x11100000 ∨ 0x20000000 ≤ adr ∧ adr < 0x22000000 → KeGives c s g fun t =>
        thrFrame s t k ∧ heldWith t (.load x.1 n dst)) ∧
      (0x4000000000 ≤ adr → adr < 0x8000000000 → KeGives c s g fun t =>
        t = { s with
          en := { s.en with thr := t.en.thr, eng := t.en.eng, ic := t.en.ic }, ms := t.ms, mg := { s.mg with log := t.mg.log } } ∧
          slotFrame s t k ∧ (∀ j, j ≠ k → gThr t j = gThr s j) ∧ heldWith t (.loadExt s.ms.nextJob x.1 n dst)) ∧
      (0x30000000 ≤ adr → adr < 0x38000000 → (n = 4 ∨ n = 8) → ctlAllowed s k (adr - 0x30000000) false = true →
        KeGives c s g fun t => ctlIssued s t k ∧ heldWith t (.ctlLoad (adr - 0x30000000) n dst none))
    form (.ldb g r a mode i) 1 (.dSx r) (wd ((BitVec.ofNat 8 (v 1)).signExtend 32)) ∧
      form (.ldbu g r a mode i) 1 (.dZx r) (wd (BitVec.ofNat 32 (v 1))) ∧
      form (.ldh g r a mode i) 2 (.dSx r) (wd ((BitVec.ofNat 16 (v 2)).signExtend 32)) ∧
      form (.ldhu g r a mode i) 2 (.dZx r) (wd (BitVec.ofNat 32 (v 2))) ∧
      form (.ldw g r a mode i) 4 (.dZx r) (wd (BitVec.ofNat 32 (v 4))) ∧
      (r.val % 2 = 0 → form (.ldd g r a mode i) 8 (.dPair r)
        { q with d := tset 0 (tset 0 q.d r (BitVec.ofNat 32 (v 8))) (r + 1) (BitVec.ofNat 32 (v 8 / 2 ^ 32)) }) ∧
      (r.val < 8 → form (.lda g r a mode i) 8 (.aReg r) { q with a := tset 0 q.a r (BitVec.ofNat 48 (v 8)) })

/-- R162–R168, R178: STB, STH, STW, STD, STA. A store to the thread's own local memory writes the low bytes of its data there,
least significant first, and no other byte. A store to the mesh, the wings or external memory is posted: the thread goes on, and
the store joins its posted accesses; the engine's local memory, if it is on, or the wings hold the bytes, but for a word that the
engine's own pipeline has written in the same ec (R33). A ninth posted store, and a store to control space, hold the thread
with its registers as they were. -/
def Obligations.StoreWords : Prop :=
  ∀ (s : State) (g : Fin 2048) (r : Fin 16) (a : Fin 8) (mode : BitVec 2) (i : W16), canIssue s g.val = true →
    ¬(mode = 3 ∧ 16 ≤ i.toNat) →
    let k := thrKey s g.val
    let r0 := regsOf s g
    let th := gThr s k
    let x := ea r0 a mode i
    let adr := x.1.toNat
    let base := k / 32 * 0x40000 + adr
    let q : Regs := { applyWrs r0 x.2 with pc := r0.pc + 4 }
    let form (c : Instr) (n v : Nat) : Prop := adr % n = 0 →
      (adr < 0x40000 → KeGives c s g fun t =>
        wordDone s t k q ∧ t.ram.lm = mwrite s.ram.lm base (leBytes n v) ∧
          (∀ b, b < base ∨ base + n ≤ b → mget t.ram.lm b = mget s.ram.lm b) ∧ (∀ j, j ≠ k → gThr t j = gThr s j) ∧
          t = { s with
            en := { s.en with thr := t.en.thr, eng := t.en.eng, ic := t.en.ic }
            ram := { s.ram with lm := t.ram.lm, lmEc := t.ram.lmEc, lmBad := t.ram.lmBad }
            mg := { s.mg with log := t.mg.log } } ∧ slotFrame s t k) ∧
      (0x10000000 ≤ adr → adr < 0x11100000 → th.posted.length < 8 → KeGives c s g fun t =>
        let on := peOn s ((adr - 0x10000000) / 0x40000)
        (gThr t k).r = q ∧ (gThr t k).held = none ∧
          (gThr t k).posted = th.posted ++
            [{ pc := r0.pc, job := none, fault := if on then none else some 0x05, sti := none }] ∧
          (on = false → t.ram.lm = s.ram.lm) ∧
          (on = true → (∀ i, i < n → lmKept s (adr - 0x10000000 + i) = false) →
            t.ram.lm = mwrite s.ram.lm (adr - 0x10000000) (leBytes n v)) ∧
          (on = true → (∀ i, i < n → lmKept s (adr - 0x10000000 + i) = true) → t.ram.lm = s.ram.lm)) ∧
      (0x20000000 ≤ adr → adr < 0x22000000 → th.posted.length < 8 → KeGives c s g fun t =>
        (gThr t k).r = q ∧ (gThr t k).held = none ∧
          (gThr t k).posted = th.posted ++ [{ pc := r0.pc, job := none, fault := none, sti := none }] ∧
          t.ram.wings = mwrite s.ram.wings (adr - 0x20000000) (leBytes n v) ∧ t.ram.lm = s.ram.lm) ∧
      (0x4000000000 ≤ adr → adr < 0x8000000000 → th.posted.length < 8 → KeGives c s g fun t =>
        (gThr t k).r = q ∧ (gThr t k).held = none ∧
          (gThr t k).posted = th.posted ++ [{ pc := r0.pc, job := some s.ms.nextJob, fault := none, sti := none }] ∧
          t.ram = s.ram) ∧
      (0x20000000 ≤ adr ∧ adr < 0x22000000 ∨ 0x4000000000 ≤ adr ∧ adr < 0x8000000000 → 8 ≤ th.posted.length →
        KeGives c s g fun t => thrFrame s t k ∧ (gThr t k).r = r0 ∧ (gThr t k).posted = th.posted ∧
          (gThr t k).held = some { op := .ninthStore x.1 n (BitVec.ofNat 64 v), writes := x.2 }) ∧
      (0x30000000 ≤ adr → adr < 0x38000000 → (n = 4 ∨ n = 8) → ctlAllowed s k (adr - 0x30000000) true = true →
        KeGives c s g fun t => ctlIssued s t k ∧ (gThr t k).r = r0 ∧
          (gThr t k).held = some { op := .ctlStore (adr - 0x30000000) n (BitVec.ofNat 64 v), writes := x.2 })
    form (.stb g r a mode i) 1 (rD r0 r).toNat ∧ form (.sth g r a mode i) 2 (rD r0 r).toNat ∧
      form (.stw g r a mode i) 4 (rD r0 r).toNat ∧
      (r.val % 2 = 0 → form (.std g r a mode i) 8 ((rD r0 (r + 1)).toNat * 2 ^ 32 + (rD r0 r).toNat)) ∧
      (r.val < 8 → form (.sta g r a mode i) 8 (rA r0 r).toNat)

/-- R162, R171, R178, R202: the faults of full loads and stores in their order: a field without a meaning 0x01, then privilege in
control space 0x07, then alignment 0x04, then an address with nothing behind it or a control access that is not of 4 or 8
bytes 0x05, then an uncorrectable word of the own local memory under a load 0x06. -/
def Obligations.MemoryAccessFaults : Prop :=
  ∀ (s : State) (g : Fin 2048) (r : Fin 16) (a : Fin 8) (mode : BitVec 2) (i : W16), canIssue s g.val = true →
    let k := thrKey s g.val
    let adr := (ea (regsOf s g) a mode i).1.toNat
    let ctl : Prop := 0x30000000 ≤ adr ∧ adr < 0x38000000
    let hole : Prop := ¬(adr < 0x40000 ∨ 0x10000000 ≤ adr ∧ adr < 0x11100000 ∨ 0x20000000 ≤ adr ∧ adr < 0x22000000 ∨
      0x30000000 ≤ adr ∧ adr < 0x38000000 ∨ 0x4000000000 ≤ adr ∧ adr < 0x8000000000)
    let even : Bool := decide (r.val % 2 = 0)
    let low : Bool := decide (r.val < 8)
    ∀ c n wr ok, (c, n, wr, ok) ∈ [
        (Instr.ldb g r a mode i, 1, false, true), (.ldbu g r a mode i, 1, false, true), (.ldh g r a mode i, 2, false, true),
        (.ldhu g r a mode i, 2, false, true), (.ldw g r a mode i, 4, false, true), (.ldd g r a mode i, 8, false, even),
        (.lda g r a mode i, 8, false, low), (.stb g r a mode i, 1, true, true), (.sth g r a mode i, 2, true, true),
        (.stw g r a mode i, 4, true, true), (.std g r a mode i, 8, true, even), (.sta g r a mode i, 8, true, low)] →
      let legal : Prop := ¬(mode = 3 ∧ 16 ≤ i.toNat) ∧ ok = true
      let priv : Prop := ctl ∧ ctlAllowed s k (adr - 0x30000000) wr = false
      (¬legal → keTrap c s g 0x01) ∧
        (legal → priv → keTrap c s g 0x07) ∧
        (legal → ¬priv → adr % n ≠ 0 → keTrap c s g 0x04) ∧
        (legal → ¬priv → adr % n = 0 → (hole ∨ ctl ∧ n ≠ 4 ∧ n ≠ 8) → keTrap c s g 0x05) ∧
        (legal → adr % n = 0 → adr < 0x40000 → wr = false → badHit s.ram.lmBad (k / 32 * 0x40000 + adr) n = true →
          keTrap c s g 0x06)

/-- R143, R169, R202: STI. It needs a supervisor thread and a word-aligned address of the repertory store whose page is not
write-protected. It writes the engine's own cache array, is posted
with its address and word for the other arrays and the store, and keeps the copy of its successor; a ninth posted access holds
the thread. Nothing is said of the repertory store: the word reaches it when STI_CACHE_UPDATE comes. -/
def Obligations.StoreInstructionWord : Prop :=
  ∀ (s : State) (g : Fin 2048) (r : Fin 16) (a : Fin 8) (mode : BitVec 2) (i : W16), canIssue s g.val = true →
    let k := thrKey s g.val
    let r0 := regsOf s g
    let th := gThr s k
    let x := ea r0 a mode i
    let adr := x.1.toNat
    let q : Regs := { applyWrs r0 x.2 with pc := r0.pc + 4 }
    let legal : Prop := ¬(mode = 3 ∧ 16 ≤ i.toNat)
    let c : Instr := .sti g r a mode i
    (¬legal → keTrap c s g 0x01) ∧
      (legal → isSupv s k = false → keTrap c s g 0x07) ∧
      (legal → isSupv s k = true → adr % 4 ≠ 0 → keTrap c s g 0x04) ∧
      (legal → isSupv s k = true → adr % 4 = 0 → 0x1000000 ≤ adr → keTrap c s g 0x05) ∧
      (legal → isSupv s k = true → adr % 4 = 0 → adr < 0x1000000 → repProtected s adr = true →
        keTrap c s g 0x10) ∧
      (legal → isSupv s k = true → adr % 4 = 0 → adr < 0x1000000 → repProtected s adr = false →
        (th.posted.length < 8 → KeGives c s g fun t =>
          (gThr t k).r = q ∧ t.ram = s.ram ∧
            (gThr t k).posted = th.posted ++
              [{ pc := r0.pc, job := none, fault := none, sti := some (BitVec.ofNat 48 adr, rD r0 r) }] ∧
            (gThr t k).succ = wordIn s (k / 32) (r0.pc + 4).toNat ∧
            (∀ l ∈ tget [] (gIc t (k / 32)).sets (adr / 64 % 128), l.line = adr / 64 →
              tget 0 l.words (adr % 64 / 4) = rD r0 r) ∧
            t = { s with
              en := { s.en with thr := t.en.thr, eng := t.en.eng, ic := t.en.ic }, mg := { s.mg with log := t.mg.log } }) ∧
        (8 ≤ th.posted.length → KeGives c s g fun t =>
          (gThr t k).r = r0 ∧ (gThr t k).posted = th.posted ∧ (gThr t k).held.isSome = true ∧
            t = { s with
              en := { s.en with thr := t.en.thr, eng := t.en.eng, ic := t.en.ic }, mg := { s.mg with log := t.mg.log } }))

/-- R180, R181, R185, R202: MACX, CLMACX and BCRC read an X word below 0x20000 and a Y word in 0x20000–0x3FFFF of the own local memory,
accumulate the product or the carry-less product, and step both pointers. Misaligned pointers take fault 0x04, pointers outside
their banks or one register for both 0x03, an uncorrectable word 0x06; one in a hidden range of control space 0x07 first. BCRC does D[dn] such steps, one in the slot in which it
issues and one in each slot that follows: its first step faults as CLMACX does, or is kept in a working copy of the registers, or,
for D[dn] = 1, ends it; with D[dn] = 0 it changes nothing. -/
def Obligations.MultiplyMemoryWords : Prop :=
  ∀ (s : State) (g : Fin 2048) (ac : Fin 2) (ax ay : Fin 8) (xm ym sg : BitVec 2) (neg : Bool) (dn : Fin 16),
    canIssue s g.val = true →
    let k := thrKey s g.val
    let p := k / 32
    let r := regsOf s g
    let x := (rA r ax).toNat
    let y := (rA r ay).toNat
    let aligned : Prop := x % 4 = 0 ∧ y % 4 = 0
    let banks : Prop := ax ≠ ay ∧ x < 0x20000 ∧ 0x20000 ≤ y ∧ y < 0x40000
    let clean : Prop := badHit s.ram.lmBad (p * 0x40000 + x) 4 = false ∧ badHit s.ram.lmBad (p * 0x40000 + y) 4 = false
    let w4 (a : Nat) : W32 := BitVec.ofNat 32 (leNat (lmSeen s true (p * 0x40000 + a) (mread s.ram.lm (p * 0x40000 + a) 4)))
    let wx := w4 x
    let wy := w4 y
    let hidden (a : Nat) : Prop := 0x30000000 ≤ a ∧ a < 0x38000000 ∧ ctlHidden (a - 0x30000000) = true
    let priv : Prop := hidden x ∨ hidden y
    let val (sgn : Bool) (z : W32) : Int := if sgn then z.toInt else z.toNat
    let prod : Int := val (sg.getLsbD 1) wx * val (sg.getLsbD 0) wy
    let out (v : W80) : Regs :=
      { applyWrs r (.ac ac v :: (macStep r ax xm ++ macStep r ay ym)) with pc := r.pc + 4 }
    let n := (rD r dn).toNat
    let r1 := applyWrs r (.ac ac (rAc r ac ^^^ BitVec.ofNat 80 (clmul wx wy)) :: (macStep r ax xm ++ macStep r ay ym))
    let bcrc : Instr := .bcrc g ac ax ay xm ym dn
    let both (q : Instr → Prop) : Prop := q (.macx g ac ax ay xm ym sg neg) ∧ q (.clmacx g ac ax ay xm ym)
    (priv → both fun c => keTrap c s g 0x07) ∧ (¬priv → ¬aligned → both fun c => keTrap c s g 0x04) ∧
      (¬priv → aligned → ¬banks → both fun c => keTrap c s g 0x03) ∧
      (aligned → banks → ¬clean → both fun c => keTrap c s g 0x06) ∧
      (aligned → banks → clean →
        keWord (.macx g ac ax ay xm ym sg neg) s g
            (out (BitVec.ofInt 80 ((rAc r ac).toInt + if neg then -prod else prod))) ∧
          keWord (.clmacx g ac ax ay xm ym) s g (out (rAc r ac ^^^ BitVec.ofNat 80 (clmul wx wy)))) ∧
      (n = 0 → ax ≠ ay → keWord (.bcrc g ac ax ay xm ym dn) s g { r with pc := r.pc + 4 }) ∧
      (n = 0 → ax = ay → keTrap (.bcrc g ac ax ay xm ym dn) s g 0x03) ∧
      (n ≠ 0 → priv → keTrap bcrc s g 0x07) ∧ (n ≠ 0 → ¬priv → ¬aligned → keTrap bcrc s g 0x04) ∧
      (n ≠ 0 → ¬priv → aligned → ¬banks → keTrap bcrc s g 0x03) ∧ (n ≠ 0 → aligned → banks → ¬clean → keTrap bcrc s g 0x06) ∧
      (n = 1 → aligned → banks → clean → keWord bcrc s g { r with
        ac := tset 0 r.ac ac (rAc r1 ac), a := tset 0 (tset 0 r.a ax (rA r1 ax)) ay (rA r1 ay), pc := r.pc + 4 }) ∧
      (2 ≤ n → aligned → banks → clean → KeGives bcrc s g fun t => thrFrame s t k ∧ (gThr t k).r = r ∧
        (gThr t k).long = some { left := n - 1, writes := [], crc := some {
          ac := ac, ax := ax, ay := ay, xm := xm, ym := ym, r := r1 } })

/-- R136, R198–R201: PAIR. Two register operations read the registers as they stand before the word and write together; one
destination written by both takes fault 0x02, a shift amount above 31 fault 0x01. Each short operation paired with a no-operation has
the effect its table row gives it, and writes no flag but those of SCMP and the test bit. A short load or store without an address step reaches the own local
memory; SMACX and SCLMACX accumulate a word of each bank and step both pointers. -/
def Obligations.PairWords : Prop :=
  ∀ (s : State) (g : Fin 2048) (x y : ShortOp) (d m n : Fin 8) (a a' : Fin 4) (i : BitVec 7) (c : Fin 2) (mo sg : BitVec 2),
    canIssue s g.val = true →
    let k := thrKey s g.val
    let r := regsOf s g
    let next : Regs := { r with pc := r.pc + 4 }
    let one (o : ShortOp) (q : Regs) : Prop := keWord (.pair g o .snop) s g q
    let wd (v : W32) : Regs := { next with d := tset 0 r.d d v }
    let wa (v : W48) : Regs := { next with a := tset 0 r.a a v }
    let p := rD r m
    let q := rD r n
    let adr := (rA r a).toNat
    let base := k / 32 * 0x40000 + adr
    let clash : Prop := ∃ z ∈ shortDests r x, z ∈ shortDests r y
    let loads (o : ShortOp) (w : Nat) : Prop := adr < 0x40000 → adr % w = 0 → badHit s.ram.lmBad base w = false →
      one o (wd (BitVec.ofNat 32 (leNat (lmSeen s true base (mread s.ram.lm base w)))))
    let stores (o : ShortOp) (w : Nat) : Prop := adr < 0x40000 → adr % w = 0 → KeGives (.pair g o .snop) s g fun t =>
      wordDone s t k next ∧ t.ram.lm = mwrite s.ram.lm base (leBytes w (rD r d).toNat)
    let y0 := (rA r a').toNat
    let base' := k / 32 * 0x40000 + y0
    let w4 (b : Nat) : W32 := BitVec.ofNat 32 (leNat (lmSeen s true b (mread s.ram.lm b 4)))
    let wx := w4 base
    let wy := w4 base'
    let val (sgn : Bool) (z : W32) : Int := if sgn then z.toInt else z.toNat
    let mac (v : W80) : Regs := { applyWrs r (.ac c v :: (macStep r a mo ++ macStep r a' mo)) with pc := r.pc + 4 }
    (x.wellFormed = true → y.wellFormed = true → shortAddrs r x = [] → shortAddrs r y = [] → ¬clash →
        keWord (.pair g x y) s g { applyWrs r (shortWrites r x ++ shortWrites r y) with pc := r.pc + 4 }) ∧
      (x.wellFormed = true → y.wellFormed = true → clash → keTrap (.pair g x y) s g 0x02) ∧
      (¬(x.wellFormed = true ∧ y.wellFormed = true) → keTrap (.pair g x y) s g 0x01) ∧
      one .snop next ∧ one (.sadd d m n) (wd (p + q)) ∧ one (.ssub d m n) (wd (p - q)) ∧ one (.sand d m n) (wd (p &&& q)) ∧
      one (.sor d m n) (wd (p ||| q)) ∧ one (.sxor d m n) (wd (p ^^^ q)) ∧ one (.smov d m) (wd p) ∧
      one (.snot d m) (wd (~~~p)) ∧ one (.sneg d m) (wd (0 - p)) ∧ one (.sselt d m n) (wd (if r.fl.t then p else q)) ∧
      one (.scmp m n) { next with fl := { r.fl with
        z := decide (p = q), n := (p - q).msb, c := decide (p.toNat < q.toNat)
        v := decide (p.toInt - q.toInt < -(2 ^ 31) ∨ 2 ^ 31 ≤ p.toInt - q.toInt) } } ∧
      one (.steq m n) { next with fl := { r.fl with t := decide (p = q) } } ∧
      one (.stlt m n) { next with fl := { r.fl with t := decide (p.toInt < q.toInt) } } ∧
      one (.saddi d i) (wd (rD r d + i.signExtend 32)) ∧ one (.smovi d i) (wd (i.signExtend 32)) ∧
      (i.toNat < 32 → one (.sshli d i) (wd (rD r d <<< i.toNat)) ∧ one (.sshri d i) (wd (rD r d >>> i.toNat)) ∧
        one (.ssari d i) (wd ((rD r d).sshiftRight i.toNat))) ∧
      one (.saadd a m) (wa (rA r a + p.signExtend 48)) ∧ one (.saaddi a i) (wa (rA r a + i.signExtend 48)) ∧
      loads (.sldw d a 0) 4 ∧ loads (.sldhu d a 0) 2 ∧ loads (.sldbu d a 0) 1 ∧ stores (.sstw d a 0) 4 ∧
      stores (.ssth d a 0) 2 ∧ stores (.sstb d a 0) 1 ∧
      (a ≠ a' → adr % 4 = 0 → y0 % 4 = 0 → adr < 0x20000 → 0x20000 ≤ y0 → y0 < 0x40000 → badHit s.ram.lmBad base 4 = false →
        badHit s.ram.lmBad base' 4 = false →
        one (.smacx c a a' mo sg) (mac (BitVec.ofInt 80
            ((rAc r c).toInt + val (sg.getLsbD 1) wx * val (sg.getLsbD 0) wy))) ∧
          one (.sclmacx c a a' mo) (mac (rAc r c ^^^ BitVec.ofNat 80 (clmul wx wy))))

/-- R196, R202, R386: the atomic words CASW, CASD, ACQ, REL, LWATCH, LUNWATCH. An odd pair takes fault 0x01, a misaligned
address 0x04, an address outside external memory and the wings 0x05. Otherwise the thread is held by the operation with its
registers as they were: CASW, CASD and REL with posted accesses outstanding are not yet sent (number 0), every other is sent to
its unit under the next access number. -/
def Obligations.AtomicWords : Prop :=
  ∀ (s : State) (g : Fin 2048) (a : Fin 8) (d t : Fin 16), canIssue s g.val = true →
    let k := thrKey s g.val
    let r := regsOf s g
    let adr := rA r a
    let n := adr.toNat
    let far : Prop := 0x20000000 ≤ n ∧ n < 0x22000000 ∨ 0x4000000000 ≤ n ∧ n < 0x8000000000
    let even : Prop := d.val % 2 = 0 ∧ t.val % 2 = 0
    let form (c : Instr) (fn size dst : Nat) (x y : W64) (legal waits : Prop) : Prop :=
      (¬legal → keTrap c s g 0x01) ∧ (legal → n % size ≠ 0 → keTrap c s g 0x04) ∧
        (legal → n % size = 0 → ¬far → keTrap c s g 0x05) ∧
        (legal → n % size = 0 → far → (waits → KeGives c s g fun t =>
            thrFrame s t k ∧ (gThr t k).r = r ∧
              (gThr t k).held = some { op := .atom fn adr x y dst 0, writes := [] }) ∧
          (¬waits → KeGives c s g fun t =>
            (gThr t k).r = r ∧ (gThr t k).st = .run ∧ t.ms.nextJob ≠ s.ms.nextJob ∧
              (gThr t k).held = some { op := .atom fn adr x y dst s.ms.nextJob, writes := [] }))
    let dd (m : Nat) : W64 := BitVec.ofNat 64 (rD r m).toNat
    let pp (m : Nat) : W64 := BitVec.ofNat 64 ((rD r (m + 1)).toNat * 2 ^ 32 + (rD r m).toNat)
    let posted : Prop := (gThr s k).posted ≠ []
    form (.casw g a d t) 0 4 d (dd d) (dd t) True posted ∧ form (.casd g a d t) 1 8 d (pp d) (pp t) even posted ∧
      form (.acq g a d t) 2 8 d 0 (pp t) even False ∧ form (.rel g a) 3 8 0 0 0 True posted ∧
      form (.lwatch g a) 4 8 0 0 0 True False ∧ form (.lunwatch g a) 5 8 0 0 0 True False

/-- R194, R226, R229, R230: CHOPEN, CHW, CHCLOSE on the send side of the thread's endpoint `ce`. CHOPEN on an IDLE side opens a
route to a mapped endpoint and sends OPEN, or makes the side ABORTED with cause 3; a word or CLOSE goes out for a credit of an
OPEN side; where the side makes them wait they hold the thread, or with try clear T; in the wrong state they take fault 0x11;
on an ABORTED side they make it IDLE with fault 0x0B. With try, success sets T. -/
def Obligations.CallboardSendWords : Prop :=
  ∀ (s : State) (g : Fin 2048) (ce : Fin 4) (d : Fin 16) (tr : Bool), canIssue s g.val = true →
    let k := thrKey s g.val
    let r := regsOf s g
    let ep := g.val * 4 + ce.val
    let c := gCe s ep
    let next (b : Bool) : Regs := { r with pc := r.pc + 4, fl := { r.fl with t := if tr then b else r.fl.t } }
    let dst := (rD r d).toNat % 2 ^ 14
    let named : Prop := dst < 8192 ∧ isMapped s (dst / 128) = true
    let msg (kd : CbKind) (dst route : Nat) : CbMsg := { kind := kd, src := ep, dst := dst, route := route, ec := s.ec }
    let noRoom (i : Instr) (op : HeldOp) : Prop :=
      (tr = true → keWord i s g (next false)) ∧
        (tr = false → KeGives i s g fun t => thrFrame s t k ∧ (gThr t k).r = r ∧ (gThr t k).held = some { op := op, writes := [] })
    let broken (i : Instr) : Prop := KeGives i s g fun t =>
      (gThr t k).st = .faulted ∧ (gThr t k).fcode = 0x0B ∧ (gThr t k).r = r ∧ gCe t ep = { c with txst := .idle } ∧
        t.en.cb = s.en.cb ∧ ∀ e, e ≠ ep → gCe t e = gCe s e
    let opn : Instr := .chopen g ce d tr
    let chw : Instr := .chw g ce d tr
    let cls : Instr := .chclose g ce tr
    let sent (i : Instr) (w : CbWord) (st : TxSt) : Prop := KeGives i s g fun t =>
      wordDone s t k (next true) ∧ gCe t ep = { c with cred := c.cred - 1, txst := st } ∧
        cbFrame s t k ep [msg (.word w) c.txPeer c.route]
    (c.txst = .idle → named → KeGives opn s g fun t =>
        wordDone s t k (next true) ∧ cbFrame s t k ep [msg .opn dst (c.route + 1)] ∧
          gCe t ep = { c with txst := .opening, cred := 0, txPeer := dst, route := c.route + 1 }) ∧
      (c.txst = .idle → ¬named → KeGives opn s g fun t =>
        (gThr t k).r = next true ∧ (gThr t k).pend = setBit (gThr s k).pend 12 ∧
          gCe t ep = { c with txst := .aborted, cause := 3, cred := 0 } ∧ cbFrame s t k ep []) ∧
      (c.txst = .opening ∨ c.txst = .opn → keTrap opn s g 0x11) ∧ (c.txst = .closing → noRoom opn (.chopen ce dst tr)) ∧
      (c.txst = .opn → c.cred ≠ 0 → sent chw (.data (rD r d)) .opn ∧ sent cls .close .closing) ∧
      (c.txst = .opening ∨ c.txst = .opn ∧ c.cred = 0 → noRoom chw (.chw ce (rD r d) tr) ∧ noRoom cls (.chclose ce tr)) ∧
      (c.txst = .idle ∨ c.txst = .closing → keTrap chw s g 0x11 ∧ keTrap cls s g 0x11) ∧
      (c.txst = .aborted → broken opn ∧ broken chw ∧ broken cls)

/-- R194, R226, R229–R231: CHR and CHABORT. CHR takes the oldest word of its receive side into D[d], with its kind in D[d+1]: 1 OPEN
with the peer's address, 0 a word, 2 CLOSE, 3 a queued ABORT with its cause; an OPEN or a word returns a credit, CLOSE the news of
its removal, and CLOSE and ABORT free the side. With nothing there it holds the thread, or with try clears T. CHABORT drops both routes
of its endpoint and tells their far ends; it never waits. -/
def Obligations.CallboardReceiveWords : Prop :=
  ∀ (s : State) (g : Fin 2048) (ce : Fin 4) (d : Fin 16) (tr : Bool), canIssue s g.val = true →
    let k := thrKey s g.val
    let r := regsOf s g
    let ep := g.val * 4 + ce.val
    let c := gCe s ep
    let tt (b : Bool) : Flags := { r.fl with t := if tr then b else r.fl.t }
    let got (x kind : W32) : Regs :=
      { r with pc := r.pc + 4, fl := tt true, d := tset 0 (tset 0 r.d d x) (d + 1) kind }
    let chr : Instr := .chr g ce d tr
    let free : Ce := { c with rxBusy := false, rxBuf := [], rxAbt := none, stallLaps := 0, stallRep := false }
    let took (x kind : W32) (c' : Ce) (m : List CbMsg) : Prop := KeGives chr s g fun t =>
      wordDone s t k (got x kind) ∧ gCe t ep = c' ∧ cbFrame s t k ep m
    let msg (kd : CbKind) (dst route : Nat) : CbMsg := { kind := kd, src := ep, dst := dst, route := route, ec := s.ec }
    let back (kd : CbKind) : List CbMsg := [msg kd c.rxPeer c.rxRoute]
    let tx : Bool := decide (c.txst = .opening ∨ c.txst = .opn ∨ c.txst = .closing)
    (d.val % 2 = 1 → keTrap chr s g 0x01) ∧
      (d.val % 2 = 0 →
        (∀ a t, c.rxBuf = .opn a :: t → took (BitVec.ofNat 32 a) 1 { c with rxBuf := t } (back .credit)) ∧
        (∀ x t, c.rxBuf = .data x :: t → took x 0 { c with rxBuf := t } (back .credit)) ∧
        (∀ t, c.rxBuf = .close :: t → took 0 2 free (back .closeNews)) ∧
        (∀ x, c.rxBuf = [] → c.rxAbt = some x → took x 3 free []) ∧
        (c.rxBuf = [] → c.rxAbt = none → tr = true → keWord chr s g { r with pc := r.pc + 4, fl := tt false }) ∧
        (c.rxBuf = [] → c.rxAbt = none → tr = false → KeGives chr s g fun t =>
          thrFrame s t k ∧ (gThr t k).r = r ∧ (gThr t k).held = some { op := .chr ce d tr, writes := [] })) ∧
      KeGives (.chabort g ce tr) s g fun t =>
        wordDone s t k { r with pc := r.pc + 4, fl := tt true } ∧ (gCe t ep).txst = .idle ∧
          (c.rxBusy = true → (gCe t ep).rxBusy = false ∧ (gCe t ep).rxBuf = []) ∧
          cbFrame s t k ep ((if tx then [msg (.abortRx 1) c.txPeer c.route] else []) ++
            (if c.rxBusy then [msg (.abortTx 1) c.rxPeer c.rxRoute] else []))

/-- R166, R167, R195, R347, R348, R353: TAKE and RELEASE. TAKE on a queued packet is handed the oldest one and holds until its
response, with try or without; on an empty dispatch queue it joins the threads that wait, or with try clears T; r1 that is no multiple of 4 takes
fault 0x01. RELEASE is posted: the packet that the thread holds takes its disposition, and a handle that it does not hold, or a
disposition that breaks a rule, is reported on the posted access (0x0D, 0x13); a ninth posted access holds the thread. -/
def Obligations.PacketWords : Prop :=
  ∀ (s : State) (g : Fin 2048) (r1 r2 : Fin 16) (tr : Bool), canIssue s g.val = true →
    let k := thrKey s g.val
    let e := gEng s (k / 32)
    let r := regsOf s g
    let th := gThr s k
    let next : Regs := { r with pc := r.pc + 4 }
    let tk : Instr := .take g r1 tr
    let rl : Instr := .release g r1 r2
    let w := (rD r r2).toNat
    let len : Option W32 := if r2.val % 2 = 0 then some (rD r (r2 + 1)) else none
    let newLen : Option Nat := if w / 2 ^ 25 % 2 = 1 then len.map fun n => n.toNat % 2 ^ 17 else none
    let post (f : Option W8) : List Posted := th.posted ++ [{ pc := r.pc, job := none, fault := f, sti := none }]
    let enOnly (t : State) : Prop := (∀ j, j ≠ k → gThr t j = gThr s j) ∧ (∀ q, q ≠ k / 32 → gEng t q = gEng s q) ∧
      t = { s with en := { s.en with thr := t.en.thr, eng := t.en.eng, ic := t.en.ic }, mg := { s.mg with log := t.mg.log } }
    (r1.val % 4 ≠ 0 → keTrap tk s g 0x01) ∧
      (r1.val % 4 = 0 → tr = true → e.dq = [] → keWord tk s g { next with fl := { r.fl with t := false } }) ∧
      (r1.val % 4 = 0 → tr = false → e.dq = [] → e.takers = [] → KeGives tk s g fun t =>
        enOnly t ∧ (gThr t k).r = r ∧ (gThr t k).held = some { op := .take r1 tr none, writes := [] } ∧
          (gEng t (k / 32)).takers = [k % 32] ∧ (gEng t (k / 32)).dq = []) ∧
      (∀ p q, r1.val % 4 = 0 → e.dq = p :: q → e.takers = [] → KeGives tk s g fun t =>
        enOnly t ∧ (gThr t k).r = r ∧ (gThr t k).held = some { op := .take r1 tr (some p), writes := [] } ∧
          (gEng t (k / 32)).takers = [] ∧ (gEng t (k / 32)).dq = q) ∧
      (8 ≤ th.posted.length → KeGives rl s g fun t => thrFrame s t k ∧ (gThr t k).r = r ∧ (gThr t k).posted = th.posted ∧
        (gThr t k).held = some { op := .ninthRelease (rD r r1) (rD r r2) len, writes := [] }) ∧
      (th.posted.length < 8 → dispBad w len = true → KeGives rl s g fun t =>
        (gThr t k).r = next ∧ (gThr t k).posted = post (some 0x13) ∧ t.tr = s.tr) ∧
      (th.posted.length < 8 → dispBad w len = false →
        (∀ n p, heldEntry s g (rD r r1) = some (n, p) → dispBadFor s p w len = false → KeGives rl s g fun t =>
          (gThr t k).r = next ∧ (gThr t k).posted = post none ∧
            gWin t n = some { p with st := .released { word := rD r r2, newLen := newLen } } ∧
            (∀ m, m ≠ n → gWin t m = gWin s m) ∧ t.tr.box = s.tr.box) ∧
        (∀ n p, heldEntry s g (rD r r1) = some (n, p) → dispBadFor s p w len = true → KeGives rl s g fun t =>
          (gThr t k).r = next ∧ (gThr t k).posted = post (some 0x13) ∧ t.tr = s.tr) ∧
        (heldEntry s g (rD r r1) = none → KeGives rl s g fun t =>
          (gThr t k).r = next ∧ (gThr t k).posted = post (some 0x0D)))

/-- R192, R193, R271–R277: CUE, CAPRD and the two forms of TMR. CUE puts an action with its time into its pin's queue in time
order, after those of the same instant; a late cue and a full queue take faults 0x0F and 0x12 where their bank traps them,
else a full queue drops the cue; a paused bank drops it. CAPRD takes the oldest capture of its pin that can be
read yet. TMR reads the timers of the thread's own engine as the present ec found them, and writes them; a selector above 9 takes fault 0x01. -/
def Obligations.PinAndTimerWords : Prop :=
  ∀ (s : State) (g : Fin 2048) (a b c : Fin 16) (act : BitVec 4) (n : Fin 4) (sel : BitVec 4), canIssue s g.val = true →
    let k := thrKey s g.val
    let r := regsOf s g
    let next : Regs := { r with pc := r.pc + 4 }
    let pin := (rD r b).toNat % 256
    let bank := gBank s (pin / 8)
    let p := gPin s pin
    let q : Cue := { t := BitVec.ofNat 64 ((rD r (a + 1)).toNat * 2 ^ 32 + (rD r a).toNat), min := tbAt s 1, act := act, ec := s.ec }
    let late : Prop := bank.lateTrap = true ∧ q.t.toNat < (tbAt s 1).toNat
    let full : Prop := 16 ≤ p.cueQ.length
    let cue : Instr := .cue g a b act
    let rd : Instr := .caprd g a b c
    let legal : Prop := a.val % 2 = 0 ∧ c ≠ a ∧ c.val ≠ a.val + 1
    let tm := gTmr0 s (k / 32) n.val
    let tr : Instr := .tmrRead g a n sel
    let tw : Instr := .tmrWrite g a n sel
    let pinOnly (t : State) (f : Pin) : Prop := (gThr t k).r = next ∧ gPin t pin = f ∧ ∀ j, j ≠ pin → gPin t j = gPin s j
    (a.val % 2 = 1 ∨ 8 ≤ act.toNat → keTrap cue s g 0x01) ∧
      (a.val % 2 = 0 → act.toNat < 8 →
        (bank.paused = true → KeGives cue s g fun t => pinOnly t { p with cueDrop := satInc p.cueDrop }) ∧
        (bank.paused = false → late → keTrap cue s g 0x0F) ∧
        (bank.paused = false → ¬late → full → bank.fullTrap = true → keTrap cue s g 0x12) ∧
        (bank.paused = false → ¬late → full → bank.fullTrap = false → KeGives cue s g fun t =>
          pinOnly t { p with full := true, cueDrop := satInc p.cueDrop }) ∧
        (bank.paused = false → ¬late → ¬full → KeGives cue s g fun t => pinOnly t { p with cueQ := insCue q p.cueQ })) ∧
      (¬legal → keTrap rd s g 0x01) ∧
      (legal → capSeen s pin = [] → keWord rd s g { next with fl := { r.fl with t := false } }) ∧
      (∀ x rest, legal → capSeen s pin = x :: rest → KeGives rd s g fun t =>
        gPin t pin = { p with capQ := p.capQ.drop 1 } ∧ (∀ j, j ≠ pin → gPin t j = gPin s j) ∧
          (gThr t k).r = { next with
            fl := { r.fl with t := true }
            d := tset 0 (tset 0 (tset 0 r.d a (BitVec.ofNat 32 x.t.toNat)) (a + 1) (BitVec.ofNat 32 (x.t.toNat / 2 ^ 32))) c
              (BitVec.ofNat 32 (x.edge.toNat + 4 * b2n x.gap)) }) ∧
      (10 ≤ sel.toNat → keTrap tr s g 0x01 ∧ keTrap tw s g 0x01) ∧
      (sel.toNat = 0 → keWord tr s g { next with d := tset 0 r.d a tm.cfg }) ∧
      (sel.toNat = 1 → keWord tr s g { next with d := tset 0 r.d a (BitVec.ofNat 32 (b2n tm.en)) }) ∧
      (sel.toNat = 9 → keWord tr s g { next with d := tset 0 r.d a (BitVec.ofNat 32 tm.capPin.toNat) }) ∧
      (∀ x s', tmrGet (issued s k) (k / 32) n.val sel.toNat (tmrReader g.val) = some (x, s') → KeGives tr s g fun t =>
        (gThr t k).r = { next with d := tset 0 r.d a x } ∧ t.en.eng = s'.en.eng) ∧
      (sel.toNat = 9 → KeGives tw s g fun t =>
        (gThr t k).r = next ∧ (gTmr t (k / 32) n.val).capPin = BitVec.ofNat 8 (rD r a).toNat) ∧
      (sel.toNat < 10 → KeGives tw s g fun t => (gThr t k).r = next ∧
        ∃ s', tmrPut (issued s k) (k / 32) n.val sel.toNat true (rD r a) = some s' ∧ t.en.eng = s'.en.eng)

/-! ### Words of the pin sequencers (spec/08) -/

/-- R285, R287, R288, R290–R292, R298: KP's control words. A branch target counts from the branch; CALL and CALLV push the address
of the next word on a stack of four entries, where a fifth traps with cause 0x02; RET pops, with cause 0x03 on an empty stack;
END stops the sequencer with DONE, TRAP keeps its argument and traps with cause 0x04. KP's register words, on 16-bit values:
additions and subtractions write Z and C (the carry or the borrow), logic writes Z and clears C, shifts write Z and the last bit
out; moves write neither. A shift amount or bit number above 15 traps with cause 0x01. LD and ST reach the data memory at V[s]
modulo 512. -/
def Obligations.SequencerControlRegisterWords : Prop :=
  (∀ (s : State) (b : Fin 32) (i : W8) (v : Fin 8), sqIssues s b.val = true →
      let x := gSq s b.val
      let rel : BitVec 12 := x.pc + i.signExtend 12
      let goTo (pc : BitVec 12) : Sq := { x with pc := pc }
      let iff' (p : Bool) : Sq := goTo (if p then rel else x.pc + 1)
      let calls (c : Instr) (dst : BitVec 12) : Prop :=
        (x.stack.length < 4 → kpDone c s b { x with stack := (x.pc + 1) :: x.stack, pc := dst }) ∧
          (4 ≤ x.stack.length → kpTrapped c s b x 0x02)
      kpDone (.kpNop b) s b (goTo (x.pc + 1)) ∧
        (KpGives (.kpEnd b) s b fun t => bankFrame s t b.val ∧ gBank t b.val = { gBank s b.val with sq := { x with
          st := .stopped, done := true, stepping := false, bpPass := false, lastPc := some (s.ec / 2) } }) ∧
        kpTrapped (.kpTrap b i) s b { x with targ := i } 0x04 ∧
        kpDone (.kpBr b i) s b (goTo rel) ∧ calls (.kpCall b i) rel ∧
        calls (.kpCallv b v) (BitVec.ofNat 12 (kv x v).toNat) ∧ kpDone (.kpJv b v) s b (goTo (BitVec.ofNat 12 (kv x v).toNat)) ∧
        (x.stack = [] → kpTrapped (.kpRet b) s b x 0x03) ∧
        (∀ a t, x.stack = a :: t → kpDone (.kpRet b) s b { x with pc := a, stack := t }) ∧
        kpDone (.kpBz b i) s b (iff' x.z) ∧ kpDone (.kpBnz b i) s b (iff' !x.z) ∧ kpDone (.kpBc b i) s b (iff' x.c) ∧
        kpDone (.kpBnc b i) s b (iff' !x.c) ∧ kpDone (.kpBt b i) s b (iff' x.t) ∧ kpDone (.kpBf b i) s b (iff' !x.t) ∧
        kpDone (.kpDjnz b i) s b { x with lc := x.lc - 1, pc := if x.lc - 1 ≠ 0 then rel else x.pc + 1 }) ∧
    ∀ (s : State) (b : Fin 32) (d v : Fin 8) (i : W8) (j : BitVec 5), sqIssues s b.val = true →
      let x := gSq s b.val
      let p := kv x d
      let q := kv x v
      let n := j.toNat
      let m : W16 := j.signExtend 16
      let next : Sq := { x with pc := x.pc + 1 }
      let mv (w : W16) : Sq := { next with v := tset 0 x.v d w }
      let mv0 (w : W16) : Sq := { next with v := tset 0 x.v 0 w }
      let was (n : Nat) : W16 := match tget none x.dmEc n with
        | some y => y
        | none => tget 0 x.dm n
      let zc (w : W16) (c : Bool) : Sq := { mv w with z := decide (w = 0), c := c }
      kpDone (.kpMov b d v) s b (mv q) ∧ kpDone (.kpAdd b d v) s b (zc (p + q) (decide (2 ^ 16 ≤ p.toNat + q.toNat))) ∧
        kpDone (.kpSub b d v) s b (zc (p - q) (decide (p.toNat < q.toNat))) ∧
        kpDone (.kpAnd b d v) s b (zc (p &&& q) false) ∧ kpDone (.kpOr b d v) s b (zc (p ||| q) false) ∧
        kpDone (.kpXor b d v) s b (zc (p ^^^ q) false) ∧ kpDone (.kpNot b d v) s b (zc (~~~q) false) ∧
        kpDone (.kpCmp b d v) s b { next with z := decide (p = q), c := decide (p.toNat < q.toNat) } ∧
        kpDone (.kpAddi b d j) s b (zc (p + m) (decide (2 ^ 16 ≤ p.toNat + m.toNat))) ∧
        kpDone (.kpLdi b d j) s b (mv m) ∧ kpDone (.kpLdb0 b i) s b (mv0 (BitVec.ofNat 16 i.toNat)) ∧
        kpDone (.kpLdh0 b i) s b (mv0 (BitVec.ofNat 16 (i.toNat * 256 + (kv x 0).toNat % 256))) ∧
        (n < 16 → kpDone (.kpShl b d j) s b (zc (p <<< n) (decide (0 < n) && p.getLsbD (16 - n))) ∧
          kpDone (.kpShr b d j) s b (zc (p >>> n) (decide (0 < n) && p.getLsbD (n - 1))) ∧
          kpDone (.kpTbv b d j) s b { next with t := p.getLsbD n }) ∧
        (16 ≤ n → kpTrapped (.kpShl b d j) s b x 0x01 ∧ kpTrapped (.kpShr b d j) s b x 0x01 ∧
          kpTrapped (.kpTbv b d j) s b x 0x01) ∧
        kpDone (.kpRlt b d) s b (zc (BitVec.ofNat 16 (p.toNat * 2 + b2n x.t)) (p.getLsbD 15)) ∧
        kpDone (.kpLd b d v) s b (mv (was (q.toNat % 512))) ∧
        kpDone (.kpSt b d v) s b { next with
          dm := tset 0 x.dm (q.toNat % 512) p, stEc := (q.toNat % 512) :: x.stEc } ∧
        kpDone (.kpLdlc b i) s b { next with lc := BitVec.ofNat 16 i.toNat } ∧
        kpDone (.kpTolc b v) s b { next with lc := q } ∧ kpDone (.kpFrlc b d) s b (mv x.lc)

/-- R24, R276, R277, R283, R291, R294–R296: the epoch, the pin image, captures, mailboxes and cues. EPNOW takes the timebase of the present pc;
a cue carries EP and fires no earlier than the next pc, a mark carries that instant; CUEC drives by C, CUEIMG acts on every pin
whose mask bit in V[s] is set; CAPR takes the oldest capture of a pin into CR and T; CRD is the distance from EP to it,
clamped to 16 bits with C set where it was clamped. MBR reads a mailbox
and empties it, before a write to the word in the same ec; MBW writes one and records an overwrite. Cues of the sequencer reach
their queues in the second ec of the pc. -/
def Obligations.SequencerPinWords : Prop :=
  ∀ (s : State) (b : Fin 32) (d v j act : Fin 8) (i : W8) (k : Fin 4) (drive : Bool), sqIssues s b.val = true →
    let x := gSq s b.val
    let next : Sq := { x with pc := x.pc + 1 }
    let mv (w : W16) : Sq := { next with v := tset 0 x.v d w }
    let pin := 8 * b.val + j.val
    let level (n : Nat) : Bool := (gPin s (8 * b.val + n)).sync
    let diff : Int := (x.crT.toNat : Int) - x.ep.toNat
    let near : W16 := BitVec.ofInt 16 (max 0 (min diff 0xFFFF))
    let m := (gBank s b.val).mbx
    let cue (n : Nat) (a : BitVec 4) : DueCue := sqCue s b n x.ep a
    let img (n : Nat) : BitVec 4 := BitVec.ofNat 4 (b2n ((kv x v).getLsbD n) + if drive then 5 else 0)
    kpDone (.kpEpnow b) s b { next with ep := tbPc s } ∧
      kpDone (.kpEpadd b v) s b { next with ep := x.ep + BitVec.ofNat 64 (kv x v).toNat } ∧
      kpDone (.kpEpaddi b i) s b { next with ep := x.ep + BitVec.ofNat 64 (16 * i.toNat) } ∧
      kpDone (.kpEpcr b) s b { next with ep := x.crT } ∧
      (∃ w : W16, kpDone (.kpInp b d) s b (mv w) ∧ ∀ n, w.getLsbD n = (decide (n < 8) && level n)) ∧
      kpDone (.kpTpin b j) s b { next with t := level j.val } ∧
      kpDone (.kpCrd b d) s b { mv near with z := decide (near = 0), c := decide (diff < 0 ∨ 0xFFFF < diff) } ∧
      kpDone (.kpCre b d) s b (mv (BitVec.ofNat 16 x.crE.toNat)) ∧
      kpCues (.kpCue b j act) s b next [cue j.val (BitVec.ofNat 4 act.val)] ∧
      kpCues (.kpCuec b j) s b next [cue j.val (if x.c then 6 else 5)] ∧
      kpCues (.kpMarknow b j) s b next [sqCue s b j.val (tbPcNext s) 7] ∧
      kpCues (.kpCueimg b v drive) s b next
        (((List.range 8).filter fun n => (kv x v).getLsbD (8 + n)).map fun n => cue n (img n)) ∧
      (capSeen s pin = [] → kpDone (.kpCapr b j) s b { next with t := false }) ∧
      (∀ c rest, capSeen s pin = c :: rest → KpGives (.kpCapr b j) s b fun t =>
        t = { s with pin := t.pin, bank := t.bank } ∧ (∀ n, n ≠ b.val → gBank t n = gBank s n) ∧
          gBank t b.val = { gBank s b.val with sq := sqAfter s { next with
            t := true, crT := c.t, crE := BitVec.ofNat 3 (c.edge.toNat + 4 * b2n c.gap) } } ∧
          gPin t pin = { gPin s pin with capQ := (gPin s pin).capQ.drop 1 } ∧ ∀ n, n ≠ pin → gPin t n = gPin s n) ∧
      (tget none m.inEc k.val = none → kpBank (.kpMbr b d k) s b
        { gBank s b.val with mbx := { m with inFull := clrBit m.inFull k.val } }
        { next with v := tset 0 x.v d (tget 0 m.mbin k.val), t := m.inFull.getLsbD k.val }) ∧
      (∀ old full ovw, tget none m.inEc k.val = some (old, full, ovw) → kpBank (.kpMbr b d k) s b
        { gBank s b.val with mbx := { m with inOvw := if ovw then m.inOvw else clrBit m.inOvw k.val } }
        { next with v := tset 0 x.v d old, t := full }) ∧
      kpBank (.kpMbw b d k) s b
        { gBank s b.val with mbx := { m with
          mbout := tset 0 m.mbout k.val (kv x d), outFull := setBit m.outFull k.val, outEc := setBit m.outEc k.val
          outOvw := if m.outFull.getLsbD k.val then setBit m.outOvw k.val else m.outOvw } } next

/-- R284, R285, R293, R297: the waits and the streams. Every wait takes its pc; at the start of each pc that follows, KP_WAIT_END
lets the next word issue if the condition holds. WAITEP on an epoch that has passed sets LATE. PUSH and PULL move a word to or from
an enabled ring's FIFO, wait where it is full or empty, and trap with cause 0x05 where the ring is not enabled, also when it is
disabled while they wait. -/
def Obligations.SequencerWaitWords : Prop :=
  ∀ (s : State) (b : Fin 32) (v j : Fin 8) (k : Fin 4) (i : W8),
    let x := gSq s b.val
    let bk := gBank s b.val
    let ok : Prop := sqIssues s b.val = true
    let w := kv x v
    let stay (c : Instr) (wt : SqWait) : Prop := ok → KpGives c s b fun t => bankFrame s t b.val ∧
      gBank t b.val = { bk with sq := { x with wait := some wt, bpPass := false, lastPc := some (s.ec / 2) } }
    let due : Prop := live s = true ∧ (x.st = .run ∨ x.st = .wait) ∧ s.ec % 2 = 0 ∧ x.lastPc ≠ some (s.ec / 2)
    let go (wt : SqWait) (p : Prop) : Prop := due → x.wait = some wt → p → Gives (.kpWaitEnd b) s fun t =>
      bankFrame s t b.val ∧
        gBank t b.val = { bk with sq := sqStepEnd { x with pc := x.pc + 1, st := .run, wait := none, bpPass := false } }
    let trap (p : Prop) : Prop := due → p → Gives (.kpWaitEnd b) s fun t =>
      (gSq t b.val).st = .trapped ∧ (gSq t b.val).tcause = 0x05 ∧ (gSq t b.val).pc = x.pc ∧ (gSq t b.val).wait = none ∧
        ∀ n, n ≠ b.val → gBank t n = gBank s n
    stay (.kpWaitn b i) (.count i.toNat) ∧ stay (.kpWaitv b v) (.count w.toNat) ∧ stay (.kpWcap b j) (.cap j.val) ∧
      stay (.kpWmb b k) (.mb k.val) ∧ stay (.kpWroom b j) (.room j.val) ∧
      (ok → KpGives (.kpWaitep b) s b fun t => bankFrame s t b.val ∧ gBank t b.val = { bk with sq := { x with
        late := x.late || decide (x.ep.toNat < (tbPc s).toNat), wait := some .ep, bpPass := false
        lastPc := some (s.ec / 2) } }) ∧
      (ok → bk.sout.en = false → kpTrapped (.kpPush b v) s b x 0x05) ∧
      (bk.sout.en = true → 64 ≤ bk.sout.fifo.length → stay (.kpPush b v) (.push w)) ∧
      (ok → bk.sout.en = true → bk.sout.fifo.length < 64 → KpGives (.kpPush b v) s b fun t => bankFrame s t b.val ∧
        (gBank t b.val).sout.fifo = bk.sout.fifo ++ [w] ∧ gSq t b.val = sqAfter s { x with pc := x.pc + 1 }) ∧
      (ok → bk.sin.en = false → kpTrapped (.kpPull b v) s b x 0x05) ∧
      (bk.sin.en = true → bk.sin.fifo = [] → stay (.kpPull b v) (.pull v.val)) ∧
      (∀ y rest, ok → bk.sin.en = true → bk.sin.fifo = y :: rest → KpGives (.kpPull b v) s b fun t => bankFrame s t b.val ∧
        (gBank t b.val).sin.fifo = rest ∧ gSq t b.val = sqAfter s { x with v := tset 0 x.v v y, pc := x.pc + 1 }) ∧
      go (.count 0) True ∧ go .ep (x.ep.toNat ≤ (tbPc s).toNat) ∧
      go (.cap j.val) (capSeen s (8 * b.val + j.val) ≠ []) ∧ go (.mb k.val) (bk.mbx.inFull.getLsbD k.val = true) ∧
      go (.room j.val) ((gPin s (8 * b.val + j.val)).cueQ.length < 16) ∧
      (∀ y, due → x.wait = some (.push y) → bk.sout.en = true → bk.sout.fifo.length < 64 →
        Gives (.kpWaitEnd b) s fun t => bankFrame s t b.val ∧ (gBank t b.val).sout.fifo = bk.sout.fifo ++ [y] ∧
          (gSq t b.val).pc = x.pc + 1) ∧
      (∀ y rest, due → x.wait = some (.pull v.val) → bk.sin.en = true → bk.sin.fifo = y :: rest →
        Gives (.kpWaitEnd b) s fun t => bankFrame s t b.val ∧ (gBank t b.val).sin.fifo = rest ∧ kv (gSq t b.val) v = y ∧
          (gSq t b.val).pc = x.pc + 1) ∧
      (∀ y, trap (x.wait = some (.push y) ∧ bk.sout.en = false)) ∧ trap (x.wait = some (.pull v.val) ∧ bk.sin.en = false) ∧
      ∀ w, x.wait = some w → sqHolds s b.val w = false → keeps (.kpWaitEnd b) s

/-- R285–R287, R296–R298: the register commands of a sequencer and its stream rings. START runs a sequencer that is STOPPED or TRAPPED from
its entry with an empty stack, from the pc after the present one; STOP asks one in RUN or WAIT to stop, which it does at the next pc
boundary; program memory is written only while it is STOPPED or TRAPPED, else
PMWERR is set; a word of the data memory that the program has
written in the same ec remains; a mailbox write fills the words whose bytes are enabled and records an overwrite; a word that is illegal or fails
parity traps; a ring whose indices are further apart than its size enters error. -/
def Obligations.SequencerCommands : Prop :=
  ∀ (s : State) (b : Fin 32) (w : BitVec 12) (n : BitVec 9) (data : W16) (be : W8) (md : W64) (ans : MemAns),
    up s = true →
    let x := gSq s b.val
    let bk := gBank s b.val
    let gives (c : Instr) (y : Bank) : Prop := Gives c s fun t => bankFrame s t b.val ∧ gBank t b.val = y
    let traps (c : Instr) (cause : W8) : Prop := Gives c s fun t =>
      (gSq t b.val).st = .trapped ∧ (gSq t b.val).tcause = cause ∧ (gSq t b.val).pc = x.pc ∧
        (∀ n, n ≠ b.val → gBank t n = gBank s n) ∧ t.mg.log = (logEv s 0x6303 [b.val, x.pc.toNat, cause.toNat]).mg.log ∧
        t = { s with bank := t.bank, mg := { s.mg with log := t.mg.log } }
    let idle : Prop := x.st = .stopped ∨ x.st = .trapped
    let busy : Prop := x.st = .run ∨ x.st = .wait
    (idle → gives (.seqStart b) { bk with sq := { x with
        st := .run, wait := none, pc := x.entry, stack := [], tcause := 0, stepping := false, bpPass := false
        lastPc := some (s.ec / 2) } }) ∧
      (¬idle → gives (.seqStart b) bk) ∧
      (busy → gives (.seqStop b) { bk with sq := { x with req := x.req ++ [.stop] } }) ∧
      (∀ t : State, (gSq t b.val).st = .run ∨ (gSq t b.val).st = .wait → gSq (sqBoundary t b.val .stop) b.val =
        { gSq t b.val with st := .stopped, wait := none, stepping := false, bpPass := false }) ∧
      (¬busy → gives (.seqStop b) bk) ∧
      (idle → gives (.programMemoryWrite b w data)
        { bk with sq := { x with pm := tset 0 x.pm w.toNat (BitVec.ofNat 14 data.toNat) } }) ∧
      (¬idle → gives (.programMemoryWrite b w data) { bk with sq := { x with pmwErr := true } }) ∧
      (n.toNat ∈ x.stEc → gives (.dmWrite b n data) bk) ∧
      (n.toNat ∉ x.stEc → Gives (.dmWrite b n data) s fun t => bankFrame s t b.val ∧
        gSq t b.val = { x with dm := tset 0 x.dm n.toNat data, dmEc := (gSq t b.val).dmEc } ∧
          tget none (gSq t b.val).dmEc n.toNat =
            if (tget none x.dmEc n.toNat).isSome then tget none x.dmEc n.toNat else some (tget 0 x.dm n.toNat)) ∧
      (Gives (.seqMbinWrite b be md) s fun t => bankFrame s t b.val ∧ gSq t b.val = x ∧ ∀ k, k < 4 →
        let hit : Bool := be.getLsbD (2 * k) || be.getLsbD (2 * k + 1)
        let m := (gBank t b.val).mbx
        m.inFull.getLsbD k = (bk.mbx.inFull.getLsbD k || hit) ∧
          m.inOvw.getLsbD k = (bk.mbx.inOvw.getLsbD k || (hit && bk.mbx.inFull.getLsbD k)) ∧
          (be.getLsbD (2 * k) = true → be.getLsbD (2 * k + 1) = true →
            tget 0 m.mbin k = BitVec.ofNat 16 (md.toNat / 2 ^ (16 * k))) ∧
          (hit = false → tget 0 m.mbin k = tget 0 bk.mbx.mbin k)) ∧
      (sqIssues s b.val = true → traps (.seqTrap b .parity) 0x06) ∧
      (sqIssues s b.val = true → kpDecode b (kpWord x) = .seqTrap b .illegalWord → traps (.seqTrap b .illegalWord) 0x01) ∧
      (live s = true → bk.sin.en = true → strWords bk.sin < strUsed bk.sin → Gives (.streamInFetch b ans) s fun t =>
        (gBank t b.val).sin.en = false ∧ (gSq t b.val).strErr = true) ∧
      (live s = true → bk.sin.en = true → 1 ≤ strUsed bk.sin → strUsed bk.sin ≤ strWords bk.sin → bk.sin.fifo.length < 64 →
        ∀ off, bk.sin.base.toNat = 0x20000000 + off → off + 2 * strWords bk.sin ≤ 0x2000000 → s.ram.wingsBad = [] →
        (gAu s 8).lines = [] → Gives (.streamInFetch b ans) s fun t => ∃ m, 1 ≤ m ∧
          (gBank t b.val).sin.rd = bk.sin.rd + BitVec.ofNat 32 m ∧
          ((gBank t b.val).sin.fifo.length = bk.sin.fifo.length + m) ∧ (gBank t b.val).sin.fifo[bk.sin.fifo.length]? =
            some (BitVec.ofNat 16 (leNat (mread s.ram.wings (off + 2 * (bk.sin.rd.toNat % strWords bk.sin)) 2)))) ∧
      (live s = true → bk.sout.en = true → 32 ≤ bk.sout.fifo.length → strWords bk.sout < strUsed bk.sout →
        Gives (.streamOutFlush b ans) s fun t => (gBank t b.val).sout.en = false ∧ (gSq t b.val).strErr = true) ∧
      (live s = true → bk.sout.en = true → 32 ≤ bk.sout.fifo.length → strUsed bk.sout < strWords bk.sout →
        ∀ off, bk.sout.base.toNat = 0x20000000 + off → off + 2 * strWords bk.sout ≤ 0x2000000 →
        Gives (.streamOutFlush b ans) s fun t => ∃ m, 1 ≤ m ∧ m ≤ bk.sout.fifo.length ∧
          (gBank t b.val).sout.wr = bk.sout.wr + BitVec.ofNat 32 m ∧ (gBank t b.val).sout.fifo = bk.sout.fifo.drop m ∧
          t.ram.wings = mwrite s.ram.wings (off + 2 * (bk.sout.wr.toNat % strWords bk.sout))
            (bytes16 (bk.sout.fifo.take m)))

/-! ### Engines: bill, fetch, accesses, events (spec/04 to spec/06) -/

/-- R13, R22, R118, R122, R123, R146, R203, R205, R207, R213, R216–R220, R223, R498: COMMIT schedules the switch for position 0 of the next lap, or in
the ec of position 63 for that of the lap after; one already scheduled stands. At its position 0 the switch copies the shadow
bill and modes as the ec found them, and a COMMIT of the same ec stays for the next lap; unless one thread is named at two adjacent positions, 63 and 0 among them (reason 1, which comes first), or T0
owns none (reason 2): then it changes no live position and logs 0x6010. The lowest pending
source that is enabled, or with INH at 1 that the wait names, is recognized. Event entry of the source recognized in the ec before
goes to THR_VBASE + 16 × source and saves the PC to return to
(after the wait where the source is one the wait names), the flags and the STI copy, and keeps the
thread from issuing for 3 ec; with INH at 1 it only ends the wait. WAITT
ends when the timebase reaches THR_WAKE; the watchdog takes fault 0x0E at position 0; RESTART frees a FAULTED thread, which
first takes a fault that is pending, or halts before its first word where a halt was requested; THR_EV takes its fields. -/
def Obligations.BillAndThreadCommands : Prop :=
  (∀ (s : State) (e : Fin 64), engUp s e.val = true →
      let p := physOf s e.val
      let x := gEng s p
      let lap := s.ec / 64
      let was := x.shdWas.getD (x.shd, x.mode)
      let adjacent : Prop := ∃ n t, n < 64 ∧ posThread was.1 n = some t ∧ posThread was.1 ((n + 1) % 64) = some t
      let noT0 : Prop := ∀ n, n < 64 → posThread was.1 n ≠ some 0
      let again : Option Nat := if x.commitEc then some (lap + 1) else none
      let due : Prop := s.ec % 64 = 0 ∧ ∃ l, x.commit = some l ∧ l ≤ lap
      let gives (c : Instr) (y : Eng) (ev : Option (W16 × List Nat)) : Prop :=
        Gives c s fun t => engOnly s t p ∧ gEng t p = y ∧ logAs s t ev
      let refused (why : BitVec 2) : Prop :=
        gives (.billSwitch e) { x with commit := again, reject := true, rejWhy := why } (some (0x6010, [e.val, why.toNat]))
      (x.commit = none → s.ec % 64 ≤ 62 → gives (.commit e) { x with commit := some (lap + 1), commitEc := true } none) ∧
        (x.commit = none → s.ec % 64 = 63 → gives (.commit e) { x with commit := some (lap + 2), commitEc := true } none) ∧
        (∀ l, x.commit = some l → gives (.commit e) { x with commitEc := true } none) ∧
        (due → adjacent → refused 1) ∧ (due → ¬adjacent → noT0 → refused 2) ∧
        (due → ¬adjacent → ¬noT0 →
          gives (.billSwitch e) { x with live := was.1, modeLive := was.2, commit := again } none) ∧
        (¬due → keeps (.billSwitch e) s)) ∧
    ∀ (s : State) (g : Fin 2048) (bit : Nat) (who : Requester) (drop : Bool) (d : W64), thrUp s g.val = true →
      let k := thrKey s g.val
      let th := gThr s k
      let r := th.r
      let ee : Instr := .eventEntry g
      let vec := th.vbase + BitVec.ofNat 48 (16 * bit)
      let named : Prop := (waitMask th).getLsbD bit = true
      let runs : Prop := th.st = .run ∨ th.st = .wait
      let woken (c : Instr) : Prop := Gives c s fun t => thrOnly s t k ∧ (gThr t k).st = .run ∧ (gThr t k).waitK = none ∧
        (gThr t k).r = { r with pc := r.pc + 4 } ∧ (gThr t k).pend = th.pend
      let src := pendNow s k &&& (if th.save.isSome then waitMask th else th.evEn ||| waitMask th)
      let free (who : Requester) : Prop := mayRestart s who g.val = true ∧ th.st = .faulted
      (th.st = .run ∨ th.st = .wait ∧ th.curtain = false → bit < 16 → src.getLsbD bit = true →
          (∀ n, n < bit → src.getLsbD n = false) → recognized s k = some bit) ∧
        (th.entering = none → keeps ee s) ∧
        (th.entering = some bit → runs → th.save = none → th.dbg.stepping = false → Gives ee s fun t =>
          (gThr t k).st = .run ∧ (gThr t k).waitK = none ∧ (gThr t k).held = none ∧ (gThr t k).park = none ∧
            (gThr t k).owe = 0 ∧ (gThr t k).long = none ∧ (gThr t k).entering = none ∧ (gThr t k).readyAt = s.ec + 3 ∧
            (gThr t k).entryEnd = s.ec + 3 ∧ (gThr t k).r = { r with pc := vec } ∧ (gThr t k).succ = none ∧
            (named → (gThr t k).save = some { pc := r.pc + 4, fl := r.fl, succ := th.succ }) ∧
            (¬named → (gThr t k).save = some { pc := r.pc, fl := r.fl, succ := th.succ }) ∧
            ∀ i, i < 16 → (gThr t k).pend.getLsbD i = (th.pend.getLsbD i && decide (i ≠ bit))) ∧
        (th.entering = some bit → runs → th.save ≠ none → th.dbg.stepping = false → woken ee ∧ Gives ee s fun t =>
          (gThr t k).entering = none ∧ (gThr t k).readyAt = s.ec + 3 ∧ (gThr t k).save = th.save) ∧
        (th.st = .wait → th.waitK = some .waitt → r.wake.toNat ≤ s.tb.now.toNat → th.dbg.stepping = false →
          woken (.threadWake g) ∧ Gives (.threadWake g) s fun t => (gThr t k).ownFirst = true) ∧
        (s.tb.now.toNat < r.wake.toNat → keeps (.threadWake g) s) ∧
        (s.ec % 64 = 0 → th.st = .run → th.wdLimit ≠ 0 → th.wdLimit.toNat ≤ th.wdCount.toNat →
          Gives (.threadWatchdog g) s fun t => faultedAt s t k 0x0E r.pc ∧
            (gEng t (k / 32)).fltmap = setBit (gEng s (k / 32)).fltmap (k % 32)) ∧
        (th.wdLimit = 0 ∨ th.wdCount.toNat < th.wdLimit.toNat → keeps (.threadWatchdog g) s) ∧
        (free who → th.pendFault = none → th.dbg.pending = false → Gives (.restart who g drop) s fun t => thrOnly s t k ∧
          gThr t k = { th with
            st := if th.curtain then .wait else .run, waitK := if th.curtain then some .curtain else none, fcode := 0
            wdCount := 0, save := if drop then none else th.save }) ∧
        (free who → th.pendFault = none → th.dbg.pending = true → Gives (.restart who g drop) s fun t =>
          (gThr t k).st = .halt ∧ (gThr t k).dbg.halted = true ∧ (gThr t k).dbg.pending = false ∧
            (gThr t k).dbg.reason = 1 ∧ (gThr t k).r = r ∧ (gThr t k).fcode = 0) ∧
        (∀ code pc, free who → th.pendFault = some (code, pc) → Gives (.restart who g drop) s fun t =>
          (gThr t k).st = .faulted ∧ (gThr t k).fcode = code ∧ (gThr t k).r.pc = pc ∧ (gThr t k).pendFault = none) ∧
        (¬free who → keeps (.restart who g drop) s) ∧
        (mayWritePage s who = true → Gives (.thrEvWrite who g d) s fun t => thrOnly s t k ∧
          gThr t k = { th with
            evEn := BitVec.ofNat 16 d.toNat, evPin := BitVec.ofNat 8 (d.toNat / 2 ^ 32), evDma := BitVec.ofNat 6 (d.toNat / 2 ^ 40) }) ∧
        (mayWritePage s who = false → keeps (.thrEvWrite who g d) s)

/-- R138–R143, R152, R160, R161, R202: the fetch unit, for a thread that it checks in this ec (`missDue`). The thread's next word, or
the successor of an STI, may not be fetched or is not present: outside the instruction space it is fault 0x05; at a FIXED thread
an unpinned line is 0x0A, present or not; a way that holds the line with an uncorrectable error is invalidated, logged with 0x6021
and gives 0x06, and a pinned line is fetched again; otherwise the thread parks: it shares the line's fill, or one that waits,
starts one, or with four in flight waits for a unit. With both words there nothing changes. A fill that ends makes the line present
and its threads ready from the next ec, or gives each of them its fault; one from the repertory store takes 24 ec. An STI's word
reaches the repertory store and every way of every cache array that holds its line. -/
def Obligations.FetchCommands : Prop :=
  (∀ (s : State) (g : Fin 2048) (a : Nat), engRuns s g.val = true → missDue s (thrKey s g.val) = true →
    let c : Instr := .fetchMiss g
    let k := thrKey s g.val
    let p := k / 32
    let x := gThr s k
    let l := a / 64
    let fills := (gIc s p).fills
    let wt := (gIc s p).fillWait
    let pc := x.r.pc.toNat
    let after := (x.r.pc + 4).toNat
    let fixed : Prop := isFixed (gEng s p) (k % 32) = true
    let pinned (b : Nat) : Prop := linePinned s p (b / 64) = true
    let lacks (b : Nat) : Prop := fetchable b = false ∨ (fixed ∧ ¬pinned b) ∨ wordIn s p b = none
    let sti : Prop := ∃ w, nextWord s k = some w ∧ w.toNat / 2 ^ 25 = 0x1D
    let own : Prop := x.succ = none ∧ lacks pc
    let miss : Prop := own ∧ a = pc ∨ ¬own ∧ sti ∧ lacks after ∧ a = after
    let faults (code : W8) : Prop := Gives c s fun t => (gThr t k).st = .faulted ∧ (gThr t k).fcode = code ∧ (gThr t k).r = x.r ∧
      (gEng t p).fltmap = setBit (gEng s p).fltmap (k % 32)
    let legal : Prop := miss ∧ fetchable a = true ∧ ¬(fixed ∧ ¬pinned a)
    let good : Prop := legal ∧ badLine s p l = none
    let parks (fs : List Fill) (w : List FillReq) : Prop := Gives c s fun t =>
      gThr t k = { x with park := some l, loaded := [] } ∧ (∀ j, j ≠ k → gThr t j = gThr s j) ∧
        (gIc t p).fills = fs ∧ (gIc t p).fillWait = w ∧ (gIc t p).sets = (gIc s p).sets
    let fresh (j : Option Nat) (due : Nat) : List Fill :=
      fills ++ [{ line := l, waiters := [k % 32], pin := false, job := j, due := due }]
    let flying : Prop := ∃ f, f ∈ fills ∧ f.line = l
    let waits : Prop := ∃ f, f ∈ wt ∧ f.line = l
    (miss → fetchable a = false → faults 0x05) ∧ (miss → fetchable a = true → fixed → ¬pinned a → faults 0x0A) ∧
      (∀ y, legal → badLine s p l = some y → faults 0x06 ∧ Gives c s fun t =>
        (∀ z, z ∈ tget [] (gIc t p).sets (l % 128) → z.line ≠ l) ∧
          (y.pinned = true → (∃ f, f ∈ (gIc t p).fills ∧ f.line = l ∧ f.pin = true) ∨
            ∃ f, f ∈ (gIc t p).fillWait ∧ f.line = l ∧ f.pin = true)) ∧
      (good → flying →
        parks (fills.map fun f => if f.line = l then { f with waiters := f.waiters ++ [k % 32] } else f) wt) ∧
      (good → ¬flying → waits →
        parks fills (wt.map fun f => if f.line = l then { f with waiters := f.waiters ++ [k % 32] } else f)) ∧
      (good → ¬flying → ¬waits → 4 ≤ fills.length → parks fills
        (wt ++ [{ line := l, waiters := [k % 32], pin := false, src := srcId 1 (gOf s k) }])) ∧
      (good → ¬flying → ¬waits → fills.length < 4 → l * 64 < 0x1000000 → parks (fresh none (s.ec + 24)) wt) ∧
      (good → ¬flying → ¬waits → fills.length < 4 → 0x1000000 ≤ l * 64 → parks (fresh (some s.ms.nextJob) 0) wt) ∧
      (¬own → ¬(sti ∧ lacks after) → keeps c s)) ∧
  (∀ (s : State) (g : Fin 2048), engRuns s g.val = false ∨ missDue s (thrKey s g.val) = false → keeps (.fetchMiss g) s) ∧
  (∀ (s : State) (p : Fin 68) (line : W48) (f : Fill), up s = true → peOn s p.val = true →
    (gIc s p.val).fills.find? (fun f => decide (f.line = line.toNat)) = some f →
    let c : Instr := .fillDone p line
    let l := line.toNat
    let a := l * 64
    let ways := tget [] (gIc s p.val).sets (l % 128)
    let room : Prop := (∃ x, x ∈ ways ∧ (x.line = l ∨ x.pinned = false)) ∨ freeWay ways ≠ none
    let bad : Prop := ∃ w, w ∈ s.ram.repBad ∧ a ≤ w * 8 ∧ w * 8 < a + 64
    let woken (t : State) : Prop := ∀ w, w ∈ f.waiters → (gThr s (p.val * 32 + w)).park = some l →
      (gThr t (p.val * 32 + w)).park = none ∧ (gThr t (p.val * 32 + w)).readyAt = s.ec + 1 ∧
        (gThr t (p.val * 32 + w)).r = (gThr s (p.val * 32 + w)).r
    let wakes : Prop := Gives c s fun t => (room → (lineIn t p.val l).isSome = true) ∧ woken t
    let fails (code : W8) : Prop := Gives c s fun t => ∀ w, w ∈ f.waiters → (gThr s (p.val * 32 + w)).park = some l →
      (gThr t (p.val * 32 + w)).st = .faulted ∧ (gThr t (p.val * 32 + w)).fcode = code
    let store : Prop := f.job = none ∧ f.due ≤ s.ec
    (f.job = none → s.ec < f.due → keeps c s) ∧ (store → ¬bad → wakes) ∧
      (store → ¬bad → room → lineIn s p.val l = none → Gives c s fun t => ∀ i, i < 16 →
        wordIn t p.val (a + 4 * i) = some (BitVec.ofNat 32 (leNat (mread s.ram.rep (a + 4 * i) 4)))) ∧
      (store → bad → fails 0x06) ∧
      ∀ j, f.job = some j → (jobDone s j = false → keeps c s) ∧ (jobDone s j = true → worst (jobAns s j) = .okay → wakes) ∧
        (jobDone s j = true → worst (jobAns s j) = .dataErr → fails 0x06) ∧
        (jobDone s j = true → worst (jobAns s j) = .decErr ∨ worst (jobAns s j) = .timeout → fails 0x05)) ∧
  ∀ (s : State) (g : Fin 2048) (old new : List Posted) (x : Posted) (a : W48) (w : W32), thrUp s g.val = true →
    let k := thrKey s g.val
    (gThr s k).posted = old ++ { x with sti := some (a, w) } :: new → (∀ y, y ∈ old → y.sti = none) →
      Gives (.stiCacheUpdate g) s fun t =>
        mread t.ram.rep a.toNat 4 = leBytes 4 w.toNat ∧ t.ram.lm = s.ram.lm ∧ t.ram.wings = s.ram.wings ∧
          (∀ b, b < a.toNat ∨ a.toNat + 4 ≤ b → mget t.ram.rep b = mget s.ram.rep b) ∧
          (gThr t k).posted = old ++ { x with sti := none } :: new ∧
          ∀ q l, l ∈ tget [] (gIc t q).sets (a.toNat / 64 % 128) → l.line = a.toNat / 64 →
            tget 0 l.words (a.toNat % 64 / 4) = w

/-- R48, R164, R166, R178, R196, R347, R391: the response of a held access writes the destinations and the address steps of its word together,
and the next word follows; an uncorrectable word is fault 0x06, an engine whose power is off or a memory timeout 0x05, and the
fault of an atomic is its own; TAKE makes the thread the packet's holder; control-space accesses of one engine complete in the
order of issue; a callboard function completes once it no longer waits. -/
def Obligations.HeldAccessResponses : Prop :=
  ∀ (s : State) (g : Fin 2048) (wr : List RWr), engUp s (g.val / 32) = true →
    let c : Instr := .heldAccessResponse g
    let k := thrKey s g.val
    let r := (gThr s k).r
    let held (op : HeldOp) : Prop := (gThr s k).held = some { op := op, writes := wr }
    let goes (t : State) (ws : List RWr) : Prop :=
      (gThr t k).r = { applyWrs r (wr ++ ws) with pc := r.pc + 4 } ∧ (gThr t k).held = none
    let done (ws : List RWr) : Prop := Gives c s fun t => goes t ws
    let bad (code : W8) : Prop := Gives c s fun t => faultedAt s t k code r.pc
    let tset' (tr : Bool) : List RWr := if tr then [.t true] else []
    let sent (ep : Nat) (tr : Bool) (w : CbWord) (st : TxSt) : Prop := Gives c s fun t =>
      goes t (tset' tr) ∧ (∀ e, e ≠ ep → gCe t e = gCe s e) ∧ gCe t ep = { gCe s ep with cred := (gCe s ep).cred - 1, txst := st } ∧
        t.en.cb.fly = s.en.cb.fly ++ [{ kind := .word w, src := ep, dst := (gCe s ep).txPeer, route := (gCe s ep).route, ec := s.ec }]
    (∀ a n dst p off, held (.load a n dst) → spaceOf a.toNat = .mesh p off →
        let at' := p * 0x40000 + off
        (peOn s p = true → badHit s.ram.lmBad at' n = false →
          Gives c s fun t => thrOnly s t k ∧ goes t (loadWrites dst n (lmSeen s false at' (mread s.ram.lm at' n)))) ∧
          (peOn s p = true → badHit s.ram.lmBad at' n = true → bad 0x06) ∧ (peOn s p = false → bad 0x05)) ∧
      (∀ a n dst off, held (.load a n dst) → spaceOf a.toNat = .wings off →
        (∀ bs, wingsRead s off n = some bs → Gives c s fun t => thrOnly s t k ∧ goes t (loadWrites dst n bs)) ∧
          (wingsRead s off n = none → bad 0x06)) ∧
      (∀ j a n dst, held (.loadExt j a n dst) →
        (jobDone s j = false → keeps c s) ∧
          (jobDone s j = true → worst (jobAns s j) = .okay → done (loadWrites dst n (jobData (jobAns s j)))) ∧
          (jobDone s j = true → worst (jobAns s j) = .dataErr → bad 0x06) ∧
          (jobDone s j = true → worst (jobAns s j) = .decErr ∨ worst (jobAns s j) = .timeout → bad 0x05)) ∧
      (∀ off n dst x, held (.ctlLoad off n dst none) → ctlTurn s k = true → isAperture (off / 8 * 8) = false →
        regRead s g (off / 8 * 8) (ctlBe off n) = (x, s) →
        Gives c s fun t => thrOnly s t k ∧ goes t (loadWrites dst n (ctlBytes off n (BitVec.ofNat 64 x)))) ∧
      (∀ off n dst, held (.ctlLoad off n dst none) → ctlTurn s k = false → keeps c s) ∧
      (∀ off n data, held (.ctlStore off n data) → ctlTurn s k = false → keeps c s) ∧
      (∀ off n data s1, held (.ctlStore off n data) → ctlTurn s k = true → gThr s1 k = gThr s k →
        let w := anyWrite s (.thread g) (off / 8 * 8) (ctlBe off n) (if off % 8 = 4 then data <<< 32 else data)
        (w = (s1, none) → done []) ∧ ∀ code, w = (s1, some code) → bad code) ∧
      (∀ fn a x y d j ans, held (.atom fn a x y d j) → s.mv.auFin.find? (fun a => decide (a.job = j)) = some ans →
        (ans.fault = none → done (atomWrites fn d ans)) ∧ ∀ code, ans.fault = some code → bad code) ∧
      (∀ r1 tr w x, held (.take r1 tr (some w)) → gWin s w = some x → Gives c s fun t =>
        gWin t w = some { x with st := .held g.val } ∧ goes t (takeWrites x r1)) ∧
      (∀ ce data tr, held (.chw ce data tr) → (gCe s (g.val * 4 + ce)).txst = .opn → (gCe s (g.val * 4 + ce)).cred ≠ 0 →
        sent (g.val * 4 + ce) tr (.data data) .opn) ∧
      (∀ ce tr, held (.chclose ce tr) → (gCe s (g.val * 4 + ce)).txst = .opn → (gCe s (g.val * 4 + ce)).cred ≠ 0 →
        sent (g.val * 4 + ce) tr .close .closing) ∧
      (∀ ce d tr x rest, held (.chr ce d tr) → (gCe s (g.val * 4 + ce)).rxBuf = .data x :: rest →
        Gives c s fun t => goes t ([.d d x, .d (d + 1) 0] ++ tset' tr) ∧ (gCe t (g.val * 4 + ce)).rxBuf = rest) ∧
      ((gThr s k).held = none → keeps c s)

/-- R151, R167, R203, R498: the acknowledgement of a posted access takes it from those outstanding; when the last has come, a held
FENCE ends. A fault that it brings is taken with the PC of the word that made the access, in RUN and in WAIT; in HALT and in
FAULTED it stays pending. -/
def Obligations.PostedAccessResponses : Prop :=
  ∀ (s : State) (g : Fin 2048) (i : Nat) (x : Posted), engUp s (g.val / 32) = true →
    let c : Instr := .postedAccessResponse g i
    let k := thrKey s g.val
    let th := gThr s k
    let rest := th.posted.eraseIdx i
    th.posted[i]? = some x →
    let runs : Prop := th.st = .run ∨ th.st = .wait
    let fails (ok : Prop) (code : W8) : Prop :=
      (ok → runs → Gives c s fun t => (gThr t k).st = .faulted ∧ (gThr t k).fcode = code ∧ (gThr t k).r = { th.r with pc := x.pc }) ∧
        (ok → ¬runs → th.pendFault = none → Gives c s fun t =>
          gThr t k = { th with posted := rest, pendFault := some (code, x.pc) })
    (x.job = none → x.sti = none → x.fault = none → th.held = none → Gives c s fun t =>
        thrOnly s t k ∧ gThr t k = { th with posted := rest }) ∧
      (∀ wr, x.job = none → x.sti = none → x.fault = none → th.held = some { op := .fence, writes := wr } →
        (rest ≠ [] → Gives c s fun t => thrOnly s t k ∧ gThr t k = { th with posted := rest }) ∧
          (rest = [] → Gives c s fun t => thrOnly s t k ∧ (gThr t k).held = none ∧ (gThr t k).posted = [] ∧
            (gThr t k).r = { applyWrs th.r wr with pc := th.r.pc + 4 })) ∧
      (x.job = none → x.sti ≠ none → keeps c s) ∧
      (∀ code, fails (x.job = none ∧ x.sti = none ∧ x.fault = some code) code) ∧
      ∀ j, x.job = some j →
        (jobDone s j = false → keeps c s) ∧
          (jobDone s j = true → worst (jobAns s j) = .okay → th.held = none → Gives c s fun t =>
            gThr t k = { th with posted := rest } ∧ t.ram = s.ram) ∧
          fails (jobDone s j = true ∧ worst (jobAns s j) = .dataErr) 0x06 ∧
          fails (jobDone s j = true ∧ (worst (jobAns s j) = .decErr ∨ worst (jobAns s j) = .timeout)) 0x05

/-- R203, R238, R239, R476–R479: a requested halt takes effect at once at a message boundary, with NODEFER, with LIMIT at 0 or where
the thread owns no position, and otherwise stays pending, as it does during event entry; when LIMIT of its positions have passed it is forced, with reason 2 and
event 0x6104. A halt keeps the registers, the PC at the oldest abandoned word. RESUME and STEP leave it, and an address breakpoint
stops the thread in the slot in which its word is fetched, before the word, with reason 3. -/
def Obligations.ThreadDebugCommands : Prop :=
  ∀ (s : State) (g : Fin 2048), engUp s (g.val / 32) = true →
    let k := thrKey s g.val
    let th := gThr s k
    let d := th.dbg
    let e := gEng s (k / 32)
    let entry : Prop := th.entering ≠ none ∨ s.ec < th.entryEnd
    let soon : Prop := ¬entry ∧
      (atBoundary s g.val = true ∨ e.noDefer = true ∨ e.haltLimit = 0 ∨ ownsPos e (k % 32) = false)
    let runs : Prop := th.st = .run ∨ th.st = .wait
    let open' : Prop := scopeOn s 0 = true
    let forced : Prop := ¬entry ∧ e.haltLimit.toNat ≤ d.deferred
    let halts (c : Instr) (why : BitVec 3) : Prop := Gives c s fun t =>
      (gThr t k).st = .halt ∧ (gThr t k).dbg.halted = true ∧ (gThr t k).dbg.pending = false ∧ (gThr t k).dbg.reason = why ∧
        (gThr t k).r = th.r ∧ (gThr t k).held = none ∧ logAs s t (if why = 2 then some (0x6104, [g.val]) else none)
    let goes (c : Instr) (step : Bool) : Prop :=
      (¬open' ∨ d.halted = false → keeps c s) ∧
        (open' → d.halted = true → th.pendFault = none → Gives c s fun t => thrOnly s t k ∧
          gThr t k = { th with
            st := if th.curtain then .wait else .run, waitK := if th.curtain then some .curtain else none
            dbg := { d with halted := false, stepping := step, bpPass := decide (d.reason = 3), reason := 0 } }) ∧
        ∀ code pc, open' → d.halted = true → th.pendFault = some (code, pc) → Gives c s fun t =>
          (gThr t k).st = .faulted ∧ (gThr t k).fcode = code ∧ (gThr t k).r.pc = pc
    let hit : Prop := d.bpPass = false ∧ ∃ n, n < 4 ∧
      let b := gBp s (g.val / 32 * 4 + n)
      b.en = true ∧ b.addr = th.r.pc ∧ (b.any = true ∨ b.thread.toNat = g.val % 32)
    (¬open' ∨ d.halted = true → keeps (.debugHalt g) s) ∧
      (open' → d.halted = false → runs → soon → halts (.debugHalt g) 1) ∧
      (open' → d.halted = false → ¬(runs ∧ soon) → Gives (.debugHalt g) s fun t => thrOnly s t k ∧
        gThr t k = { th with dbg := { d with pending := true, deferred := if d.pending then d.deferred else 0 } }) ∧
      (d.pending = true → runs → soon → halts (.debugHaltEffect g) 1) ∧
      (d.pending = false ∨ ¬soon → keeps (.debugHaltEffect g) s) ∧
      (d.pending = true → runs → ¬soon → forced → halts (.forcedHalt g) 2) ∧
      (d.pending = false ∨ soon ∨ ¬forced → keeps (.forcedHalt g) s) ∧
      goes (.debugResume g) false ∧ goes (.debugStep g) true ∧
      (fetches s g.val = true → hit → Gives (.addressBreakpoint g) s fun t =>
        gThr t k = { th with st := .halt, ownFirst := false, dbg := { d with
          halted := true, pending := false, deferred := 0, reason := 3, stepping := false } } ∧
          (∀ j, j ≠ k → gThr t j = gThr s j) ∧ (gEng t (k / 32)).slot = some (k % 32) ∧
          (∀ q, q ≠ k / 32 → gEng t q = gEng s q) ∧
          t = { s with en := { s.en with thr := t.en.thr, eng := t.en.eng } }) ∧
      (fetches s g.val = false ∨ ¬hit → keeps (.addressBreakpoint g) s)

/-- R284, R467–R470, R476, R481: UNLOCK with the lock BUSY or within 1 s of a failure fails with reason 6, with the stage manager not serving
with reason 7, and otherwise is taken up; its end opens the lock with the token's SCOPE and slot, or fails with the token's reason,
and gives a new challenge. RELOCK closes the lock, resumes what a debug halt holds, and clears every breakpoint and every deferred
halt. HALT asks a sequencer in RUN or WAIT to halt, which it does at the next pc boundary; RESUME and STEP let a halted one go on from
the next pc; its breakpoint halts it before the word. -/
def Obligations.DebugLockCommands : Prop :=
  (∀ (s : State) (chal : W64), up s = true →
    let l := s.mg.lock
    let failed (y : DbgLock) (why : W8) : DbgLock :=
      { y with lastFail := why, fails := satInc l.fails, failTb := some s.tb.now }
    let gives (c : Instr) (why : W8) : Prop := Gives c s fun t =>
      logAs s t (some (0x8011, [why.toNat])) ∧ t.mg.lock = failed { l with chal := t.mg.lock.chal, busy := t.mg.lock.busy } why
    let near : Prop := ∃ tb, l.failTb = some tb ∧ (s.tb.now - tb).toNat < 40000000000
    (l.busy = true → gives .unlock 6 ∧ Gives .unlock s fun t => t.mg.lock.busy = true ∧ t.mg.lock.chal = l.chal) ∧
      (l.busy = false → s.tb.running = true → near → gives .unlock 6 ∧ Gives .unlock s fun t =>
        t.mg.lock.busy = false ∧ t.mg.lock.chal = l.chal) ∧
      (l.busy = false → s.tb.running = true → ¬near → s.mg.sm.alive = false → gives .unlock 7) ∧
      (l.busy = false → s.tb.running = true → ¬near → s.mg.sm.alive = true → Gives .unlock s fun t =>
        t = { s with mg := { s.mg with lock := { l with busy := true } } }) ∧
      (l.busy = false → keeps (.unlockDone chal) s) ∧
      (l.busy = true → tokRefused s = 0 → Gives (.unlockDone chal) s fun t =>
        t.mg.lock = { l with
          busy := false, unlocked := true, scope := BitVec.ofNat 3 (tok s 17 1), keySlot := BitVec.ofNat 2 (tok s 16 1)
          chal := chal } ∧ logAs s t (some (0x8010, [tok s 16 1]))) ∧
      (l.busy = true → tokRefused s ≠ 0 → gives (.unlockDone chal) (tokRefused s) ∧ Gives (.unlockDone chal) s fun t =>
        t.mg.lock.busy = false ∧ t.mg.lock.chal = chal ∧ t.mg.lock.unlocked = l.unlocked) ∧
      Gives .relock s fun t => t.mg.lock = { l with unlocked := false, scope := 0, keySlot := 0 } ∧
        (∀ i, (gBp t i).en = false) ∧ (∀ b, b < 32 → (gSq t b).st ≠ .halt ∨ (gSq s b).kept = .halt) ∧
        (∀ b, b < 32 → (gSq t b).bpEn = false ∧ (gSq t b).stepping = false ∧ .halt ∉ (gSq t b).req) ∧
        ∀ g, g < 2048 → isMapped s (g / 32) = true →
          (gThr t (thrKey s g)).dbg.halted = false ∧ (gThr t (thrKey s g)).dbg.pending = false ∧
            (gThr t (thrKey s g)).dbg.stepping = false) ∧
  ∀ (s : State) (b : Fin 32), up s = true →
    let x := gSq s b.val
    let runs : Prop := x.st = .run ∨ x.st = .wait
    let open' : Prop := scopeOn s 0 = true
    let gives (c : Instr) (y : Sq) : Prop := Gives c s fun t =>
      bankFrame s t b.val ∧ gBank t b.val = { gBank s b.val with sq := y }
    let late : Bool := x.late || decide (x.kept = .wait ∧ x.wait = some .ep ∧ x.ep.toNat < (tbPc s).toNat)
    let goes (c : Instr) (step : Bool) : Prop :=
      (open' → x.st = .halt → gives c { x with
        st := x.kept, late := late, stepping := step, bpPass := true, lastPc := some (s.ec / 2) }) ∧
        (open' → x.st ≠ .halt → gives c x) ∧ (¬open' → keeps c s)
    (open' → runs → gives (.seqDebugHalt b) { x with req := x.req ++ [.halt] }) ∧
      (∀ t : State, (gSq t b.val).st = .run ∨ (gSq t b.val).st = .wait → gSq (sqBoundary t b.val .halt) b.val =
        { gSq t b.val with st := .halt, kept := (gSq t b.val).st, stepping := false }) ∧
      (open' → ¬runs → gives (.seqDebugHalt b) x) ∧ (¬open' → keeps (.seqDebugHalt b) s) ∧
      goes (.seqDebugResume b) false ∧ goes (.seqDebugStep b) true ∧
      (live s = true → x.st = .run → x.wait = none → s.ec % 2 = 0 → x.lastPc ≠ some (s.ec / 2) → x.bpEn = true → x.bpAddr = x.pc → x.bpPass = false →
        gives (.seqBreakpoint b) { x with st := .halt, kept := .run, stepping := false }) ∧
      (x.bpEn = false ∨ x.bpAddr ≠ x.pc ∨ x.bpPass = true ∨ x.lastPc = some (s.ec / 2) → keeps (.seqBreakpoint b) s)

/-! ### Callboard (spec/06 R225–R245) -/

/-- R227–R231: what arrives at an endpoint. OPEN is granted to a FREE receive side that nothing waits for, whose buffer then holds the
OPEN word, and else joins the waiting set; the next sender in ascending order with wrap-around is granted when the side is free.
A grant makes an OPENING side OPEN with 7 credits, a credit adds one, and both the first credit and the grant raise CREDIT; a word
joins the buffer, but behind a queued ABORT it is discarded; the news of the CLOSE makes a CLOSING side IDLE; an abort queues an ABORT word behind the words, or makes the
send side ABORTED with its cause. Of a route that has ended nothing arrives, and nothing sooner than the
L of R228 after it was sent. -/
def Obligations.CallboardArrivals : Prop :=
  (∀ (s : State) (ep : Fin 8192), (∀ x, x ∈ s.en.cb.fly → x.dst = ep.val → cbDue s x = false) →
      keeps (.cbOpenArrive ep) s ∧ keeps (.cbGrantArrive ep) s ∧ keeps (.cbWordArrive ep) s ∧ keeps (.cbCreditArrive ep) s ∧
        keeps (.cbCloseNews ep) s ∧ keeps (.cbAbortArrive ep) s) ∧
  ∀ (s : State) (ep : Fin 8192) (m : CbMsg) (rest : List CbMsg), up s = true → s.en.cb.fly = m :: rest → m.dst = ep.val →
    cbMust s m = true ∨ cbDue s m = true ∧ (∀ x, x ∈ rest → x.dst = ep.val → cbMust s x = false) →
    let c := gCe s ep.val
    let gives (i : Instr) (y : Ce) (fly : List CbMsg) : Prop := Gives i s fun t =>
      gCe t ep.val = y ∧ (∀ e, e ≠ ep.val → gCe t e = gCe s e) ∧ t.en.cb = { s.en.cb with fly := fly } ∧ t.mg = s.mg
    let tx : Prop := c.route = m.route ∧ c.txPeer = m.src
    let rx : Prop := c.rxBusy = true ∧ c.rxRoute = m.route ∧ c.rxPeer = m.src
    let granted (src route : Nat) (w : List (Nat × Nat)) : Ce := { c with
      rxBusy := true, rxBuf := [.opn src], rxAbt := none, rxPeer := src, rxRoute := route, lastGrant := src, waiting := w
      stallLaps := 0, stallRep := false }
    let grant (src route : Nat) : CbMsg := { kind := .grant, src := ep.val, dst := src, route := route, ec := s.ec }
    let credit (i : Instr) : Prop := Gives i s fun t => isMapped s (ep.val / 128) = true →
      (gThr t (thrKey s (ep.val / 4))).pend.getLsbD 12 = true
    let open' : Instr := .cbOpenArrive ep
    let grnt : Instr := .cbGrantArrive ep
    let word : Instr := .cbWordArrive ep
    let cred : Instr := .cbCreditArrive ep
    let news : Instr := .cbCloseNews ep
    let abt : Instr := .cbAbortArrive ep
    let toRx (x : W32) : Prop := m.kind = .abortRx x
    let toTx (x : BitVec 3) : Prop := m.kind = .abortTx x
    let ended : Prop := c.rxAbt ≠ none ∨ c.rxBuf.contains .close = true
    let sends : Prop := c.txst = .opening ∨ c.txst = .opn ∨ c.txst = .closing
    (m.kind = .opn → c.rxBusy = false → c.waiting = [] →
        gives open' (granted m.src m.route []) (rest ++ [grant m.src m.route])) ∧
      (m.kind = .opn → c.rxBusy = true ∨ c.waiting ≠ [] →
        gives open' { c with waiting := c.waiting ++ [(m.src, m.route)] } rest) ∧
      (m.kind = .grant → tx → c.txst = .opening → gives grnt { c with txst := .opn, cred := 7 } rest ∧ credit grnt) ∧
      (m.kind = .grant → ¬(tx ∧ c.txst = .opening) → gives grnt c rest) ∧
      (∀ w, m.kind = .word w →
        (rx → c.rxAbt = none → gives word { c with rxBuf := c.rxBuf ++ [w], stallLaps := 0, stallRep := false } rest) ∧
        (¬rx ∨ c.rxAbt ≠ none → gives word c rest)) ∧
      (m.kind = .credit → tx → c.txst = .opn → gives cred { c with cred := c.cred + 1 } rest ∧ (c.cred = 0 → credit cred)) ∧
      (m.kind = .credit → ¬(tx ∧ c.txst = .opn) → gives cred c rest) ∧
      (m.kind = .closeNews → tx → c.txst = .closing → gives news { c with txst := .idle } rest) ∧
      (m.kind = .closeNews → ¬(tx ∧ c.txst = .closing) → gives news c rest) ∧
      (∀ x, toRx x → rx → (¬ended → gives abt { c with rxAbt := some x } rest) ∧ (ended → gives abt c rest)) ∧
      (∀ x, toRx x → ¬rx → gives abt { c with waiting := c.waiting.filter fun w => decide (w ≠ (m.src, m.route)) } rest) ∧
      (∀ x, toTx x → tx → sends → gives abt { c with txst := .aborted, cause := x, cred := 0 } rest ∧ credit abt) ∧
      (∀ x, toTx x → ¬(tx ∧ sends) → gives abt c rest) ∧
      (∀ src route, c.rxBusy = false → (∀ w, w ∈ c.waiting → w.1 < 8192) → (src, route) ∈ c.waiting → (∀ w, w ∈ c.waiting → w = (src, route) ∨
          (c.lastGrant < src ∧ (w.1 ≤ c.lastGrant ∨ src < w.1)) ∨ (src ≤ c.lastGrant ∧ w.1 ≤ c.lastGrant ∧ src < w.1)) →
        gives (.cbNextGrant ep) (granted src route (c.waiting.filter fun w => decide (w ≠ (src, route))))
          (m :: rest ++ [grant src route])) ∧
      (c.rxBusy = true ∨ c.waiting = [] → keeps (.cbNextGrant ep) s)

/-- R224, R233, R236, R242–R245: CE_CTL.ABORT and ABORT_TX by a requester that may write the page end the incoming and the outgoing
route, tell the far end, and log 0x6103; without such a route, or without the right, they change nothing. A receive side BUSY
with nothing to give for its limit of laps is reported once: STALL, bit 0 of ENG_NOTICE, event 0x6102. A standstill evaluation
every 256 ec (in which of them, is the model's choice, log 20) keeps the sets it finds, numbers the new ones, and CB_SS_MAP holds
exactly the threads of all. -/
def Obligations.CallboardAborts : Prop :=
  (∀ (s : State) (ep : Fin 8192) (who : Requester), up s = true →
    let c := gCe s ep.val
    let named : Prop := isMapped s (ep.val / 128) = true
    let may : Prop := mayWritePage s who = true
    let sends : Prop := c.txst = .opening ∨ c.txst = .opn ∨ c.txst = .closing
    let fly := s.en.cb.fly
    let w := readerOf who
    let gives (i : Instr) (y : Ce) (x : CbMsg) (ev : List Nat) : Prop := Gives i s fun t =>
      gCe t ep.val = y ∧ (∀ e, e ≠ ep.val → gCe t e = gCe s e) ∧ t.en.cb.fly = fly ++ [x] ∧ logAs s t (some (0x6103, ev))
    let starved : Prop := c.rxBusy = true ∧ c.rxBuf = [] ∧ c.rxAbt = none ∧ c.stallRep = false
    let due : Prop := named ∧ starved ∧ c.tmo ≠ 0 ∧ c.tmo.toNat ≤ c.stallLaps
    (named → may → c.rxBusy = true → c.rxAbt = none → c.rxBuf.contains .close = false →
        gives (.ceAbort who ep) { c with rxAbt := some 2 }
          { kind := .abortTx 2, src := ep.val, dst := c.rxPeer, route := c.rxRoute, ec := s.ec } [ep.val, c.rxPeer, w]) ∧
      (¬named ∨ ¬may ∨ c.rxBusy = false → keeps (.ceAbort who ep) s) ∧
      (named → may → sends → gives (.ceAbortTx who ep) { c with txst := .aborted, cause := 2, cred := 0 }
          { kind := .abortRx 2, src := ep.val, dst := c.txPeer, route := c.route, ec := s.ec } [c.txPeer, ep.val, w]) ∧
      (¬named ∨ ¬may ∨ ¬sends → keeps (.ceAbortTx who ep) s) ∧
      (due → Gives (.stalledRoute ep) s fun t => gCe t ep.val = { c with stall := true, stallRep := true } ∧
        (gEng t (physOf s (ep.val / 128))).notice.getLsbD 0 = true ∧ logAs s t (some (0x6102, [ep.val, c.rxPeer]))) ∧
      (¬due → keeps (.stalledRoute ep) s)) ∧
  (∀ s : State, s.ec % 256 ≠ 0 → keeps .standstillEvaluation s) ∧
  ∀ s : State, up s = true → s.ec % 256 = 0 → Gives .standstillEvaluation s fun t =>
    t.en.cb.ssSets = standstillSets s ∧
      t.en.cb.ssNum = s.en.cb.ssNum +
        BitVec.ofNat 16 ((standstillSets s).filter fun x => !s.en.cb.ssSets.contains x).length ∧ (∀ g, g ∈ t.en.cb.ssMap ↔ ∃ x, x ∈ standstillSets s ∧ g ∈ x) ∧
      t.en.cb.fly = s.en.cb.fly ∧ t.en.ce = s.en.ce

/-! ### Timers and pins (spec/07) -/

/-- R257–R262, R266, R268: the step of a timer that is not chained, taken in this ec by its clock and gate. Counting up to the period
sets TOP and turns the direction; counting down to 0 sets BOTTOM, turns it, and takes a pending period; a compare match sets its
status bit, that of a chained pair an ec later; a master's trigger of the ec before resets, starts, clocks or captures. In 16-bit
width the count wraps at 16 bits. A row whose event the ec's step does not raise changes nothing. -/
def Obligations.TimerEvents : Prop :=
  ∀ (s : State) (e : Fin 64) (n : Fin 4), tmrUp s e.val = true →
    let p := physOf s e.val
    let t0 := gTmr s p n.val
    let c0 := gTmr0 s p n.val
    let w := if tcWidth t0.cfg = 1 then 2 ^ 16 else 2 ^ 32
    let cnt := t0.c.toNat % w
    let per := t0.p.toNat % w
    let waits : Prop := t0.stepped = false ∧ tmrIsHigh s p n.val = false
    let plain : Prop := waits ∧ tcWidth t0.cfg ≠ 2 ∧ c0.cfg = t0.cfg
    let due : Prop := plain ∧ c0.en = true ∧ clockNow s p n.val = true ∧ gateOpen s p n.val = true ∧
      ¬(c0.trg = true ∧ tcSlv c0.cfg = 2) ∧ per ≠ 0
    let after (t : State) : Tmr := gTmr t p n.val
    let gives (c : Instr) (P : State → Prop) : Prop := Gives c s fun t => engOnly s t p ∧
      (∀ q m, q ≠ p ∨ m ≠ n.val → gTmr t q m = gTmr s q m) ∧ (after t).stepped = true ∧ P t
    let up1 := (cnt + 1) % w
    let matchUp (cmp : W32) (mode : Nat) : Prop :=
      mode % 2 = 1 ∧ cmp.toNat % w = up1 ∧ up1 ≠ 0 ∧ up1 ≤ per
    let matchDown (cmp : W32) (mode : Nat) : Prop := 2 ≤ mode ∧ cmp.toNat % w = cnt - 1 ∧ cnt - 1 < per
    (due → t0.down = false → up1 = per → gives (.timerTop e n) fun t =>
        (after t).sTop = true ∧ (after t).down = true ∧ (after t).c.toNat = per) ∧
      (due → t0.down = false → up1 ≠ per → t0.ev.top = false → keeps (.timerTop e n) s) ∧
      (due → t0.down = true → cnt = 1 → gives (.timerBottom e n) fun t =>
        (after t).sBot = true ∧ (after t).down = false ∧ (after t).c = 0 ∧ (after t).shadow = none ∧
          (∀ x, t0.shadow = some x → (after t).p.toNat % w = x.toNat % w) ∧ (t0.shadow = none → (after t).p = t0.p)) ∧
      (due → t0.down = false → t0.ev.bot = false → keeps (.timerBottom e n) s) ∧
      (due → t0.down = false → up1 ≠ per → matchUp t0.cmpA (bits t0.cfg.toNat 17 16) →
        gives (.timerCompareMatch e n) fun t => (after t).sCmpA = true ∧ (after t).c.toNat = up1 ∧ (after t).down = false) ∧
      (due → t0.down = true → 1 < cnt → matchDown t0.cmpB (bits t0.cfg.toNat 19 18) →
        gives (.timerCompareMatch e n) fun t => (after t).sCmpB = true ∧ (after t).c.toNat = cnt - 1 ∧ (after t).down = true) ∧
      (waits → c0.chA = true → Gives (.timerCompareMatch e n) s fun t => (after t).sCmpA = true ∧
        (tcWidth t0.cfg ≠ 2 → (after t).chA = false)) ∧
      (c0.trg = false → keeps (.timerTrigger e n) s) ∧
      (c0.trg = true → plain → tcSlv c0.cfg = 2 → gives (.timerTrigger e n) fun t =>
        (after t).c = 0 ∧ (after t).down = false) ∧
      (c0.trg = true → plain → tcSlv c0.cfg = 3 → c0.en = false → tcCapsrc c0.cfg ≠ 2 → c0.chA = false → c0.chB = false →
        gives (.timerTrigger e n) fun t => after t = { t0 with stepped := true, chA := false, chB := false, en := true }) ∧
      (due → c0.trg = true → tcClk c0.cfg = 2 → t0.down = false → up1 ≠ per → gives (.timerTrigger e n) fun t =>
        (after t).c.toNat = up1 ∧ (after t).down = false) ∧
      (c0.trg = true → plain → tcCapsrc c0.cfg = 2 → gives (.timerTrigger e n) fun t => (after t).capDue = true)

/-- R12, R34, R257, R259–R261, R263–R265, R268–R270: a write comes after the step of its ec; a register that a TMR has written in the ec
keeps that value. A refused value of CFG sets CFGERR and changes nothing else; CLR sets the count to 0 counting up; SWCAP makes the
ec one with a capture, which queues the count as the ec leaves it, or at four entries sets OVR and counts in DROP; CNT, PERIOD,
CMPA and CMPB of a timer that is not chained take the value, CNT turns the direction at 0 and at the period, a written compare that
the count has passed fires at once; a low half of a pair is only staged. A read of CAP removes the oldest entry; clearing OVR logs
0x6201 and clears DROP. -/
def Obligations.TimerRegisterCommands : Prop :=
  (∀ (s : State) (e : Fin 64) (n : Fin 4) (d : W32) (b : Bool), tmrUp s e.val = true →
    let p := physOf s e.val
    let s' := stepAll s p
    let t0 := gTmr s' p n.val
    let w := if tcWidth t0.cfg = 1 then 2 ^ 16 else 2 ^ 32
    let v := d.toNat % w
    let cnt := t0.c.toNat % w
    let per := t0.p.toNat % w
    let low : Prop := tcWidth t0.cfg = 2
    let plain : Prop := ¬low ∧ tmrIsHigh s' p n.val = false
    let free (sel : Nat) : Prop := sel ∉ t0.byTmr
    let gives (c : Instr) (y : Tmr) : Prop := Gives c s fun t => engOnly s t p ∧
      (∀ q m, q ≠ p ∨ m ≠ n.val → gTmr t q m = gTmr s' q m) ∧ gTmr t p n.val = y
    let refused : Prop := tcWidth d = 3 ∨ tcClk d = 3 ∨ 5 ≤ tcMtrg d ∨ tcCapsrc d = 3 ∨ (tcWidth d = 2 ∧ n.val % 2 = 1) ∨
      (tcMsel d = n.val ∧ (tcClk d = 2 ∨ tcSlv d ≠ 0 ∨ tcCapsrc d = 2)) ∨
      (t0.en = true ∧ (tcWidth d ≠ tcWidth t0.cfg ∨ tcClk d ≠ tcClk t0.cfg))
    let cmp : Tmr := if b then { t0 with cmpB := BitVec.ofNat 32 v } else { t0 with cmpA := BitVec.ofNat 32 v }
    let cs := if b then 5 else 4
    let mode := if b then bits t0.cfg.toNat 19 18 else bits t0.cfg.toNat 17 16
    let passed : Prop := (t0.down = true ∧ 2 ≤ mode ∧ cnt ≤ v ∧ v + 1 ≤ per) ∨ (t0.down = false ∧ mode % 2 = 1 ∧ 1 ≤ v ∧ v ≤ cnt)
    let staged (sel : Nat) : Tmr := { t0 with staged := tset none t0.staged sel (some d) }
    let writes : List (Instr × Nat) := [(.tmrCfgWrite e n d, 0), (.cntWrite e n d, 2), (.periodWrite e n d, 3), (.cmpWrite e n b d, cs)]
    (∀ c sel, (c, sel) ∈ writes → ¬free sel → gives c t0) ∧
      (free 0 → refused → gives (.tmrCfgWrite e n d) { t0 with cfgErr := true, ev := { t0.ev with err := true } }) ∧
      (free 0 → ¬refused → gives (.tmrCfgWrite e n d) { t0 with cfg := d &&& 0x3FFFFFFF }) ∧
      (plain → gives (.clr e n) { t0 with c := 0, down := false }) ∧
      (tmrIsHigh s' p n.val = true → gives (.clr e n) t0) ∧
      (plain → free 2 → gives (.cntWrite e n d) { t0 with
        c := BitVec.ofNat 32 v, down := if v = 0 then false else if per ≤ v then true else t0.down }) ∧
      (plain → free 3 → t0.en = false → gives (.periodWrite e n d) { t0 with
        p := BitVec.ofNat 32 v, shadow := none, down := t0.down || decide (v ≤ cnt) }) ∧
      (plain → free 3 → t0.en = true → t0.cfg.getLsbD 20 = false ∨ t0.down = true →
        gives (.periodWrite e n d) { t0 with shadow := some (BitVec.ofNat 32 v) }) ∧
      (plain → free 3 → t0.en = true → t0.cfg.getLsbD 20 = true → t0.down = false → cnt < v →
        gives (.periodWrite e n d) { t0 with p := BitVec.ofNat 32 v, shadow := none }) ∧
      (plain → free 3 → t0.en = true → t0.cfg.getLsbD 20 = true → t0.down = false → v ≤ cnt →
        Gives (.periodWrite e n d) s fun t =>
          (gTmr t p n.val).down = true ∧ (gTmr t p n.val).sTop = true ∧ (gTmr t p n.val).p = BitVec.ofNat 32 v ∧
            (gTmr t p n.val).sShort = (t0.sShort || decide (v < cnt))) ∧
      (plain → free cs → ¬passed → gives (.cmpWrite e n b d) cmp) ∧
      (plain → free cs → passed → Gives (.cmpWrite e n b d) s fun t =>
        (b = false → (gTmr t p n.val).sCmpA = true ∧ (gTmr t p n.val).cmpA = BitVec.ofNat 32 v) ∧
          (b = true → (gTmr t p n.val).sCmpB = true ∧ (gTmr t p n.val).cmpB = BitVec.ofNat 32 v)) ∧
      (low → (free 2 → gives (.cntWrite e n d) (staged 2)) ∧ (free 3 → gives (.periodWrite e n d) (staged 3)) ∧
        (free cs → gives (.cmpWrite e n b d) (staged cs)))) ∧
  ∀ (s : State) (e : Fin 64) (n : Fin 4) (who : Requester), tmrUp s e.val = true →
    let p := physOf s e.val
    let t0 := gTmr s p n.val
    let plain : Prop := tcWidth t0.cfg ≠ 2 ∧ tmrIsHigh s p n.val = false
    let gives (c : Instr) (y : Tmr) : Prop := Gives c s fun t => engOnly s t p ∧
      (∀ q m, q ≠ p ∨ m ≠ n.val → gTmr t q m = gTmr s q m) ∧ gTmr t p n.val = y
    let w := if tcWidth t0.cfg = 1 then 2 ^ 16 else 2 ^ 32
    let caught := gTmr (tmrCapture s p n.val) p n.val
    (tmrIsHigh s p n.val = true → keeps (.swcap e n) s) ∧ (plain → gives (.swcap e n) { t0 with capDue := true }) ∧
      (plain → t0.capDue = false → caught = t0) ∧
      (plain → t0.capDue = true → t0.capQ.length < 4 → caught.capQ = t0.capQ ++ [BitVec.ofNat 64 (t0.c.toNat % w)]) ∧
      (plain → t0.capDue = true → 4 ≤ t0.capQ.length → caught = { t0 with ovr := true, drop := satInc t0.drop }) ∧
      (plain → t0.capQ = [] → gives (.tmrCapRead who e n) { t0 with emptyRd := true }) ∧
      (∀ x rest, plain → t0.capQ = x :: rest → gives (.tmrCapRead who e n) { t0 with capQ := rest }) ∧
      (t0.ovr = false → keeps (.tmrOvrClear e n) s) ∧
      (t0.ovr = true → gives (.tmrOvrClear e n) { t0 with ovr := false, drop := 0 } ∧ Gives (.tmrOvrClear e n) s fun t =>
        ∃ x, logAs s t (some (0x6201, [x, t0.drop.toNat])))

/-- R72, R82, R250, R271–R273, R276–R278, R280, R282: the pin commands. A cue fires no earlier than its time and 32 ticks after the
previous one, with its action on OUT and OE, placed with the pin's trim, and a late one sets LATE and logs 0x6202; a mark is captured.
An edge less than 32 ticks after the previous one is filtered with the one that follows it; an edge that passes is captured where
CAPEDGE selects it, and a reflex rule that it fires sends its cue. FLUSH_CUE leaves the cues of the same ec and those that fire in
it, FLUSH_CAP empties its queue; clearing OVR logs 0x6201; a reflex rule that would arm with ACT above 7 or no edge is discarded. -/
def Obligations.PinCommands : Prop :=
  ∀ (s : State) (k : Fin 256) (rising : Bool) (off : Fin 64) (b : Fin 32) (n : Fin 4) (d : W64), up s = true →
    let x := gPin s k.val
    let now := s.tb.now + BitVec.ofNat 64 ((tbAt s 1 - s.tb.now).toNat * off.val / 64)
    let bank := gBank s (k.val / 8)
    let edge : Instr := .pinEdge k rising off
    let gives (c : Instr) (y : Pin) : Prop := Gives c s fun t => pinOnly s t k.val ∧ gPin t k.val = y
    let sel : Bool := if rising then x.capEdge.getLsbD 0 else x.capEdge.getLsbD 1
    let lost : W16 := if sel && !bank.paused then satInc x.drop else x.drop
    let close : Prop := ∃ l, x.lastEdge = some l ∧ now.toNat < l.toNat + 32
    let code : BitVec 2 := if rising then 1 else 2
    let passes : Prop := x.inp ≠ rising ∧ x.filtered = false ∧ ¬close ∧ s.en.eng = []
    let quiet : Prop := passes ∧ ∀ r, r < 4 → (tget {} bank.rfx r).arm = false
    let rfx := tget {} (gBank s b.val).rfx n.val
    let new : Rfx := { rfx with
      src := BitVec.ofNat 3 d.toNat, edge := BitVec.ofNat 2 (d.toNat / 8), dst := BitVec.ofNat 3 (d.toNat / 32)
      act := BitVec.ofNat 4 (d.toNat / 256), arm := d.getLsbD 12, oneshot := d.getLsbD 13, delay := BitVec.ofNat 8 (d.toNat / 65536) }
    let rfxGives (y : Rfx) : Prop := Gives (.pbRfxWrite b n d) s fun t =>
      bankFrame s t b.val ∧ tget {} (gBank t b.val).rfx n.val = y ∧ (gBank t b.val).sq = (gBank s b.val).sq
    let hit := tget {} bank.rfx n.val
    let at' := later (now + BitVec.ofNat 64 hit.delay.toNat) (tbAt s 4)
    let fired (y : Pin) : Prop := Gives (.cueFire k) s fun t =>
      t = { s with pin := t.pin, bank := t.bank, mg := { s.mg with log := t.mg.log } } ∧ gPin t k.val = y ∧
        (∀ j, j ≠ k.val → gPin t j = gPin s j) ∧ (∀ j, j ≠ k.val / 8 → gBank t j = gBank s j) ∧
        gBank t (k.val / 8) = { bank with driven := bank.driven || y.oe }
    let moved (f : W64) (a : BitVec 4) (late : Bool) : Pin :=
      let y := cueAction { x with cueQ := [], lastFire := some f } a
      { y with
        placed := if y.out = x.out ∧ y.oe = x.oe then x.placed else some (trimmed f x.trim), late := x.late || late }
    let soon (f : W64) : Prop := f.toNat < (tbAt s 1).toNat
    let goes (c h : Cue) : Bool := decide ((cueAt c).toNat ≤ (fireAt x h).toNat) && decide ((fireAt x h).toNat < (tbAt s 1).toNat)
    gives (.flushCue k) { x with cueQ := x.cueQ.filter fun c => decide (c.ec = s.ec) || x.cueQ.head?.any fun h => goes c h } ∧
      gives (.flushCap k) { x with capQ := [] } ∧
      (x.ovr = false → keeps (.pinOvrClear k) s) ∧
      (x.ovr = true → Gives (.pinOvrClear k) s fun t => pinOnly s t k.val ∧
        gPin t k.val = { x with ovr := false, drop := 0 } ∧ logAs s t (some (0x6201, [k.val, x.drop.toNat]))) ∧
      (x.inp = rising → keeps edge s) ∧
      (x.inp ≠ rising → x.filtered = true → gives edge { x with inp := rising, filtered := false, drop := lost }) ∧
      (x.inp ≠ rising → x.filtered = false → close → gives edge { x with inp := rising, filtered := true, drop := lost }) ∧
      (quiet → sel = true → bank.paused = false → x.capQ.length < 16 → gives edge { x with
          inp := rising, lastEdge := some now, gapNext := false
          capQ := x.capQ ++ [{ t := trimmed now x.trim, edge := code, gap := x.gapNext, vis := s.ec + 2 }] }) ∧
      (quiet → sel = true → bank.paused = false → 16 ≤ x.capQ.length →
        gives edge { x with inp := rising, lastEdge := some now, gapNext := true, ovr := true, drop := satInc x.drop }) ∧
      (quiet → sel = false ∨ bank.paused = true → gives edge { x with inp := rising, lastEdge := some now }) ∧
      (passes → sel = false → bank.paused = false → hit.arm = true → hit.src.toNat = k.val % 8 →
        edgeSel hit.edge rising = true → (∀ r, r < 4 → r ≠ n.val → (tget {} bank.rfx r).arm = false) →
        Gives edge s fun t => gPin t k.val = { x with inp := rising, lastEdge := some now } ∧
          (∀ j, j ≠ k.val → gPin t j = gPin s j) ∧ (∀ j, j ≠ k.val / 8 → gBank t j = gBank s j) ∧
          (gBank t (k.val / 8)).due = bank.due ++ [{
            ec := s.ec + 2, rank := n.val, pin := 8 * (k.val / 8) + hit.dst.toNat
            cue := { t := at', min := at', act := hit.act, ec := s.ec + 2 } }] ∧
          tget {} (gBank t (k.val / 8)).rfx n.val = { hit with fired := satInc hit.fired, arm := !hit.oneshot }) ∧
      (x.cueQ = [] → keeps (.cueFire k) s) ∧
      (∀ c, x.cueQ = [c] → bank.paused = true ∨ ¬soon (fireAt x c) → keeps (.cueFire k) s) ∧
      (∀ c, x.cueQ = [c] → c.act.toNat < 7 → bank.paused = false → x.lastFire = none → c.min.toNat ≤ c.t.toNat → soon c.t →
        fired (moved c.t c.act false)) ∧
      (∀ c l, x.cueQ = [c] → c.act.toNat < 7 → bank.paused = false → x.lastFire = some l → l.toNat + 32 < 2 ^ 64 →
        c.t.toNat ≤ l.toNat + 31 → c.min.toNat ≤ l.toNat + 31 → soon (l + 32) →
        fired (moved (l + 32) c.act true) ∧ Gives (.cueFire k) s fun t =>
          logAs s t (some (0x6202, [k.val, c.t.toNat, l.toNat + 32]))) ∧
      (∀ c, x.cueQ = [c] → c.act.toNat < 7 → bank.paused = false → x.lastFire = none → c.t.toNat < c.min.toNat → soon c.min →
        fired (moved c.min c.act true) ∧ Gives (.cueFire k) s fun t =>
          logAs s t (some (0x6202, [k.val, c.t.toNat, c.min.toNat]))) ∧
      (∀ c, x.cueQ = [c] → c.act = 7 → bank.paused = false → x.lastFire = none → c.min.toNat ≤ c.t.toNat → soon c.t →
        x.capQ.length < 16 → fired { x with
          cueQ := [], lastFire := some c.t, gapNext := false
          capQ := x.capQ ++ [{ t := trimmed c.t x.trim, edge := 3, gap := x.gapNext, vis := s.ec + 2 }] }) ∧
      (new.arm = true → 8 ≤ new.act.toNat ∨ new.edge = 0 → rfxGives rfx) ∧
      (new.arm = false ∨ new.act.toNat < 8 ∧ new.edge ≠ 0 → rfxGives new)

/-! ### Usher and box office (spec/10) -/

/-- R19, R343, R345–R354: a script's entry (fault 0x0D for a handle that it does not hold, BADLEN, FULL, or the packet in the window
and held by the thread); dispatch of a domain's oldest waiting packet, one in an ec, to the next engine of its set that is mapped and
has room, where a TAKE finds it when the ec ends; the retirement of a released head by its action, when one of the eight of the ec goes
to its domain, and what a destination that cannot take it shows; the timeout of a head, once; and the force-drop of a head, with
FDMISS for another handle and FDLOST for one released in the same ec, which a force-drop of a packet that a thread holds waits for. -/
def Obligations.UsherCommands : Prop :=
  ∀ (s : State) (g : Fin 2048) (h : W32) (len : BitVec 17) (od : Fin 256) (who : Requester), live s = true →
    let d := gDom s od.val
    let enter : Instr := .ushEnter g h len od
    let res (r : BitVec 2) (t : State) : Prop := (tget (0, 0) t.tr.ush.entres g.val).1 = r
    let room : Prop := windowFull s = false ∧ domFull s od.val = false
    let ok (e : Nat) : Prop := d.engines.toNat / 2 ^ e % 2 = 1 ∧ isMapped s e = true ∧ (gEng s (physOf s e)).dq.length + (gEng s (physOf s e)).dqNew.length < 64
    let turn (i : Nat) : Nat := (d.ptr + 1 + i) % 64
    let head (w : Nat) (rest : List Nat) (k : Pkt) : Prop := d.q = w :: rest ∧ gWin s w = some k
    let pass (t : State) : Prop := t.tr.ush.retNow = s.tr.ush.retNow ++ [od.val]
    let my : Prop := retTurn s od.val = true
    let gone (rest : List Nat) (w : Nat) : List Nat := rest.filter fun x => decide (x ≠ w)
    let due : Prop := d.tmo ≠ 0 ∧ d.headTo = false ∧ d.tmo.toNat * 40000 ≤ (s.tb.now - d.headTb).toNat
    let may : Prop := mayForce s od.val who = true
    let drop : Instr := .forceDrop who od h
    let lost : Prop := d.relLast = some (h, s.ec) ∧ ∀ w k, w ∈ d.q.tail → gWin s w = some k → k.handle ≠ h
    (isMapped s (g.val / 32) = true → heldPool s g.val h = none → Gives enter s fun t =>
        faultedAt s t (thrKey s g.val) 0x0D (regsOf s g).pc ∧ t.tr = s.tr) ∧
      (∀ p, isMapped s (g.val / 32) = true → heldPool s g.val h = some p →
        (len = 0 ∨ poolSize (gPool s p) < len.toNat → Gives enter s fun t => res 3 t ∧ t.tr.box = s.tr.box ∧ t.en = s.en) ∧
          (len ≠ 0 → len.toNat ≤ poolSize (gPool s p) → ¬room → Gives enter s fun t =>
            res 2 t ∧ t.tr.box = s.tr.box ∧ t.en = s.en) ∧
          (len ≠ 0 → len.toNat ≤ poolSize (gPool s p) → room → Gives enter s fun t => res 1 t ∧ t.en = s.en ∧
            (tget (0, 0) t.tr.ush.entres g.val).2 = d.nextSeq ∧ (gDom t od.val).nextSeq = d.nextSeq + 1 ∧
            ∃ w k, (gDom t od.val).q = d.q ++ [w] ∧ gWin t w = some k ∧ k.handle = h ∧ k.len = len.toNat ∧ k.od = od.val ∧
              k.seq = d.nextSeq ∧ k.st = .held g.val ∧ k.src = 2)) ∧
      (∀ w k pre post i, d.q = pre ++ w :: post → (∀ v x, v ∈ pre → gWin s v = some x → x.st ≠ .window) →
        gWin s w = some k → k.st = .window → i < 64 → ok (turn i) → (∀ j, j < i → ¬ok (turn j)) →
        let p := physOf s (turn i)
        d.dispNow = false → Gives (.dispatch od) s fun t => gWin t w = some { k with st := .queued p } ∧
          (gDom t od.val).ptr = turn i ∧ (gDom t od.val).dispNow = true ∧ (gEng t p).dqNew = (gEng s p).dqNew ++ [w] ∧
          (gEng t p).dq = (gEng s p).dq ∧ t.en.thr = s.en.thr) ∧
      ((∀ i, i < 64 → ¬ok (turn i)) ∨ d.dispNow = true → keeps (.dispatch od) s) ∧
      (¬my → couldRetire s od.val = true → keeps (.retirement od) s) ∧
      (∀ w rest k x, head w rest k → k.st = .released x → k.src ≠ 3 → x.word.toNat % 8 = 0 → canFree s k.pool = true → my →
        Gives (.retirement od) s fun t => gWin t w = none ∧ (gDom t od.val).q = gone rest w ∧
          (gDom t od.val).retired = satInc d.retired ∧ (gDom t od.val).dropped = satInc d.dropped ∧ pass t) ∧
      (∀ w rest k x, head w rest k → k.st = .released x → x.word.toNat % 8 = 1 → k.chain = false →
        let l := x.word.toNat / 2 ^ 8 % 64
        let q := (gLink s l).asm.q
        (gLink s l).st = .locking ∨ (gLink s l).st = .up →
          (q.length < 1024 → my → Gives (.retirement od) s fun t => gWin t w = none ∧ (gDom t od.val).q = gone rest w ∧
            (gDom t od.val).retired = satInc d.retired ∧ (gDom t od.val).dropped = d.dropped ∧ pass t ∧ (gLink t l).asm.q = q ++ [{
              handle := k.handle, len := x.newLen.getD k.len, pool := k.pool, chain := false, chidx := k.chidx
              append := bitOf x.word.toNat 24 }]) ∧
          (1024 ≤ q.length → keeps (.retirement od) s)) ∧
      (∀ w rest k x, head w rest k → k.st = .released x → x.word.toNat % 8 = 2 → k.chain = false →
        let n := x.word.toNat / 2 ^ 8 % 64
        let p := gDp s n
        let len := x.newLen.getD k.len
        p.en = true → p.mode ≠ .replay →
          (dqSize p ≤ p.dq.length → Gives (.retirement od) s fun t =>
            t = { s with tr := { s.tr with dp := t.tr.dp } } ∧ gDp t n = { p with dqFull := true }) ∧
          (p.dq.length < dqSize p → my → Gives (.retirement od) s fun t => gWin t w = none ∧ (gDom t od.val).q = gone rest w ∧
            pass t ∧ (gDp t n).dqWr = p.dqWr + 1 ∧ ∃ e, (gDp t n).dq = p.dq ++ [e] ∧ e.handle = k.handle ∧ e.seq = k.seq ∧
              e.len = len ∧ e.od = k.od ∧ e.err = bitOf x.word.toNat 26 ∧ e.chain = false)) ∧
      (∀ w rest k x, head w rest k → k.st = .released x → x.word.toNat % 8 = 3 → k.chain = false →
        let o := x.word.toNat / 2 ^ 16 % 256
        o ≠ od.val → my → Gives (.retirement od) s fun t => (gDom t od.val).q = gone rest w ∧
          (gDom t o).q = (gDom s o).q ++ [w] ∧ (gDom t o).nextSeq = (gDom s o).nextSeq + 1 ∧ gWin t w = some { k with
            od := o, recirc := true, len := x.newLen.getD k.len, st := .window, seq := (gDom s o).nextSeq }) ∧
      (∀ w rest k, head w rest k → due → Gives (.domainTimeout od) s fun t =>
        (gDom t od.val).timedOut = true ∧ (gDom t od.val).headTo = true ∧ (gDom t od.val).q = d.q ∧
          (isMapped s d.owner.toNat = true → (gEng t (physOf s d.owner.toNat)).notice.getLsbD 1 = true) ∧
          logAs s t (some (0x3001, [od.val, k.seq.toNat, k.handle.toNat, holderId k.st]))) ∧
      (¬due → keeps (.domainTimeout od) s) ∧
      (¬may → keeps drop s) ∧
      (may → lost → Gives drop s fun t => (gDom t od.val) = { d with fdHandle := h, fdLost := true } ∧ t.mg = s.mg) ∧
      (∀ w rest k, may → ¬lost → head w rest k → k.handle ≠ h → Gives drop s fun t =>
        (gDom t od.val) = { d with fdHandle := h, fdMiss := true } ∧ t.mg = s.mg) ∧
      (may → d.q = [] → d.relLast = none → Gives drop s fun t => (gDom t od.val) = { d with fdHandle := h, fdMiss := true }) ∧
      (∀ w rest k, may → ¬lost → head w rest k → k.handle = h → k.od = od.val → k.st = .window → k.src ≠ 3 →
        Gives drop s fun t => (gDom t od.val).q = gone rest w ∧ (gDom t od.val).fdrops = satInc d.fdrops ∧
          (gDom t od.val).dropped = satInc d.dropped ∧ (gDom t od.val).retired = satInc d.retired ∧
          (canFree s k.pool = true → gWin t w = none)) ∧
      (∀ w rest k o, may → ¬lost → head w rest k → k.handle = h → k.st = .held o → Gives drop s fun t =>
        (gDom t od.val) = { d with fdHandle := h, fdBy := some (readerOf who, h) } ∧ t.mg = s.mg ∧ t.tr.ush.win = s.tr.ush.win) ∧
      ∀ w rest k x, d.fdBy = some (x, h) → head w rest k → k.handle = h → k.od = od.val → k.src ≠ 3 →
        let t := forceEnd s od.val
        (d.relLast = some (h, s.ec) → gDom t od.val = { d with fdBy := none, fdLost := true } ∧ t.mg = s.mg ∧
          t.tr.ush.win = s.tr.ush.win) ∧
          (∀ o, d.relLast ≠ some (h, s.ec) → k.st = .held o → (gDom t od.val).q = gone rest w ∧ gWin t w = none ∧
            (gDom t od.val).fdBy = none ∧ (gDom t od.val).fdrops = satInc d.fdrops ∧
            (gDom t od.val).dropped = satInc d.dropped ∧ (gDom t od.val).retired = satInc d.retired ∧
            t.tr.ush.orphans = s.tr.ush.orphans ++ [(o, k)] ∧
            logAs s t (some (0x3002, [od.val, k.seq.toNat, h.toNat, x])))

/-- R61–R64, R355, R356, R359–R363: the box office. EN starts every enabled pool's refill from an empty cache, and is refused while the
block drains; it is cleared only with every lane group and port off, and DRAINING falls when every cache is empty and no request is
out. A pool is written only while the office is off, with a size of 2^8 to 2^16. BOX_ALLOC gives a cached handle, BOX_FREE takes one
back from its holder. Handles come 64 to a request; one that is 0, fails parity or was not asked for is logged and counted. -/
def Obligations.BoxCommands : Prop :=
  ∀ (s : State) (p : Fin 8) (data : W64) (who : Requester) (h : W32) (last empty parOk ready : Bool), up s = true →
    let b := s.tr.box
    let q := gPool s p.val
    let m := readerOf who
    let gives (c : Instr) (f : State → Prop) : Prop := Gives c s f
    let cfgErr (c : Instr) : Prop := gives c fun t => t = { s with tr := { s.tr with box := { b with cfgErr := true } } }
    let pool (c : Instr) (y : Pool) : Prop := gives c fun t => gPool t p.val = y ∧
      t = { s with tr := { s.tr with box := { b with pool := t.tr.box.pool } } } ∧ ∀ j, j ≠ p.val → gPool t j = gPool s j
    let ports : Prop := anyPortOn s = true
    let l2 := data.toNat % 32
    let still (x : State) : Prop := boxRun x = x
    let on : Prop := s.blk.portsOn = true
    let beat : Instr := .pmHandleBeat p h last empty parOk
    let good : Prop := h ≠ 0 ∧ h.toNat < 2 ^ 30 ∧ h.toNat % (poolSize q / 256) = 0
    let noted (y : Pool) : Prop := gives beat fun t => gPool t p.val = y ∧ ∃ why, logAs s t (some (0x3101, [p.val, h.toNat, why]))
    let left (n : Nat) : Option Nat := if last = true ∨ n ≤ 1 then none else some (n - 1)
    (b.draining = true → cfgErr .boxEnable) ∧ (b.draining = false → b.en = true → keeps .boxEnable s) ∧
      (b.draining = false → b.en = false → gives .boxEnable fun t => t.tr.box.en = true ∧ t.tr.box.filled = 0 ∧
        ∀ j, j < 8 → gPool t j = { gPool s j with cache := [], refill := (gPool s j).en, retry := false }) ∧
      (ports → cfgErr .boxDisable) ∧ (¬ports → b.en = false → keeps .boxDisable s) ∧
      (¬ports → b.en = true → gives .boxDisable fun t => t.tr.box.en = false ∧ t.tr.box.draining = true ∧ t.tr.box.filled = 0 ∧
        t.tr.box.held = b.held ∧ ∀ j, j < 8 → (gPool t j).refill = false ∧ (gPool t j).cache = (gPool s j).cache) ∧
      (b.draining = true → (∀ j, j < 8 → (gPool s j).cache = [] ∧ (gPool s j).req = none) →
        gives .boxDrainDone fun t => t = { s with tr := { s.tr with box := { b with draining := false } } }) ∧
      ((∃ j, j < 8 ∧ ((gPool s j).cache ≠ [] ∨ (gPool s j).req ≠ none)) → keeps .boxDrainDone s) ∧
      (b.en = true ∨ b.draining = true ∨ l2 < 8 ∨ 16 < l2 → cfgErr (.boxPoolWrite p data)) ∧
      (b.en = false → b.draining = false → 8 ≤ l2 → l2 ≤ 16 →
        pool (.boxPoolWrite p data) { q with log2 := BitVec.ofNat 5 l2, en := data.getLsbD 8 }) ∧
      (b.en = true → b.held.length < 4096 → q.fifo = [] → q.cache ≠ [] → gives (.boxAlloc who p) fun t =>
        ∃ x, x ∈ q.cache ∧ { master := m, handle := x, pool := p.val, returning := false } ∈ t.tr.box.held) ∧
      (b.en = true → 4096 ≤ b.held.length → gives (.boxAlloc who p) fun t =>
        t = { s with tr := { s.tr with box := { b with allocFull := true } } }) ∧
      (b.en = false ∨ b.held.length < 4096 ∧ (q.fifo ≠ [] ∨ q.cache = []) → keeps (.boxAlloc who p) s) ∧
      (∀ a z pl, b.held = a ++ { master := m, handle := h, pool := pl, returning := false } :: z →
        (∀ x, x ∈ a ∨ x ∈ z → ¬(x.master = m ∧ x.handle = h)) →
          (canFree s pl = true → gives (.boxFree who h) fun t => ∀ x, x ∈ t.tr.box.held → ¬(x.master = m ∧ x.handle = h)) ∧
          (canFree s pl = false → gives (.boxFree who h) fun t => t.tr.box.retStall = true ∧
            t.tr.box.held = a ++ { master := m, handle := h, pool := pl, returning := true } :: z)) ∧
      (∀ g, who = .thread g → heldPool s m h = none → gives (.boxFree who h) fun t =>
        faultedAt s t (thrKey s g.val) 0x0D (regsOf s g).pc ∧ t.tr = s.tr) ∧
      (who = .host → heldPool s m h = none → keeps (.boxFree who h) s) ∧
      (on → b.en = true → q.en = true → q.refill = true → q.req = none → q.retry = false →
        pool (.pmAllocRequest p) { q with req := some 64 }) ∧
      (b.en = false ∨ q.en = false ∨ q.refill = false ∨ q.req ≠ none ∨ q.retry = true → keeps (.pmAllocRequest p) s) ∧
      (on → q.req = none → noted q) ∧
      (∀ n, on → q.req = some n → parOk = false ∨ empty = false ∧ ¬good → noted { q with req := left n }) ∧
      (∀ n, on → q.req = some n → parOk = true → empty = true → pool beat { q with req := none, retry := b.en }) ∧
      (∀ n, on → q.req = some n → parOk = true → empty = false → good → q.cache.length < 1024 →
        let y := mPool s p.val fun x => { x with req := left n }
        still (cachePut y p.val h) → gives beat fun t => (gPool t p.val).cache = q.cache ++ [h] ∧ (gPool t p.val).req = left n ∧
          (gPool t p.val).refill = (q.refill && decide (q.cache.length + 1 < 512))) ∧
      (∀ x t', on → ready = true → q.toPm = x :: t' → pool (.pmFreeReturn p ready) { q with toPm := t', lastFree := some x }) ∧
      (ready = true → on → q.toPm = [] → 512 < q.cache.length → gives (.pmFreeReturn p ready) fun t =>
        ∃ x, x ∈ q.cache ∧ (gPool t p.val).lastFree = some x) ∧
      (ready = false → keeps (.pmFreeReturn p ready) s) ∧
      (q.retry = true → pool (.boxRetryExpiry p) { q with retry := false }) ∧
      (q.retry = false → keeps (.boxRetryExpiry p) s) ∧
      (∀ r t', q.late = r :: t' → q.fifo.length < 64 →
        still (mPool s p.val fun x => { x with fifo := q.fifo ++ [r], late := t' }) →
        pool (.waitingFifoRetry p) { q with fifo := q.fifo ++ [r], late := t' }) ∧
      (q.late = [] ∨ 64 ≤ q.fifo.length → keeps (.waitingFifoRetry p) s)

/-! ### Lanes and lane groups (spec/09) -/

/-- R305–R309, R317, R321: a word of a lane whose group is off or whose lock is down is ignored. In 64B/66B a hunting aligner moves to the
next of 66 offsets at an invalid header, which counts in HDR_ERR, counts a valid one, and aligns at the 64th with event 0x4002. In BYPASS
a word of a RAW link in service joins the packet in progress as a 9-byte record. A fall of `ln_rx_lock` unlocks the lane, counts in
UNLOCK and logs 0x4001; behind the curtain the level alone is followed. -/
def Obligations.LaneReceiveCommands : Prop :=
  (∀ (s : State) (k : Fin 64) (level : Bool), up s = false → (gLane s k.val).rx.lock ≠ level →
    Gives (.lnRxLockChange k level) s fun t => gLane t k.val = { gLane s k.val with
        rx := { (gLane s k.val).rx with lock := level } } ∧ t = { s with tr := { s.tr with lane := t.tr.lane } } ∧
      ∀ j, j ≠ k.val → gLane t j = gLane s j) ∧
  ∀ (s : State) (k : Fin 64) (ctl : BitVec 2) (data : W64) (level : Bool), up s = true →
    let g := k.val / 8
    let x := (gLane s k.val).rx
    let c := (gLg s g).live
    let rx (t : State) : LaneRx := (gLane t k.val).rx
    let word : Instr := .laneRxWord k ctl data
    let change : Instr := .lnRxLockChange k level
    let runs : Prop := (gLg s g).en = true ∧ x.lock = true ∧ x.clkBad = false
    let hunts : Prop := runs ∧ lcCode c = 1 ∧ x.aligned = false ∧ x.bits = []
    let bad : Prop := ctl = 0 ∨ ctl = 3
    let l := gLink s k.val
    let raw : Prop := runs ∧ lcCode c = 0 ∧ lcWidth c = 1 ∧ lcMarkers c = false ∧ linkOn l = true ∧ l.dsk = 2 ∧ x.fifo = [] ∧ x.pos = some 0 ∧
      lcFramer c = 2 ∧ l.fr.drop = false
    let chunk := if fld (gLg s g).frm 16 16 = 0 then 65536 else fld (gLg s g).frm 16 16
    let idle : Prop := ctl = 1 ∧ data = (gLg s g).idle ∧ (gLg s g).frm.getLsbD 56 = false
    (¬runs → keeps word s) ∧
      (hunts → bad → Gives word s fun t => rx t = { x with
          bits := numBits 65 (data.toNat * 2 + ctl.toNat / 2), offset := (x.offset + 1) % 66, good := 0, hist := [] } ∧
        (gLane t k.val).hdrErr = satInc (gLane s k.val).hdrErr) ∧
      (hunts → ¬bad → x.good < 63 → Gives word s fun t => rx t = { x with good := x.good + 1 } ∧
        (gLane t k.val).hdrErr = (gLane s k.val).hdrErr ∧ logAs s t none) ∧
      (hunts → ¬bad → x.good = 63 → l.st = .off → lcWidth c = 1 → Gives word s fun t =>
        rx t = { x with good := 64, aligned := true, hist := [] } ∧ logAs s t (some (0x4002, [k.val, x.offset]))) ∧
      (∀ bs, raw → ¬idle → l.fr.cur = some bs → bs.length + 9 < chunk → storeUsed s g + 9 ≤ 262144 →
        Gives word s fun t => (gLink t k.val).fr.cur = some (bs ++ BitVec.ofNat 8 ctl.toNat :: leBytes 8 data.toNat) ∧
          rx t = x ∧ (gLink t k.val).rxFrames = l.rxFrames) ∧
      (raw → idle → Gives word s fun t => (gLink t k.val).fr = l.fr) ∧
      (x.lock = level → keeps change s) ∧
      (x.lock = true → level = false → laneLocked s k.val = true → Gives change s fun t =>
        (rx t).lock = false ∧ (rx t).aligned = false ∧ (rx t).stale = true ∧
          (gLane t k.val).unlock = satInc (gLane s k.val).unlock) ∧
      (x.lock = true → level = false → laneLocked s k.val = false → Gives change s fun t =>
        rx t = { x with lock := false, aligned := false, bits := [], good := 0, hist := [] } ∧
          (gLane t k.val).unlock = (gLane s k.val).unlock) ∧
      (x.lock = false → level = true → lcCode c ≠ 0 → Gives change s fun t =>
        rx t = { x with lock := true, aligned := false, bits := [], good := 0, hist := [] }) ∧
      (x.lock = false → level = true → lcCode c = 0 → (gLg s g).en = true → x.clkBad = false → Gives change s fun t =>
        (rx t).lock = true ∧ (rx t).aligned = true ∧ (rx t).offset = 0)

/-- R67, R313, R318, R325–R331, R344, R354: a written frame enters its domain once there is room and its source's turn has come, and counts
in FRAMES; without room it waits, or under BP it is discarded. The assembler starts the oldest queued packet in LOCKING or UP: DELIM sends
SOF_K, the bytes and EOF_K; ETH66 the start block, the data and the terminate block after the idles of the gap; a byte that had not
arrived counts an underrun. A lane that is not quiet sends the oldest word of its queue, else the word that the assembler forms: a marker
where one is due, an idle block between frames. A lane of a disabled group goes quiet behind the last word of its frame. -/
def Obligations.LaneTransmitCommands : Prop :=
  (∀ (s : State) (f : Fin 64) (x : RxWr) (rest : List RxWr), live s = true → srcTurn s f.val = true →
    (gInq s f.val).writing = x :: rest →
    let od := (gLane s f.val).od.toNat
    let fe : Instr := .framerEnter f
    let room : Prop := windowFull s = false ∧ domFull s od = false
    let done : Prop := x.job = 0 ∨ jobDone s x.job = true
    (¬done → keeps fe s) ∧
      (done → room → Gives fe s fun t => (gInq t f.val).writing = rest ∧
        (gLink t f.val).rxFrames = satInc (gLink s f.val).rxFrames ∧ (gDom t od).nextSeq = (gDom s od).nextSeq + 1 ∧
        ∃ w k, (gDom t od).q = (gDom s od).q ++ [w] ∧ gWin t w = some k ∧ k.handle = x.handles.headD 0 ∧ k.od = od ∧
          k.len = x.pkt.bytes.length ∧ k.src = 0 ∧ k.seq = (gDom s od).nextSeq ∧ k.st = .window) ∧
      (done → ¬room → bpDiscards s f.val = true → (gInq s f.val).waiting = [] → Gives fe s fun t => (gInq t f.val).writing = rest ∧
        (gLink t f.val).bpDrop = satInc (gLink s f.val).bpDrop ∧ (gDom t od).q = (gDom s od).q) ∧
      (done → ¬room → bpDiscards s f.val = false → Gives fe s fun t =>
        t.tr.ush.wfull = true ∧ f.val ∈ t.tr.ush.wsrc ∧ (gInq t f.val).writing = x :: rest)) ∧
  (∀ (s : State) (f : Fin 64) (ans : PktAns) (arrived : Nat) (p : OutPkt) (q : List OutPkt), live s = true →
    let l := gLink s f.val
    let c := (gLg s (f.val / 8)).live
    let frm := (gLg s (f.val / 8)).frm
    let start : Instr := .txFrameStart f ans arrived
    l.asm.q = p :: q →
    let sends : Prop := (l.st = .locking ∨ l.st = .up) ∧ l.asm.busy = false ∧ min p.len 16384 ≤ arrived
    let x := pktFetch (mAsm s f.val fun a => { a with q := q, pkt := some p }) 1 p.handle p.len p.pool p.chain p.chidx ans
    let bs := fetchBytes (freeBytes x.1 (p.len / 8 + 1)) x.2.parts
    let plain : Prop := p.len ≤ arrived ∧ p.append = false ∧ fld c 14 2 = 0
    let port := gMp s (portOf (bufOff p.handle))
    let asm (t : State) : Asm := (gLink t f.val).asm
    let gap := fld frm 48 8 - l.asm.ipg
    (¬sends → keeps start s) ∧
      (∀ d, p.chain = false → 0 < p.len → p.len ≤ 256 → ans.data = [.ok d] → s.mv.au = [] → (tagsUsed port).length < 2048 →
        bs = (d ++ List.replicate p.len 0).take p.len) ∧
      (sends → plain → lcFramer c = 1 → Gives start s fun t => (asm t).q = q ∧ (asm t).busy = true ∧ (asm t).pkt = some p ∧
        (asm t).cur = l.asm.cur ++ kChar (BitVec.ofNat 8 (fld frm 32 8)) :: bs.map dChar ++
          [kChar (BitVec.ofNat 8 (fld frm 40 8))]) ∧
      (sends → plain → lcFramer c = 0 → p.len < 8 → Gives start s fun t => (asm t).q = q ∧ (asm t).busy = true ∧
        (asm t).pkt = some p ∧
        (asm t).cur = l.asm.cur ++ List.replicate ((gap + 7) / 8) (ctlBlk (idlePay s f.val)) ++
          [ctlBlk [0x78, 0x55, 0x55, 0x55, 0x55, 0x55, 0x55, 0xD5],
           ctlBlk (termType p.len :: bs ++ List.replicate (7 - p.len) 0)]) ∧
      (sends → arrived < p.len → Gives start s fun t => (asm t).q = q ∧
        (gLink t f.val).underrun = satInc l.underrun ∧ (gLg t (f.val / 8)).sUnderrun = true)) ∧
  ∀ (s : State) (k : Fin 64), up s = true →
    let x := (gLane s k.val).tx
    let tw : Instr := .laneTxWord k
    let f := linkOf s k.val
    let c := (gLg s (k.val / 8)).live
    let l := gLink s k.val
    let on : Prop := x.quiet = false ∧ (gLane s k.val).rx.clkBad = false
    let alone : Prop := lcWidth c = 1 ∧ ∀ j, j < 8 → (gLg s j).rb ≠ .drain
    let stays : Prop := alone ∧ (gLg s (k.val / 8)).en = true
    let one : Prop := on ∧ stays ∧ x.q = [] ∧ lcCode c < 2 ∧ linkSends s k.val = true
    (¬on → keeps tw s) ∧
      (∀ w q, on → x.q = w :: q → Gives tw s fun t =>
        (gLane t k.val).tx.last = some w ∧ (gLane t k.val).rx = (gLane s k.val).rx) ∧
      (∀ w q, on → stays → x.q = w :: q → Gives tw s fun t =>
        (gLane t k.val).tx = { x with q := q, last := some w, owed := x.owed - 1 } ∧ ∀ j, j ≠ k.val → gLane t j = gLane s j) ∧
      (∀ w q, on → alone → (gLg s (k.val / 8)).en = false → l.asm.busy = false → x.owed ≤ 1 → x.q = w :: q → Gives tw s fun t =>
        (gLane t k.val).tx = { x with quiet := true, q := [], bits := [], owed := 0, last := some w }) ∧
      (on → x.q = [] → linkSends s f = false → keeps tw s) ∧
      (one → c.getLsbD 48 = true → l.asm.mkCnt = 0 → Gives tw s fun t =>
        (gLane t k.val).tx = { x with last := some (1, (gLane s k.val).mkpat), owed := x.owed - 1 } ∧
          (gLink t k.val).asm.mkCnt = lcMkInt c - 1) ∧
      (one → lcMarkers c = false → lcScr c = 0 → x.bits = [] → l.asm.cur = [] → l.asm.busy = false → Gives tw s fun t =>
        (gLane t k.val).tx = { x with last := some (1, (gLg s (k.val / 8)).idle), owed := x.owed - 1 })

/-- R317, R331–R337: EN checks the configuration: a refused one sets CFGERR and leaves the group off, an accepted one becomes live and its
links of one to eight lanes enter LOCKING. EN at 0 takes the links to OFF and discards their transmit queues. REBOND waits while another
group re-bonds; it checks the shadow, drains the links in REBONDING, holds the lanes quiet once the last words of their frames are out, then takes the shadow.
A REBOND written again in the ec in
which it clears runs once more (R13). CNTCLR clears every counter of the group's pages. -/
def Obligations.LaneGroupCommands : Prop :=
  ∀ (s : State) (g : Fin 8) (us : Nat), up s = true →
    let x := gLg s g.val
    let link (t : State) (i : Nat) : Link := gLink t (8 * g.val + i)
    let lane (t : State) (i : Nat) : Lane := gLane t (8 * g.val + i)
    let refused : Prop := lgRefused x = true
    let takes (t : State) (rebond : Bool) : Prop := (gLg t g.val).en = true ∧ (gLg t g.val).live = x.cfg ∧
      (gLg t g.val).cfg = x.cfg ∧ (gLg t g.val).rb = .idle ∧ (gLg t g.val).rebond = rebond ∧ (gLg t g.val).rbEc = false ∧ (gLg t g.val).cfgErr = x.cfgErr
    let inside (c : W64) : Prop := lcWidth c ≤ 8
    let first (c : W64) (i : Nat) : Prop := i < 8 ∧ i % lcWidth c = 0
    let busy : Prop := rbBusy s = true
    let starts (c : Instr) (again : Bool) : Prop :=
      (refused → Gives c s fun t => gLg t g.val = { x with cfgErr := true, rebond := again, rbEc := false, rb := .idle } ∧
          ∃ fieldNo, logAs s t (some (0x4040, [g.val, fieldNo]))) ∧
        (¬refused → x.en = false → Gives c s fun t => gLg t g.val = { x with live := x.cfg, rebond := again, rbEc := false, rb := .idle } ∧
          t.tr.link = s.tr.link ∧ t.tr.lane = s.tr.lane) ∧
        (¬refused → x.en = true → inside x.live → Gives c s fun t =>
          ((gLg t g.val).rb = .drain ∨ (gLg t g.val).rb = .quiet) ∧ (gLg t g.val).live = x.live ∧
            ∀ i, first x.live i → (link t i).st = .rebonding ∧ (link t i).fr.hold = true ∧ (link t i).asm.q = [])
    (x.en = true → keeps (.lgEnable g) s) ∧
      (lgRefused { x with cfg := x.cfg ||| 4 } = true) ∧
      (x.en = false → refused → Gives (.lgEnable g) s fun t => gLg t g.val = { x with cfgErr := true } ∧
        t.tr.link = s.tr.link ∧ ∃ fieldNo, logAs s t (some (0x4040, [g.val, fieldNo]))) ∧
      (x.en = false → ¬refused → x.rb = .idle → x.rbEc = false → inside x.cfg → Gives (.lgEnable g) s fun t =>
        takes t x.rebond ∧ (∀ i, first x.cfg i → (link t i).st = .locking ∨ (link t i).st = .up) ∧
          ∀ i, i < 8 → (lane t i).tx.quiet = false) ∧
      (x.en = false → keeps (.lgDisable g) s) ∧
      (x.en = true → inside x.live → Gives (.lgDisable g) s fun t => (gLg t g.val).en = false ∧
        ((gLg t g.val).rebond = true ↔ x.rebond = true ∧ x.rb = .idle) ∧
        (gLg t g.val).rb = .idle ∧
        ∀ i, first x.live i → (link t i).st = .off ∧ (link t i).fr.cur = none ∧ (link t i).asm.q = [] ∧
          ((link s i).asm.busy = false → (∀ j, j < lcWidth x.live → (lane s (i + j)).tx.owed = 0) →
            ∀ j, j < lcWidth x.live → (lane t (i + j)).tx.quiet = true)) ∧
      (x.rebond = true → Gives (.rebond g) s fun t => gLg t g.val = { x with rbEc := true } ∧ t.tr.link = s.tr.link) ∧
      (x.rebond = false → busy → Gives (.rebond g) s fun t => gLg t g.val = { x with rebond := true, rbEc := false } ∧
        t.tr.link = s.tr.link) ∧
      (x.rebond = false → ¬busy → starts (.rebond g) false) ∧
      (x.rebond = false ∨ busy → keeps (.rebondStart g) s) ∧ (x.rebond = true → ¬busy → starts (.rebondStart g) x.rbEc) ∧
      (x.rb ≠ .drain → keeps (.rebondDrainExpiry g) s) ∧
      (x.rb = .drain → inside x.live → Gives (.rebondDrainExpiry g) s fun t =>
        (∀ i, first x.live i → (link t i).fr.cur = none ∧
          ((link s i).fr.cur ≠ none → (link t i).frmErr = satInc (link s i).frmErr)) ∧
        ((∀ i, first x.live i → (link s i).asm.busy = false) → (∀ i, i < 8 → (lane s i).tx.owed = 0) →
          (gLg t g.val).rb = .quiet ∧ ∀ i, i < 8 → (lane t i).tx.quiet = true)) ∧
      (x.rb ≠ .quiet → keeps (.rebondQuietExpiry g us) s) ∧
      (x.rb = .quiet → x.en = true → inside x.live → inside x.cfg → Gives (.rebondQuietExpiry g us) s fun t =>
        takes t x.rbEc ∧
          ∀ i, first x.cfg i → (link t i).st = .locking ∨ (link t i).st = .up) ∧
      Gives (.cntclr g) s fun t => ∀ i, i < 8 →
        (lane t i = { lane s i with hdrErr := 0, dispErr := 0, unlock := 0, mkErr := 0 }) ∧
          (link t i).rxFrames = 0 ∧ (link t i).txFrames = 0 ∧ (link t i).crcBad = 0 ∧ (link t i).runt = 0 ∧
          (link t i).storeDrop = 0 ∧ (link t i).bpDrop = 0 ∧ (link t i).truncCnt = 0 ∧ (link t i).frmErr = 0 ∧
          (link t i).txErr = 0 ∧ (link t i).underrun = 0 ∧ (link t i).txqDrop = 0 ∧ (link t i).st = (link s i).st

/-! ### DUT ports (spec/10 R364–R381) -/

/-- R68, R69, R364, R365, R374–R376, R384: the transmit side of a DUT port. A packet of the delivery queue whose entry is acknowledged is
staged while the store has room: its entry is read back from the ring, its bytes are fetched, zeros with ERR where a read failed, and it
is visible three or four dc later (the model's choice, log 4). Beats of 128 bytes go out in order with their sideband, SOP on the first, each when `dp_tx_ready` is 1, no
earlier than the dc after the packet before, and with the last the packet leaves the queue and counts. A replaying port presents SOP in
dc DC - SPAN; later, or with nothing visible, it has diverged: DIVERGE, event 0x5020 once. -/
def Obligations.DutTransmitCommands : Prop :=
  ∀ (s : State) (n : Fin 16) (edges : Nat), dpRuns s n.val = true →
    let d := gDp s n.val
    let dc := d.dc + BitVec.ofNat 64 edges
    let v := d.dc.toNat + edges
    let room : Prop := dcRoom d edges = true
    let beat : Instr := .dpTxBeat n edges true
    let waits : Instr := .dpTxBeat n edges false
    let can : Prop := d.txDc.toNat < v ∧ room ∧ d.pbQ.length < 8
    let next (p : TxPkt) (i sop : Nat) : Prop := (∃ t0, d.pres = some (i, t0) ∧ sop = t0.toNat) ∨
      d.pres = none ∧ (d.mode ≠ .replay ∨ d.rpLate = true) ∧ i = 0 ∧ sop = max (d.txDc.toNat + 1) p.dc.toNat
    let sop : Instr := .replaySopPresent n edges
    let shown : Prop := ∃ p r, d.tx = p :: r ∧ p.dc.toNat ≤ v
    let p' (t : State) : Dp := gDp t n.val
    (∀ ready, d.tx = [] ∨ d.mode = .replay ∧ d.pres = none ∧ d.rpLate = false ∨ ¬can → keeps (.dpTxBeat n edges ready) s) ∧
      (∀ ready p tx i t0, d.tx = p :: tx → next p i t0 → v < t0 → keeps (.dpTxBeat n edges ready) s) ∧
      (∀ p tx i t0, can → d.tx = p :: tx → next p i t0 → t0 ≤ v → Gives waits s fun t =>
        (p' t).dc = dc ∧ (p' t).pres = some (i, BitVec.ofNat 64 t0) ∧ (p' t).tx = d.tx ∧ (p' t).dq = d.dq ∧ (p' t).txDc = d.txDc ∧
          (p' t).lastTx = d.lastTx ∧ dpOnly s t n.val) ∧
      (∀ p tx i t0, can → d.tx = p :: tx → next p i t0 → t0 ≤ v → (i + 1) * 128 < p.ent.len → Gives beat s fun t =>
        (p' t).dc = dc ∧ (p' t).txDc = dc ∧ (p' t).pres = some (i + 1, BitVec.ofNat 64 t0) ∧ (p' t).tx = d.tx ∧
          (p' t).dq = d.dq ∧ (p' t).lastTx = some ((p.data.drop (i * 128)).take 128, if i = 0 then 1 else 0) ∧ dpOnly s t n.val) ∧
      (∀ p tx i t0, can → d.tx = p :: tx → next p i t0 → t0 ≤ v → i * 128 < p.ent.len → p.ent.len ≤ (i + 1) * 128 →
        d.mode = .plain → d.recording = false → Gives beat s fun t => (p' t).dc = dc ∧ (p' t).pres = none ∧ (p' t).tx = tx ∧
          (p' t).dq = d.dq.tail ∧ (p' t).cntTx = satInc d.cntTx ∧
          (p' t).lastTx = some ((p.data.drop (i * 128)).take 128,
            BitVec.ofNat 16 (b2n (i = 0) + 2 + (p.ent.len - i * 128) % 128 * 4 + 512 * b2n (p.ent.err || p.err)))) ∧
      (∀ i e r, d.mode = .replay → d.pres = none → d.rpLate = false → d.rpTx = (i, e) :: r →
        let at_ := e.dc.toNat - e.span
        (v < at_ ∨ ¬room → keeps sop s) ∧
          (v = at_ → room → shown → Gives sop s fun t => (p' t).pres = some (0, dc) ∧
            (p' t).diverge = d.diverge ∧ (p' t).dc = dc ∧ dpOnly s t n.val) ∧
          (room → at_ < v ∨ v = at_ ∧ ¬shown →
            Gives sop s fun t => (p' t).diverge = true ∧ (p' t).rpLate = true ∧ (p' t).pres = none ∧ dpOnly s t n.val ∧
              logAs s t (if d.rpLogTx then none else some (0x5020, [n.val, i.toNat, dc.toNat])))) ∧
      (∀ e entry ans, s.mg.sm.frozen = false → d.dq[d.tx.length]? = some e → e.job = 0 ∨ jobDone s e.job = true →
        txStore d + (e.len + 127) / 128 * 128 ≤ 131072 →
        let stage : Instr := .dpStagePacket n entry ans
        let r := extRead s (ushSrc 3) 2 (dqSlot d d.tx.length) 16 entry
        let f := dqRead e r.2 entry
        let x := pktFetch r.1 3 f.handle f.len f.pool f.chain f.chidx ans
        let bytes := fetchBytes (List.replicate f.len 0) x.2.parts
        let short : Prop := f.chain = false ∧ 0 < f.len ∧ f.len ≤ 256 ∧ s.mv.au = [] ∧
          (tagsUsed (gMp r.1 (portOf (bufOff f.handle)))).length < 2048
        Gives stage s (fun t => (p' t).dq = setAt d.dq d.tx.length { f with job := 0 } ∧ ∃ vis, (vis = 3 ∨ vis = 4) ∧
            (p' t).tx = d.tx ++ [{ ent := f, data := bytes, err := x.2.parts.any fun y => y.2.isNone, lost := x.2.lost
                                   dc := d.dc + vis }]) ∧
          (∀ bs, short → ans.data = [.ok bs] → bytes = (bs ++ List.replicate f.len 0).take f.len ∧
            (x.2.parts.any fun y => y.2.isNone) = false) ∧
          (∀ a, short → ans.data = [a] → ansSt a ≠ .okay → bytes = List.replicate f.len 0 ∧
            (x.2.parts.any fun y => y.2.isNone) = true)) ∧
      (∀ e : DqEnt, e.len < 2 ^ 17 → e.od < 256 → e.chidx < 2 ^ 16 → dqRead e (some (dqBytes e)) (.ok (dqBytes e)) = e) ∧
      ∀ entry ans, d.dq.length ≤ d.tx.length → keeps (.dpStagePacket n entry ans) s

/-- R88, R344, R354, R366–R368, R370, R371: the receive side of a DUT port. SOP begins a packet, later beats join it, a beat outside a
packet counts in FRMERR; EOP ends it. A written packet enters the port's domain when its turn has come. The port raises its hold for the
first of its conditions and lowers it when none holds; a change of `dut_clk_running` enters one notice, or counts in CLKCHG while one
is out, and behind the curtain the level alone is followed; the port counts its DCLK edges, enabled or not, and a sample of 4,096 dc gives
a rate in Mb/s. -/
def Obligations.DutReceiveCommands : Prop :=
  (∀ (s : State) (n : Fin 16) (level : Bool), up s = false → (gDp s n.val).clkRun ≠ level →
    Gives (.dutClkRunningChange n level) s fun t => gDp t n.val = { gDp s n.val with clkRun := level } ∧ dpOnly s t n.val) ∧
  ∀ (s : State) (n : Fin 16) (data : List W8) (sop eop err level : Bool) (bytes : BitVec 7) (edges : Nat), up s = true →
    let d := gDp s n.val
    let dc := d.dc + BitVec.ofNat 64 edges
    let p' (t : State) : Dp := gDp t n.val
    let beat : Instr := .dpRxBeat n data sop eop bytes err edges
    let steps : Prop := dcRoom d edges = true
    let can : Prop := rxReadyPort s n.val = true ∧ steps ∧ d.rxDc.toNat < d.dc.toNat + edges
    let room : Prop := rxStore d + 128 ≤ 131072
    let raise : Instr := .dpHoldRaise n edges
    let adv := dcAdv s n.val edges
    let cond (i : Nat) : Prop := holdCond adv n.val i = true
    let may : Prop := d.en = true ∧ d.rstN = true ∧ d.hold = false ∧ d.grace = none ∧ steps
    let note : Prop := d.cfg.getLsbD 24 = true ∧ d.en = true
    let clk : Instr := .dutClkRunningChange n level
    (¬can → keeps beat s) ∧
      (can → room → d.rx = none → sop = true → eop = false → Gives beat s fun t => (p' t).rx = some (data.take 128, dc) ∧
        (p' t).dc = dc ∧ (p' t).rxDc = dc ∧ (p' t).frmErr = d.frmErr ∧ dpOnly s t n.val) ∧
      (∀ bs t0, can → room → d.rx = some (bs, t0) → d.rxDrop = false → sop = false → eop = false →
        bs.length + data.length ≤ 65536 → Gives beat s fun t => (p' t).rx = some (bs ++ data.take 128, t0) ∧
          (p' t).rxDc = dc ∧ (p' t).rxTrunc = d.rxTrunc ∧ dpOnly s t n.val) ∧
      (can → d.rx = none → d.rxDrop = false → sop = false → Gives beat s fun t => (p' t).frmErr = satInc d.frmErr ∧
        (p' t).rx = none ∧ (p' t).rxDc = dc ∧ dpOnly s t n.val) ∧
      (can → room → d.rx = none → sop = true → eop = true → d.mode ≠ .replay → s.tr.box.en = false → d.inq.live = 0 → Gives beat s fun t =>
        (p' t).rx = none ∧ (p' t).frmErr = satInc d.frmErr ∧ (p' t).inq = d.inq ∧ dpOnly s t n.val) ∧
      (∀ x rest, s.mg.sm.frozen = false → srcTurn s (64 + n.val) = true → d.pbQ.length < 8 → d.inq.writing = x :: rest →
        x.job = 0 ∨ jobDone s x.job = true → d.recording = false →
        let od := fld d.cfg 16 8
        windowFull s = false → domFull s od = false → Gives (.dpRxEnter n) s fun t => (p' t).inq.writing = rest ∧
          (p' t).cntRx = satInc d.cntRx ∧ ∃ w k, (gDom t od).q = (gDom s od).q ++ [w] ∧ gWin t w = some k ∧ k.src = 1 ∧
            k.handle = x.handles.headD 0 ∧ k.len = x.pkt.bytes.length ∧ k.seq = (gDom s od).nextSeq) ∧
      (∀ x rest, d.inq.writing = x :: rest → x.job ≠ 0 → jobDone s x.job = false → keeps (.dpRxEnter n) s) ∧
      (∀ i, may → 1 ≤ i → i ≤ 5 → cond i → (∀ j, 1 ≤ j → j < i → ¬cond j) → Gives raise s fun t =>
        (p' t).hold = true ∧ (p' t).cause = i ∧ (p' t).holds = satInc d.holds ∧ (p' t).dc = dc ∧ dpOnly s t n.val) ∧
      ((∀ i, 1 ≤ i → i ≤ 5 → ¬cond i) ∨ d.en = false ∨ d.rstN = false ∨ d.hold = true ∨ ¬steps → keeps raise s) ∧
      (d.hold = true → d.ckHold = false → (∀ i, 1 ≤ i → i ≤ 5 → holdCond s n.val i = false) → Gives (.dpHoldRelease n) s fun t =>
        p' t = { d with hold := false } ∧ dpOnly s t n.val) ∧
      ((∃ i, 1 ≤ i ∧ i ≤ 5 ∧ holdCond s n.val i = true) ∨ d.hold = false ∨ d.ckHold = true → keeps (.dpHoldRelease n) s) ∧
      (d.clkRun = level → keeps clk s) ∧
      (d.clkRun ≠ level → d.cause = 0 → ¬note → Gives clk s fun t => p' t = { d with clkRun := level } ∧ dpOnly s t n.val) ∧
      (d.clkRun ≠ level → d.cause ≠ 0 → level = true → ¬note → Gives clk s fun t =>
        p' t = { d with clkRun := true, grace := some (d.cause, d.dc.toNat + 4) } ∧ dpOnly s t n.val) ∧
      (d.clkRun ≠ level → d.cause = 0 → note → d.notice ≠ none → Gives clk s fun t =>
        p' t = { d with clkRun := level, clkChg := satInc d.clkChg } ∧ dpOnly s t n.val) ∧
      (d.clkRun ≠ level → note → d.notice = none → Gives clk s fun t => (p' t).clkRun = level ∧ ∃ w k,
        (p' t).notice = some (w, level) ∧ gWin t w = some k ∧ k.src = 3 ∧ k.len = 0 ∧ k.od = fld d.cfg 32 8 ∧
          k.info = BitVec.ofNat 16 ((if level then 1 else 0) + n.val * 256) ∧
          (gDom t k.od).q = (gDom s k.od).q ++ [w]) ∧
      (d.rstN = true → (gDp adv n.val).dc = dc) ∧ (d.rstN = false → adv = mDp s n.val id) ∧
      (¬steps → keeps (.drainSample n edges) s) ∧
      (steps → (∀ b t0, (gDp adv n.val).smp ≠ some (4096, b, t0)) → exec (.drainSample n edges) s = .next adv) ∧
      ∀ b t0, steps → (gDp adv n.val).smp = some (4096, b, t0) → (s.tb.now - t0).toNat ≠ 0 →
        Gives (.drainSample n edges) s fun t => (p' t).smp = none ∧ (p' t).dc = (gDp adv n.val).dc ∧
          (p' t).samples = (b * 8 * 40000 / (s.tb.now - t0).toNat :: d.samples).take 8 ∧ dpOnly s t n.val

/-- R71, R91, R96, R369, R373, R381: enabling a port whose ring does not lie in external memory sets CFGERR and leaves it off; PLAIN starts at
once; RECORD with the prompt book on asks that every domain of the port is empty, sets their next numbers to 0 and logs 0x5010.
Disabling abandons the packet that the port has begun to present, its SOP beat transferred or standing, and the one being received. `dp_rst_n` low sets the dc counter to 0. CNTCLR clears the
counters. -/
def Obligations.DutControlCommands : Prop :=
  ∀ (s : State) (n : Fin 16),
    let d := gDp s n.val
    let p' (t : State) : Dp := gDp t n.val
    let gives (c : Instr) (y : Dp) : Prop := Gives c s fun t => p' t = y ∧ dpOnly s t n.val
    let base := fld d.dqBase 12 36 * 4096
    let ring : Prop := 0x4000000000 ≤ base ∧ base + 2 ^ fld d.dqBase 48 5 * 16 ≤ 0x8000000000
    let on : Prop := up s = true ∧ d.en = false ∧ ring
    let mode := fld d.cfg 0 2
    let off : Dp := { d with
      en := false, hold := false, fast := false, recording := false, rx := none, rxTrunc := false, rxDrop := false
      frmErr := if d.rx.isSome then satInc d.frmErr else d.frmErr }
    let calm : Prop := d.inq.live = 0 ∧ boxRun s = s
    let begins : Prop := begun s n.val = true
    let res : Dp := { d with
      rstN := false, dc := 0, txDc := 0, rxDc := 0, hold := false, grace := none, samples := [], smp := none, rx := none
      rxTrunc := false, rxDrop := false, tx := d.tx.map fun p => { p with dc := 0 } }
    (up s = true → d.en = true → keeps (.dpEnable n) s) ∧
      (up s = true → d.en = false → ¬ring → gives (.dpEnable n) { d with cfgErr := true }) ∧
      (on → d.mode ≠ .replay → mode ≠ 1 → gives (.dpEnable n) { d with
        en := true, fast := false, mode := .plain, recording := false }) ∧
      (on → d.mode = .replay → gives (.dpEnable n) { d with en := true, fast := false, recording := false }) ∧
      (on → d.mode ≠ .replay → mode = 1 → s.tr.ush.pbEn = false → gives (.dpEnable n) { d with
        en := true, fast := false, mode := .record, recording := false }) ∧
      (on → d.mode ≠ .replay → mode = 1 → s.tr.ush.pbEn = true → (∃ od, od ∈ dpDoms d ∧ (gDom s od).q ≠ []) →
        gives (.dpEnable n) { d with cfgErr := true }) ∧
      (on → d.mode ≠ .replay → mode = 1 → s.tr.ush.pbEn = true → (∀ od, od ∈ dpDoms d → (gDom s od).q = []) →
        Gives (.dpEnable n) s fun t => p' t = { d with en := true, fast := false, mode := .record, recording := true } ∧
          (∀ od, od ∈ dpDoms d → gDom t od = { gDom s od with nextSeq := 0 }) ∧
          (∀ od, od ∉ dpDoms d → gDom t od = gDom s od) ∧
          logAs s t (some (0x5010, [n.val, s.tr.ush.pbWr.toNat]))) ∧
      (up s = true → d.en = false → keeps (.dpDisable n) s) ∧
      (begins ↔ ∃ p tx, d.tx = p :: tx ∧ (d.pres ≠ none ∨
        (d.mode ≠ .replay ∨ d.rpLate = true) ∧ d.txDc.toNat < d.dc.toNat ∧ p.dc.toNat ≤ d.dc.toNat)) ∧
      (up s = true → d.en = true → ¬begins → d.mode ≠ .replay → calm → gives (.dpDisable n) off) ∧
      (∀ p tx, up s = true → d.en = true → begins → d.tx = p :: tx → Gives (.dpDisable n) s fun t =>
        (p' t).en = false ∧ (p' t).pres = none ∧ (p' t).tx = tx ∧ (p' t).dq = d.dq.tail ∧ (p' t).disDrop = satInc d.disDrop) ∧
      (up s = true → d.en = true → ¬begins → d.mode = .replay → calm → Gives (.dpDisable n) s fun t =>
        (p' t).en = false ∧ (p' t).mode = .plain ∧ (p' t).rpTx = [] ∧ (p' t).rpRx = [] ∧ logAs s t (some (0x5012, [n.val]))) ∧
      (up s = true → gives (.dpCntclr n) { d with
        cntTx := 0, cntRx := 0, rstDrop := 0, disDrop := 0, truncCnt := 0, frmErr := 0, holds := 0 }) ∧
      (d.rstN = false → keeps (.dpRstNAssert n) s ∧ gives (.dpRstNRelease n) { d with rstN := true }) ∧
      (d.rstN = true → keeps (.dpRstNRelease n) s) ∧
      (d.rstN = true → up s = false → gives (.dpRstNAssert n) { d with rstN := false }) ∧
      (d.rstN = true → up s = true → ¬begins → d.mode ≠ .replay → calm → gives (.dpRstNAssert n) res) ∧
      (d.rstN = true → up s = true → ¬begins → d.mode = .replay → Gives (.dpRstNAssert n) s fun t => (p' t).rstN = false ∧
        (p' t).dc = 0 ∧ (p' t).mode = .plain ∧ (p' t).rpTx = [] ∧ (p' t).rpRx = []) ∧
      ∀ p tx, d.rstN = true → up s = true → begins → d.tx = p :: tx → Gives (.dpRstNAssert n) s fun t =>
        (p' t).rstN = false ∧ (p' t).dc = 0 ∧ (p' t).pres = none ∧ (p' t).tx = tx.map (fun p => { p with dc := 0 }) ∧ (p' t).dq = d.dq.tail ∧
          (p' t).rstDrop = satInc d.rstDrop

/-! ### DMA channels (spec/11 R394–R406) -/

/-- R397, R399, R400, R403: what software does to a DMA channel. An enable is refused with CFGERR for a ring of a wrong size; a paused
channel keeps still; an armed shadow set starts at once on an idle channel in rehearsal mode, or is refused with code 0x04. EN at 0
and ABORT stop a transfer in the middle. The PAUSED channel goes on to RUN while bytes are left, and otherwise to IDLE. -/
def Obligations.DmaControl : Prop :=
  ∀ (s : State) (c : Fin 64), up s = true →
    let d := gDc s c.val
    let p' (t : State) : Dc := gDc t c.val
    let gives (i : Instr) (y : Dc) : Prop := Gives i s fun t => p' t = y ∧ dcOnly s t c.val
    let wrong : Prop := d.rehearsal = false ∧ (d.log2.toNat < 2 ∨ 16 < d.log2.toNat)
    let busy : Prop := d.st = .run ∨ d.st = .pausing ∨ d.st = .paused
    let stopped : Dc := { d with st := .aborting, stage := [], bad := none, fetch := false }
    let starts (x : DSet) (t : State) : Prop := (p' t).st = .run ∧ (p' t).act = x ∧ (p' t).loaded = true ∧ (p' t).shValid = false
    (d.st ≠ .off → keeps (.dcEnable c) s) ∧
      (d.st = .off → wrong → gives (.dcEnable c) { d with en := false, cfgErr := true }) ∧
      (d.st = .off → ¬wrong → d.loaded = false → d.pause = true → gives (.dcEnable c) { d with
        en := true, st := .paused, fetch := !d.rehearsal }) ∧
      (d.st = .off → ¬wrong → d.loaded = false → d.pause = false → d.rehearsal = false ∨ d.shValid = false → gives (.dcEnable c) { d with
        en := true, st := .idle, fetch := !d.rehearsal }) ∧
      (d.st = .off → d.loaded = false → d.pause = false → d.rehearsal = true → d.shValid = true → dsetBad d.shd = false →
        Gives (.dcEnable c) s fun t => starts d.shd t ∧ (p' t).en = true) ∧
      (d.st = .run ∨ d.st = .pausing → gives (.dcDisable c) { stopped with en := false }) ∧
      (d.st = .off ∨ d.st = .aborting → gives (.dcDisable c) { d with en := false }) ∧
      (d.st = .idle ∨ d.st = .paused ∨ d.st = .error → dcQuiet d → gives (.dcDisable c) { d with
        st := .off, en := false, rdOut := [], wrOut := [], stage := [], fetch := false, loaded := false, errOpen := false }) ∧
      gives (.pause c) { d with
        pause := true, st := if d.st = .idle then .paused else if d.st = .run then .pausing else d.st } ∧
      (d.st ≠ .paused → gives (.pauseClear c) { d with pause := false }) ∧
      (d.st = .paused → d.loaded = false → d.rehearsal = false ∨ d.shValid = false →
        gives (.pauseClear c) { d with pause := false, st := .idle }) ∧
      (d.st = .paused → d.loaded = true → d.wrPos < d.act.len → gives (.pauseClear c) { d with pause := false, st := .run }) ∧
      (d.st = .paused → d.loaded = true → d.act.len ≤ d.wrPos → gives (.pauseClear c) { d with pause := false, st := .idle }) ∧
      (d.st = .paused → d.loaded = false → d.rehearsal = true → d.shValid = true → dsetBad d.shd = false →
        Gives (.pauseClear c) s fun t => starts d.shd t ∧ (p' t).pause = false) ∧
      (busy → gives (.dmaAbort c) stopped) ∧ (¬busy → keeps (.dmaAbort c) s) ∧
      (d.st ≠ .idle → gives (.arm c) { d with shValid := true }) ∧
      (d.st = .idle → d.loaded = true ∨ d.pause = false ∧ d.rehearsal = false → gives (.arm c) { d with shValid := true }) ∧
      (d.st = .idle → d.loaded = false → d.pause = false → d.rehearsal = true → dsetBad d.shd = false → Gives (.arm c) s fun t => starts d.shd t) ∧
      (d.st = .idle → d.loaded = false → d.pause = false → d.rehearsal = true → dsetBad d.shd = true → dcQuiet d → Gives (.arm c) s fun t =>
        dcFailed s t c.val 0x04 d.errAddr ∧ (p' t).act = d.shd ∧ t.ram = s.ram ∧ t.ms = s.ms) ∧
      gives (.doorbell c) { d with dbPend := true }

/-- R396, R397, R401, R402, R404: what a DMA channel does of itself. The fetch of descriptor NEXT leaves the channel idle where OWN is 0,
refuses a bad descriptor with code 0x04, ends in error 0x06 at the descriptor's address where it fails, and else loads the set
and runs it. The slots of an ec go to the highest PRI that can use them, in turn; a read stages at most 2,048 bytes, a fill stages its
pattern, and a write inside local memory writes exactly its bytes, at most 64. Completion counts, tells the threads that name the
channel, sets the done map for HINT, and in ring mode advances NEXT; an error stops the channel. -/
def Obligations.DmaTransfers : Prop :=
  (∀ (s : State) (last : Tab Nat) (can : Nat → Bool),
    let mine (j : Nat) : Prop := j ∈ s.mv.dc.map Prod.fst ∧ can j = true
    let pri (j : Nat) : Nat := (gDc s j).pri.toNat
    let rank (j : Nat) : Nat := (j + 63 - tget 63 last (pri j)) % 64
    (slotFor s last can = none ↔ ∀ j, ¬mine j) ∧
      ∀ c, slotFor s last can = some c → mine c ∧ (∀ j, mine j → pri j ≤ pri c) ∧
        ∀ j, mine j → pri j = pri c → rank c ≤ rank j) ∧
  (∀ (s : State) (c p off : Nat) (data : List W8),
    let d := gDc s c
    let a := d.act.dst.toNat + d.wrPos
    let b := d.act.src.toNat + d.rdPos
    let moves : Prop := (d.st = .run ∨ d.st = .pausing) ∧ d.bad = none
    let left := min (d.act.len - d.rdPos) (2048 - dcStaged d)
    let n := min d.stage.length (64 - a % 64)
    let m := min left (256 - off % 256)
    let live : Prop := d.st = .run ∧ d.bad = none ∧ left ≠ 0 ∧ s.mg.sm.frozen = false
    let reads : Prop := live ∧ d.act.flags.getLsbD 2 = false
    (¬moves ∨ d.stage = [] → dcWrite s c = none) ∧ (¬reads → dcRead s c = none) ∧
      (moves → d.stage ≠ [] → spaceOf a = .mesh p off → peOn s p = true → (∀ e, e ∈ s.ram.lmEc → e.pipe = false) →
        ∃ t, dcWrite s c = some t ∧ gDc t c = { d with
            stage := d.stage.drop n, wrPos := d.wrPos + n, acked := d.acked + n } ∧
          ∀ q, mget t.ram.lm q = if p * 0x40000 + off ≤ q ∧ q < p * 0x40000 + off + n then
            d.stage.getD (q - (p * 0x40000 + off)) 0 else mget s.ram.lm q) ∧
      (reads → spaceOf b = .mesh p off → peOn s p = true → lmRead s false p off (min left (64 - b % 64)) = some data →
        dcRead s c = some (mDc s c fun d => { d with stage := d.stage ++ data, rdPos := d.rdPos + data.length })) ∧
      (reads → spaceOf b = .ext off → ∃ t j, dcRead s c = some t ∧ gDc t c = { d with
        rdPos := d.rdPos + m, rdOut := d.rdOut ++ [(j, m)] }) ∧
      (live → d.act.flags.getLsbD 2 = true → dcPattern s c = mDc s c fun d => { d with
        rdPos := d.rdPos + left
        stage := d.stage ++ (List.range left).map fun i => BitVec.ofNat 8 (d.act.pat.toNat / 256 ^ ((d.rdPos + i) % 4)) })) ∧
  ∀ (s : State) (c : Fin 64) (ans : MemAns), live s = true →
    let d := gDc s c.val
    let p' (t : State) : Dc := gDc t c.val
    let fetch : Instr := .dmaDescriptorFetch c ans
    let fin : Instr := .dmaCompletion c ans
    let a := descAddr d
    let due : Prop := d.st = .idle ∧ d.loaded = false ∧ d.rehearsal = false ∧ (d.fetch = true ∨ d.dbPend = true)
    let s1 := mDc s c.val fun d => { d with fetch := false, dbPend := false }
    let read (s2 : State) (bs : List W8) : Prop := due ∧ ringRead s1 c.val a 32 ans = (s2, some bs)
    let ended : Prop := (d.st = .run ∨ d.st = .idle) ∧ d.loaded = true ∧ d.bad = none ∧ d.wrPos = d.act.len ∧
      (d.act.flags.getLsbD 0 = true → d.wrOut = [])
    let counted (t : State) : Prop := (p' t).done = true ∧ (p' t).doneCnt = d.doneCnt + 1 ∧ dmaTold s t c.val ∧
      t.mv.doneMap = if d.act.flags.getLsbD 1 then setBit s.mv.doneMap c.val else s.mv.doneMap
    let drained : Prop := d.st = .pausing ∧ d.bad = none ∧ d.stage = [] ∧ dcQuiet d
    (¬due → keeps fetch s) ∧
      (∀ s2, due → ringRead s1 c.val a 32 ans = (s2, none) → Gives fetch s fun t => (p' t).st = .error ∧
        (p' t).errCode = 0x06 ∧ (p' t).errAddr = BitVec.ofNat 48 a ∧ (p' t).next = d.next) ∧
      (∀ s2 bs, read s2 bs → (descOf bs).2.2.1 = false → Gives fetch s fun t => t = s2 ∧ p' t = { d with
        fetch := false, dbPend := false }) ∧
      (∀ s2 bs, read s2 bs → (descOf bs).2.2.1 = true → (descOf bs).2.2.2 = true ∨ dsetBad (descOf bs).1 = true →
        Gives fetch s fun t => (p' t).st = .error ∧ (p' t).errCode = 0x04 ∧ (p' t).act = (descOf bs).1) ∧
      (∀ s2 bs, read s2 bs → (descOf bs).2.2 = (true, false) → dsetBad (descOf bs).1 = false → Gives fetch s fun t =>
        (p' t).st = .run ∧ (p' t).act = (descOf bs).1 ∧ (p' t).stop = (descOf bs).2.1 ∧ (p' t).loaded = true ∧
          (p' t).fetch = false ∧ (p' t).dbPend = false ∧ (p' t).next = d.next) ∧
      (¬ended → keeps fin s) ∧
      (ended → d.rehearsal = true → d.pause = false → d.shValid = false → Gives fin s fun t => counted t ∧ p' t = { d with
        st := .idle, loaded := false, done := true, doneCnt := d.doneCnt + 1, acked := d.act.len
        wrOut := d.wrOut.map fun w => (w.1, 0, if w.2.1 = 0 then w.2.2 else d.act.dst.toNat + w.2.2) }) ∧
      (ended → d.rehearsal = true → d.pause = true → Gives fin s fun t => counted t ∧ (p' t).st = .paused ∧
        (p' t).loaded = false) ∧
      (ended → d.rehearsal = true → d.pause = false → d.shValid = true → dsetBad d.shd = false → Gives fin s fun t =>
        (p' t).st = .run ∧ (p' t).act = d.shd ∧ (p' t).shValid = false ∧ (p' t).done = true ∧
          (p' t).doneCnt = d.doneCnt + 1) ∧
      (∀ s2, ended → d.rehearsal = false → d.pause = false → ringWrite s c.val (a + 30) [0, 0] ans = (s2, true) →
        Gives fin s fun t => (p' t).st = .idle ∧ (p' t).next = d.next + 1 ∧ (p' t).fetch = !d.stop ∧ (p' t).loaded = false ∧
          (p' t).done = true ∧ (p' t).doneCnt = d.doneCnt + 1 ∧ t.ram = s2.ram) ∧
      (∀ s2, ended → d.rehearsal = false → ringWrite s c.val (a + 30) [0, 0] ans = (s2, false) → Gives fin s fun t =>
        (p' t).st = .error ∧ (p' t).errCode = 0x06 ∧ (p' t).errAddr = BitVec.ofNat 48 (a + 30) ∧ (p' t).next = d.next) ∧
      (∀ code e, d.bad = some (code, e) → d.st = .run ∨ d.st = .pausing → dcQuiet d → Gives (.dmaError c) s fun t =>
        dcFailed s t c.val code e ∧ (p' t).stage = [] ∧ (d.rehearsal = true → t.ram = s.ram ∧ t.ms = s.ms)) ∧
      (d.bad = none → d.st ≠ .error ∨ d.errOpen = false → keeps (.dmaError c) s) ∧
      (d.bad = none → d.st = .error → d.errOpen = true → dcQuiet d → Gives (.dmaError c) s fun t =>
        dcFailed s t c.val d.errCode d.errAddr ∧ (p' t).errOpen = false) ∧
      (¬drained → keeps (.dmaPaused c) s) ∧
      (drained → d.pause = true → Gives (.dmaPaused c) s fun t => p' t = { d with st := .paused } ∧ dcOnly s t c.val) ∧
      (drained → d.pause = false → d.loaded = true → Gives (.dmaPaused c) s fun t => dcOnly s t c.val ∧
        p' t = { d with st := if d.wrPos < d.act.len then .run else .idle }) ∧
      (d.st ≠ .aborting ∨ dcDrained s d = false → keeps (.dmaAbortDone c) s) ∧
      (d.st = .aborting → dcQuiet d → Gives (.dmaAbortDone c) s fun t => dcOnly s t c.val ∧ p' t = { d with
        st := .off, en := false, rdOut := [], wrOut := [], stage := [], fetch := false, loaded := false, errOpen := false })

/-! ### Atomic units and memory ports (spec/11 R407–R419, spec/02 R51–R59) -/

/-- R409–R411, R416, R419: a line that has been read runs the operation queued on it, a compare-and-swap of a thread or of the host: the word
changes when it equals the comparand, T says so, and the old word is answered; a failed read answers fault 0x06 or 0x05, or ERR at the
host, and the line is not held. A line that changed is written back, a clean one only released, and one that a queued operation needs
stays; a failed write-back logs 0x2105. The walk of R416 breaks a lock that its recorded owner still holds, and takes the entry out. GO is discarded while BUSY, refuses a misaligned address with 0x04 and one outside
external memory and the wings with 0x05. -/
def Obligations.AtomicUnitCommands : Prop :=
  ∀ (s : State) (u : Fin 9) (line : W48), up s = true →
    let a := gAu s u.val
    let n := line.toNat
    let fill : Instr := .auLineFill u line
    let back : Instr := .auLineWriteback u line
    let ans (j : Nat) : MpSt := worst (jobAns s j)
    let arrives (j : Nat) (data : List W8) : Prop :=
      if u.val = 8 then badHit s.ram.wingsBad (n * 64 - wingsBase) 64 = false ∧ data = mread s.ram.wings (n * 64 - wingsBase) 64
      else jobDone s j = true ∧ ans j = .okay ∧ data = jobData (jobAns s j)
    let fails (j : Nat) (c : W8) : Prop :=
      if u.val = 8 then badHit s.ram.wingsBad (n * 64 - wingsBase) 64 = true ∧ c = 0x06
      else jobDone s j = true ∧ (ans j = .dataErr ∧ c = 0x06 ∨ ans j = .decErr ∧ c = 0x05 ∨ ans j = .timeout ∧ c = 0x05)
    let cas (op : AuOp) : Prop := op.fn = 1 ∧ op.addr.toNat / 64 = n ∧ op.addr.toNat % 8 = 0
    let word (data : List W8) (op : AuOp) : Nat := leNat ((data.drop (op.addr.toNat % 64)).take 8)
    let held (t : State) (data : List W8) (op : AuOp) : Prop := (gAu t u.val).q = [] ∧ ∃ l,
      tget none (gAu t u.val).lines n = some l ∧ l.last = op.master ∧ l.dirty = decide (word data op = op.x.toNat) ∧
        l.data = if word data op = op.x.toNat then splice data (op.addr.toNat % 64) (leBytes 8 op.y.toNat) else data
    let freed (t : State) : Prop := tget none (gAu t u.val).lines n = none ∧
      ∀ m, m ≠ n → tget none (gAu t u.val).lines m = tget none a.lines m
    let off := n * 64 - extBase
    let h := s.mv.hcas
    let wrong (c : W8) : Prop := Gives .go s fun t => t.mv.hcas = { h with err := true, code := c } ∧
      t = { s with mv := { s.mv with hcas := t.mv.hcas } }
    let v := auOf h.addr.toNat
    let served : Prop := h.busy = false ∧ h.addr.toNat % 8 = 0 ∧
      ((∃ o, spaceOf h.addr.toNat = .ext o) ∨ ∃ o, spaceOf h.addr.toNat = .wings o)
    ((∀ f, f ∈ a.fills → f.1 ≠ n) → keeps fill s) ∧
      (∀ j op data, a.fills.find? (fun f => decide (f.1 = n)) = some (n, j) → arrives j data → a.q = [op] → cas op →
        (op.master < 2048 → awaitsAtom s op.master op.job = true → Gives fill s fun t => held t data op ∧
          t.mv.auFin = s.mv.auFin ++ [{
            job := op.job, old := BitVec.ofNat 64 (word data op), t := decide (word data op = op.x.toNat), fault := none }]) ∧
        (op.master = 0xF00 → Gives fill s fun t => held t data op ∧ t.mv.hcas = { h with
          busy := false, t := decide (word data op = op.x.toNat), old := BitVec.ofNat 64 (word data op) })) ∧
      (∀ j data w o, a.fills.find? (fun f => decide (f.1 = n)) = some (n, j) → arrives j data → w / 64 = n → w < 2 ^ 48 → w % 8 = 0 → o < 4096 →
        a.q = [walkAuOp (w, o)] → lkOwner (leNat ((data.drop (w % 64)).take 8)) = o →
        lkBroken (leNat ((data.drop (w % 64)).take 8)) = false → Gives fill s fun t => (gAu t u.val).q = [] ∧
          (gAu t u.val).holdings = a.holdings.erase (w, o) ∧ logAs s t (some (0x2301, [u.val, w, o])) ∧
          ∃ l, tget none (gAu t u.val).lines n = some l ∧ l.dirty = true ∧ l.data =
            splice data (w % 64) (leBytes 8 (leNat ((data.drop (w % 64)).take 8) + 2 ^ 51))) ∧
      (∀ j op c, a.fills.find? (fun f => decide (f.1 = n)) = some (n, j) → fails j c → a.q = [op] → cas op →
        tget none a.lines n = none →
        (op.master < 2048 → awaitsAtom s op.master op.job = true → Gives fill s fun t => freed t ∧ (gAu t u.val).q = [] ∧
          t.mv.auFin = s.mv.auFin ++ [{ job := op.job, old := 0, t := false, fault := some c }]) ∧
        (op.master = 0xF00 → Gives fill s fun t => freed t ∧ (gAu t u.val).q = [] ∧ t.mv.hcas = { h with
          busy := false, err := true, code := c })) ∧
      (∀ op, op ∈ a.q → op.addr.toNat / 64 = n → a.wbs = [] → keeps back s) ∧
      (∀ l, tget none a.lines n = some l → a.q = [] → l.dirty = false → Gives back s fun t =>
        freed t ∧ t.ram = s.ram ∧ t.ms = s.ms ∧ (gAu t u.val).wbs = a.wbs) ∧
      (∀ l, tget none a.lines n = some l → a.q = [] → l.dirty = true → l.data.length = 64 → u.val = 8 →
        Gives back s fun t => freed t ∧ ∀ q, mget t.ram.wings q =
          if n * 64 - wingsBase ≤ q ∧ q < n * 64 - wingsBase + 64 then l.data.getD (q - (n * 64 - wingsBase)) 0
          else mget s.ram.wings q) ∧
      (∀ l, tget none a.lines n = some l → a.q = [] → l.dirty = true → l.data.length = 64 → l.last < 4096 → u.val < 8 →
        let p := gMp s (portOf off)
        p.stage.length < 512 → p.wait = [] → Gives back s fun t => freed t ∧ t.ram = s.ram ∧
          (gAu t u.val).wbs = a.wbs ++ [(n, s.ms.nextJob)] ∧ (gMp t (portOf off)).stage = p.stage ++ [{
            write := true, off := off, n := 64, data := l.data, mask := [], src := srcId 15 l.last, qos := qosOf l.last
            job := s.ms.nextJob }]) ∧
      (∀ j, tget none a.lines n = none → a.wbs.find? (fun f => decide (f.1 = n)) = some (n, j) → a.q = [] →
        jobDone s j = true → Gives back s fun t => (gAu t u.val).wbs = a.wbs.filter (fun f => decide (f.1 ≠ n)) ∧ t.ram = s.ram ∧
          logAs s t (if ans j = .okay then none else some (0x2105, [u.val, n * 64]))) ∧
      (tget none a.lines n = none → (∀ f, f ∈ a.wbs → f.1 ≠ n) → keeps back s) ∧
      (h.busy = true → keeps .go s) ∧ (h.busy = false → h.addr.toNat % 8 ≠ 0 → wrong 0x04) ∧
      (h.busy = false → h.addr.toNat % 8 = 0 → (∀ o, spaceOf h.addr.toNat ≠ .ext o) → (∀ o, spaceOf h.addr.toNat ≠ .wings o) →
        wrong 0x05) ∧
      (served → (gAu s v).q = [] → tget none (gAu s v).lines (h.addr.toNat / 64) = none → (gAu s v).wbs = [] →
        (gAu s v).fills = [] → (gAu s v).lines.length < 64 → Gives .go s fun t => t.mv.hcas = { h with busy := true } ∧
          (gAu t v).q = [{ master := 0xF00, fn := 1, addr := h.addr, x := h.cmp, y := h.new, job := s.ms.nextJob }] ∧
          (gAu t v).fills = [(h.addr.toNat / 64, s.ms.nextJob + 1)]) ∧
      (∀ l, served → (gAu s v).q = [] → tget none (gAu s v).lines (h.addr.toNat / 64) = some l → Gives .go s fun t =>
        let old := leNat ((l.data.drop (h.addr.toNat % 64)).take 8)
        t.mv.hcas = { h with busy := false, t := decide (old = h.cmp.toNat), old := BitVec.ofNat 64 old } ∧
          (gAu t v).q = [] ∧ ∃ l', tget none (gAu t v).lines (h.addr.toNat / 64) = some l' ∧ l'.data =
            if old = h.cmp.toNat then splice l.data (h.addr.toNat % 64) (leBytes 8 h.new.toNat) else l.data)

/-- R52–R57, R59: a memory port. The oldest staged request is accepted under a tag that no outstanding request and no timed-out one
holds, and the next waiting one enters staging. A response ends its request with the worst status of its beats; a parity error counts
as DATAERR. A response for no request is discarded, with TAG_UNEXP; for a tag of a request that timed out it frees the tag. A
timeout ends the request, and keeps the tag of an accepted one. -/
def Obligations.MemoryPortCommands : Prop :=
  ∀ (s : State) (m : Fin 8) (tag : BitVec 11) (beats : List MpBeat) (job : Nat), mpUp s = true →
    let p := gMp s m.val
    let p' (t : State) : Mp := gMp t m.val
    let used := p.out.map Prod.fst ++ p.stuck
    let ask : Instr := .mpRequest m
    let driven (t : State) (k : Nat) (r : MpReq) : Prop :=
      (∃ x, (p' t).last = some x ∧ x.addr = BitVec.ofNat 48 (localAddr r.off / 64 * 64) ∧ x.len = BitVec.ofNat 6 (mpBeats r - 1) ∧
        x.op = (if r.write then 1 else 0) ∧ x.src = r.src ∧ x.tag.toNat = k ∧ x.qos = r.qos) ∧
      (r.write = false → (p' t).wd = p.wd ∧ (p' t).wdTag = p.wdTag) ∧
      (r.write = true → (p' t).wd.length = mpBeats r ∧ (p' t).wdTag = some k ∧
        ∀ j w, (p' t).wd[j]? = some w → w.last = decide (j + 1 = mpBeats r) ∧ w.par = wdPar w.data ∧ w.data.length = 64 ∧
          ∀ i, i < 64 →
            let a := r.off / 64 * 64 + 64 * j + i
            w.be.getLsbD i = wdEnabled r a ∧ (wdEnabled r a = true → w.data.getD i 0 = r.data.getD (a - r.off) 0))
    let resp : Instr := .mpResponse m tag beats
    let late : Instr := .mpTimeout m job
    let own : Option MpReq := tget none p.out tag.toNat
    let raw (r : MpReq) : Bool := decide (r.src.toNat / 4096 = 15) || (gAu s (portOf r.off)).lines.isEmpty
    let fin (t : State) (r : MpReq) (st : MpSt) (data : List W8) : Prop := t.ms.fin =
      if r.job = 0 then s.ms.fin else s.ms.fin ++ [{ job := r.job, off := r.off, n := r.n, st := st, data := data }]
    let werr (t : State) (r : MpReq) : Prop := t.ms.hwWerr = (s.ms.hwWerr || (r.write && decide (r.src = hostSrc)))
    let gone (t : State) : Prop := (p' t).out = tdel p.out tag.toNat ∧ (p' t).stuck = p.stuck ∧ ∀ j, j ≠ m.val → gMp t j = gMp s j
    let one (r : MpReq) (b : MpBeat) : Prop := own = some r ∧ beats = [b] ∧ (r.write = true ∨ mpBeats r = 1)
    let ev (r : MpReq) (k : Nat) : W16 × List Nat := (0x2104, [m.val, r.src.toNat, localAddr r.off, k])
    (p.stage = [] ∨ 2048 ≤ used.length → keeps ask s) ∧
      (∀ r rest, p.stage = r :: rest → used.length < 2048 → Gives ask s fun t => ∃ k, k < 2048 ∧ k ∉ used ∧
        (p' t).out = tset none p.out k (some r) ∧ driven t k r ∧ (p' t).reqs = satInc p.reqs ∧
        (p' t).stage = rest ++ p.wait.take (512 - rest.length) ∧ (p' t).wait = p.wait.drop (512 - rest.length) ∧
        (p' t).stuck = p.stuck ∧ ∀ j, j ≠ m.val → gMp t j = gMp s j) ∧
      (∀ r b, own = some r → r.write = true → beats = [b] → b.parOk = true → b.status = 0 → GivesMovers resp s fun t =>
        gone t ∧ fin t r .okay [] ∧ mpOnly s t m.val ∧ (p' t).errRsp = p.errRsp ∧ logAs s t none) ∧
      (∀ r, own = some r → r.write = false → beats.length = mpBeats r → raw r = true →
        (∀ b, b ∈ beats → b.parOk = true ∧ b.status = 0) → GivesMovers resp s fun t => gone t ∧ mpOnly s t m.val ∧
          fin t r .okay (((beats.map MpBeat.data).flatten.drop (r.off % 64)).take r.n) ∧ logAs s t none) ∧
      (∀ r b, one r b → b.parOk = true → 2 ≤ b.status.toNat → GivesMovers resp s fun t => gone t ∧ werr t r ∧
        (p' t).errRsp = satInc p.errRsp ∧ logAs s t (some (ev r 2)) ∧
        ∃ data, fin t r .decErr data) ∧
      (∀ r b, one r b → b.parOk = true → b.status = 1 → GivesMovers resp s fun t => gone t ∧ werr t r ∧
        (p' t).errRsp = satInc p.errRsp ∧ logAs s t (some (ev r 1)) ∧ ∃ data, fin t r .dataErr data) ∧
      (∀ r b, one r b → b.parOk = false → b.status = 0 → GivesMovers resp s fun t => gone t ∧ werr t r ∧
        (p' t).rspPerr = true ∧ logAs (logEv s 0x2103 [m.val, tag.toNat]) t (some (ev r 1)) ∧ ∃ data, fin t r .dataErr data) ∧
      (∀ r, own = some r → r.write = false → beats.length < mpBeats r → (∀ b, b ∈ beats → b.parOk = true ∧ b.status.toNat < 2) →
        GivesMovers resp s fun t => gone t ∧ logAs s t (some (ev r 1)) ∧ ∃ data, fin t r .dataErr data) ∧
      (own = none → tag.toNat ∈ p.stuck → Gives resp s fun t =>
        p' t = { p with stuck := p.stuck.filter fun k => decide (k ≠ tag.toNat) } ∧ mpOnly s t m.val ∧ logAs s t none) ∧
      (∀ b, own = none → tag.toNat ∉ p.stuck → beats = [b] → Gives resp s fun t =>
        p' t = { p with tagUnexp := true } ∧ mpOnly s t m.val ∧ logAs s t (some (0x2102, [m.val, tag.toNat]))) ∧
      (∀ pre k r post, p.out = pre ++ (k, some r) :: post → r.job = job → (∀ o x, o ∈ pre → o.2 = some x → x.job ≠ job) →
        GivesMovers late s fun t => (p' t).out = tdel p.out k ∧ (p' t).stuck = insAsc k p.stuck ∧
          (p' t).tmos = satInc p.tmos ∧ (p' t).stage = p.stage ∧ werr t r ∧ fin t r .timeout [] ∧
          logAs s t (some (0x2101, [m.val, r.src.toNat, k])) ∧ ∀ j, j ≠ m.val → gMp t j = gMp s j) ∧
      (∀ pre r post, (∀ o x, o ∈ p.out → o.2 = some x → x.job ≠ job) → p.stage = pre ++ r :: post → r.job = job →
        (∀ x, x ∈ pre → x.job ≠ job) → GivesMovers late s fun t => (p' t).out = p.out ∧ (p' t).stuck = p.stuck ∧
          (p' t).tmos = satInc p.tmos ∧ (p' t).stage = pre ++ post ++ p.wait.take (512 - (pre ++ post).length) ∧ werr t r ∧
          fin t r .timeout [] ∧ logAs s t (some (0x2101, [m.val, r.src.toNat]))) ∧
      ((∀ o x, o ∈ p.out → o.2 = some x → x.job ≠ job) → (∀ x, x ∈ p.stage → x.job ≠ job) → keeps late s)

/-! ### The host port, registers and test access (spec/02 R42–R50, R77–R79, spec/11 R393, spec/13 R471–R475) -/

/-- R42–R46, R77–R79, R393: the host port takes a request while fewer than 8 wait, and answers them in order. A request from behind the curtain is
answered with the curtain pattern, or by the wrapper's own two registers; one that failed parity with PARITY and data 0; the
others with OK and what the target gives; a read of the aperture once memory has answered. A target that does not answer gives
TIMEOUT with data 0; while HCLK is outside its window it answers nothing. Every response carries even parity. A write that the block had
accepted before the curtain may reach AON_CTL and changes nothing else (the model's choice, log 33). -/
def Obligations.HostPortCommands : Prop :=
  ∀ (s : State) (write : Bool) (addr : BitVec 24) (be : W8) (wdata : W64) (par : Bool), s.aon.vddAon = true →
    let h := s.hp
    let ask : Instr := .hostRequest write addr be wdata par
    let rsp (x : W64) (st : BitVec 2) : HRsp := { rdata := x, status := st, par := xor (parNat 64 x.toNat) (parNat 2 st.toNat) }
    let hpOnly (t : State) : Prop := t = { s with hp := t.hp }
    let even : Bool := xor (xor write (parNat 24 addr.toNat)) (xor (parNat 8 be.toNat) (parNat 64 wdata.toNat))
    (8 ≤ h.q.length → keeps ask s) ∧
      (h.q.length < 8 → Gives ask s fun t => hpOnly t ∧ t.hp = { h with q := h.q ++ [{
        write := write, addr := addr, be := be, wdata := wdata, parBad := h.parEn && up s && decide (par ≠ even)
        curtain := !up s, early := false }] }) ∧
      (h.q = [] ∨ clkIsOut s 3 = true → keeps .hostResponse s ∧ keeps .hostTimeout s) ∧
      ∀ r rest, h.q = r :: rest → clkIsOut s 3 = false →
        let a := r.addr.toNat * 8
        let served : Prop := (a = 0xFF0 ∨ a = 0xFF8) ∧ s.aon.reason ≠ 0x01 ∧ s.aon.reason ≠ 0x06
        let pop : Hp := { h with q := rest, apJob := none }
        let answers (y : Hp) (x : W64) (st : BitVec 2) : Prop := Gives .hostResponse s fun t =>
          hpOnly t ∧ t.hp = { y with rsp := some (rsp x st) }
        let plain : Prop := r.curtain = false ∧ r.parBad = false
        let ap (j : Nat) (st : MpSt) : Prop := plain ∧ r.write = false ∧ isAperture a = true ∧ h.apJob = some j ∧
          jobDone s j = true ∧ worst (jobAns s j) = st
        let late : Hp := { pop with tmo := true, errCnt := satInc h.errCnt, rsp := some (rsp 0 3) }
        (r.curtain = true → r.write = false → r.early = true ∨ ¬served →
          answers pop (0x4B42000000000000 ||| s.aon.reason.setWidth 64) 1) ∧
        (r.curtain = true → r.write = true → ¬served → Gives .hostResponse s fun t =>
          (∃ x, t.hp = { pop with rsp := some (rsp x 1) }) ∧ t = { s with hp := t.hp, fresh := t.fresh }) ∧
        (r.curtain = true → r.early = true → r.write = true → served → Gives .hostResponse s fun t =>
          (∃ x, t.hp.rsp = some (rsp x 1)) ∧
            (freeBit s = false ∨ a = 0xFF0 ∨ r.be.getLsbD 0 = false → t = { s with hp := t.hp, fresh := s.fresh + 1 } ∧ t.hp.q = rest) ∧
            (freeBit s = true → a = 0xFF8 → r.be.getLsbD 0 = true → t.aon.isolate = r.wdata.getLsbD 0)) ∧
        (r.curtain = true → r.early = false → r.write = false → served →
          answers pop (if a = 0xFF0 then aonStat s.aon else BitVec.ofNat 64 (b2n s.aon.isolate)) 0) ∧
        (r.curtain = true → r.early = false → r.write = true → served → a = 0xFF0 ∨ r.be.getLsbD 0 = false → answers pop 0 0) ∧
        (r.curtain = true → r.early = false → r.write = true → served → a = 0xFF8 → r.be.getLsbD 0 = true →
          Gives .hostResponse s fun t => t.hp.rsp = some (rsp 0 0) ∧ t.aon.isolate = r.wdata.getLsbD 0) ∧
        (r.curtain = false → r.parBad = true → answers { pop with perr := true, errCnt := satInc h.errCnt } 0 2) ∧
        (∀ s1 f, plain → r.write = true → anyWrite { s with hp := pop } .host a r.be r.wdata = (s1, f) →
          Gives .hostResponse s fun t => t = { s1 with hp := { s1.hp with rsp := some (rsp 0 0) } }) ∧
        (∀ x s1, plain → r.write = false → isAperture a = false → regRead { s with hp := pop } 0xF00 a 0xFF = (x, s1) →
          Gives .hostResponse s fun t => t = { s1 with hp := { s1.hp with rsp := some (rsp (BitVec.ofNat 64 x) 0) } }) ∧
        (∀ j, ap j .okay → Gives .hostResponse s fun t =>
          t.hp = { pop with rsp := some (rsp (BitVec.ofNat 64 (leNat (jobData (jobAns s j)))) 0) } ∧ t.ms.hwErr = s.ms.hwErr) ∧
        (∀ j st, st = .decErr ∨ st = .dataErr → ap j st → Gives .hostResponse s fun t =>
          t.hp = { pop with rsp := some (rsp 0 0) } ∧ t.ms.hwErr = true) ∧
        (∀ j, ap j .timeout → Gives .hostResponse s fun t => t.hp = late ∧ t.ms.hwErr = s.ms.hwErr) ∧
        (∀ j, plain → r.write = false → isAperture a = true → h.apJob = some j → jobDone s j = false →
          keeps .hostResponse s) ∧
        (plain → r.write = false → isAperture a = true → h.apJob = none → apOff s a = none → Gives .hostResponse s fun t =>
          t.hp = { pop with rsp := some (rsp 0 0) } ∧ t.blk.unmapped = true) ∧
        (r.curtain = true ∨ r.parBad = true → keeps .hostTimeout s) ∧
        (plain → r.write = false → h.apJob = none → Gives .hostTimeout s fun t => hpOnly t ∧ t.hp = late) ∧
        (plain → r.write = true → h.apJob = none → freeBit s = false → Gives .hostTimeout s fun t =>
          t = { s with hp := late, fresh := s.fresh + 1 }) ∧
        ∀ s1 f, plain → r.write = true → h.apJob = none → freeBit s = true →
          anyWrite { s with hp := late, fresh := s.fresh + 1 } .host a r.be r.wdata = (s1, f) →
            Gives .hostTimeout s fun t => t = s1

/-- R10, R27, R28, R33, R44, R49, R125, R170, R471–R475: a write through the host window changes exactly its enabled bytes of local memory or the
wings; at an address with nothing behind it it sets UNMAPPED; a requester without the right changes nothing, and a thread takes fault
0x07; a thread's refused write takes its fault. The TAP shows its identity, and DBGACC shows the last result, then makes its access when the
lock allows it; KEYPROG programs an unused key slot once. The test wrapper takes its instructions; the tests take effect, with
isolation, only while the lock is open for them. -/
def Obligations.RegisterAndTestCommands : Prop :=
  ∀ (s : State) (who : Requester) (addr : BitVec 27) (be : W8) (data : W64) (wr : Bool) (word : BitVec 24) (slot : Fin 4)
    (digest : BitVec 384) (res : BitVec 6) (good : Bool) (cells : List Nat),
    let a := addr.toNat / 8 * 8
    let put : Instr := .registerWrite who addr be data
    let ok : Prop := up s = true ∧ mayWrite s who a = true
    let unmapped : Prop := Gives put s fun t => t = { s with blk := { s.blk with unmapped := true } }
    let bytes (old new : Mem) (lo : Nat) : Prop := ∀ q, mget new q =
      if lo ≤ q ∧ q < lo + 8 ∧ be.getLsbD (q - lo) = true then data.extractLsb' (8 * (q - lo)) 8 else mget old q
    let p := s.mg.tap
    let tapOnly (t : State) (y : Tap) : Prop := t = { s with mg := { s.mg with tap := y } }
    let dbg : Instr := .dbgacc wr word data
    let shown (t : State) : Prop := t.mg.tap.ir = 0x10 ∧ t.mg.tap.dr % 2 ^ 64 = p.data.toNat ∧
      t.mg.tap.dr / 2 ^ 89 % 4 = p.status.toNat ∧ t.mg.tap.dr / 2 ^ 91 = b2n p.busy
    let ended (d : W64) (st : BitVec 2) : Prop := Gives dbg s fun t => shown t ∧ t.mg.tap.data = d ∧ t.mg.tap.status = st ∧
      t = { s with fresh := s.fresh + 1, mg := { s.mg with tap := t.mg.tap } }
    let taken := tapSelect (useFree s) 0x10 (dbgaccCapture s)
    let used (i : Nat) : Bool := (s.aon.keys.getD i {}).used
    let may : Prop := used slot.val = false ∧ ((∀ k, k ∈ s.aon.keys → k.used = false) ∨ scopeOn s 1 = true)
    let key : Instr := .keyprog slot digest res
    let cap : Nat := b2n (used 0) + 2 * b2n (used 1) + 4 * b2n (used 2) + 8 * b2n (used 3) + 16 * b2n s.aon.keyBusy +
      32 * b2n p.keyFail + 64 * b2n p.keyRefused
    let test (c : Instr) (code : BitVec 6) : Prop :=
      (scopeOn s 2 = false → Gives c s fun t => tapOnly t { p with wir := code, wirOn := false }) ∧
        (scopeOn s 2 = true → aonOpen s = true → Gives c s fun t =>
          t.mg.tap.wir = code ∧ t.mg.tap.wirOn = true ∧ t.aon.isolate = true)
    let alone : Prop := ∀ e, e ∈ s.ram.lmEc → e.pipe = false
    (up s = false → keeps put s) ∧ (¬ok → (∀ g, who ≠ .thread g) → keeps put s) ∧
      (∀ g, who = .thread g → engUp s (g.val / 32) = false → keeps put s) ∧
      (∀ g, who = .thread g → up s = true → engUp s (g.val / 32) = true → mayWrite s who a = false → Gives put s fun t =>
        faultedAt s t (thrKey s g.val) 0x07 (regsOf s g).pc ∧ t.ram = s.ram) ∧
      (ok → isAperture a = false → be = 0 → keeps put s) ∧
      (∀ q off, ok → be ≠ 0 → q < 68 → off < 0x40000 → a = 0x2000000 + q * 0x40000 + off → peOn s q = true → alone → Gives put s fun t =>
        bytes s.ram.lm t.ram.lm (q * 0x40000 + off) ∧ t = { s with ram := t.ram }) ∧
      (∀ q off, ok → be ≠ 0 → q < 68 → off < 0x40000 → a = 0x2000000 + q * 0x40000 + off → peOn s q = false → unmapped) ∧
      (∀ off, ok → be ≠ 0 → off < 0x2000000 → a = 0x4000000 + off → Gives put s fun t =>
        bytes s.ram.wings t.ram.wings off ∧ t.ram.lm = s.ram.lm) ∧
      (ok → be ≠ 0 → 0x50000 ≤ a ∧ a < 0x100000 ∨ 0x900000 ≤ a ∧ a < 0x2000000 ∨ 0x6000000 ≤ a → unmapped) ∧
      (ok → be.getLsbD 0 = true → a = 0x100 → Gives put s fun t => t = { s with hp := { s.hp with parEn := data.getLsbD 0 } }) ∧
      (ok → be.getLsbD 0 = true → a = 0x8 → Gives put s fun t =>
        t = { s with blk := { s.blk with unmapped := s.blk.unmapped && !data.getLsbD 1 } }) ∧
      (ok → be = 0xFF → a = 0x440000 → Gives put s fun t =>
        t = { s with mv := { s.mv with doneMap := s.mv.doneMap &&& ~~~data } }) ∧
      (∀ g s1 c, ok → who = .thread g → anyWrite s who a be data = (s1, some c) → Gives put s fun t =>
        (gThr t (thrKey s1 g.val)).st = .faulted ∧ (gThr t (thrKey s1 g.val)).fcode = c) ∧
      (tapUp s = true →
        (Gives .blkid s fun t => tapOnly t { p with ir := 0x02, dr := 0x4B42080000000021 }) ∧
        (Gives .bypass s fun t => tapOnly t { p with ir := 0xFF, dr := 0 }) ∧
        (p.busy = true → ended p.data p.status) ∧
        (p.busy = false → up s = false → ended (0x4B42000000000000 ||| s.aon.reason.setWidth 64) 1) ∧
        (p.busy = false → up s = true → tapReaches taken (word.toNat * 8) = false → ended p.data 2) ∧
        (∀ x s1, p.busy = false → up s = true → tapReaches taken (word.toNat * 8) = true → wr = false →
          isAperture (word.toNat * 8) = false → regRead taken 0xF00 (word.toNat * 8) 0xFF = (x, s1) → Gives dbg s fun t =>
            t.mg.tap.data = BitVec.ofNat 64 x ∧ t.mg.tap.status = 0 ∧ t.ram = s1.ram ∧ t.blk = s1.blk) ∧
        (∀ j s1, p.busy = false → up s = true → tapReaches taken (word.toNat * 8) = true → wr = false →
          isAperture (word.toNat * 8) = true → apRead taken (word.toNat * 8) = (some j, s1) →
          exec dbg s = .next (tapSettle (mTap s1 fun t => { t with busy := true, job := some j }))) ∧
        (∀ s1, p.busy = false → up s = true → tapReaches taken (word.toNat * 8) = true → wr = false →
          isAperture (word.toNat * 8) = true → apRead taken (word.toNat * 8) = (none, s1) → Gives dbg s fun t =>
            t.mg.tap.data = 0 ∧ t.mg.tap.status = 0 ∧ t.blk.unmapped = true) ∧
        (∀ s1 f, p.busy = false → up s = true → tapReaches taken (word.toNat * 8) = true → wr = true →
          anyWrite taken .tap (word.toNat * 8) 0xFF data = (s1, f) → Gives dbg s fun t =>
            t.mg.tap.status = 0 ∧ t.ram = s1.ram ∧ t.ms = s1.ms) ∧
        (s.aon.keyBusy = true → Gives key s fun t => tapOnly t { p with ir := 0x20, dr := cap }) ∧
        (s.aon.keyBusy = false → may → res = 0 → Gives key s fun t => t = { s with
          aon := { s.aon with keyBusy := true, keySlot := slot.val, keyDig := digest }
          mg := { s.mg with tap := { p with ir := 0x20, dr := cap, keyRefused := false, keyFail := false } } }) ∧
        (s.aon.keyBusy = false → ¬may → res = 0 → Gives key s fun t =>
          tapOnly t { p with ir := 0x20, dr := cap, keyRefused := true })) ∧
      (s.aon.keyBusy = false → keeps (.keyprogDone good) s) ∧
      (tapUp s = true → test .wsExtest 1 ∧ test .wsIntestScan 2 ∧
        (Gives .wsBypass s fun t => tapOnly t { p with wir := 0, wirOn := false }) ∧
        Gives (.wsPreload cells) s fun t => tapOnly t { p with wir := 3, wirOn := false, cells := t.mg.tap.cells } ∧
          ∀ i, tget false t.mg.tap.cells i = decide (i ∈ cells ∧ i < 53117)) ∧
      (s.aon.vddAon = true →
        (s.aon.keyBusy = true → Gives (.keyprogDone good) s fun t => t = { s with
          aon := { s.aon with keyBusy := false, keys := setAt s.aon.keys s.aon.keySlot {
            digest := s.aon.keyDig, used := true, bad := !good } }
          mg := { s.mg with tap := { p with keyFail := !good } } }) ∧
        (Gives .wrstnAssert s fun t => tapOnly t { p with wir := 0, wirOn := false, cells := [] }) ∧
        Gives .tapReset s fun t => tapOnly t {})

/-! ### Resets, supplies, start-up, clocks (spec/02 R74–R81, spec/03, spec/07 R249–R255, spec/12 R425, R426) -/

/-- R74–R77, R80, R81, R86, R91, R95, R100: the supplies and the resets. AON_STAT.REASON is the highest reason that holds or has held since the
host port was released, and stays as it is when none does any longer; LAST_REASON is taken at entry, when host requests are left to the
curtain responder, memory tags are abandoned, a partly presented write is finished with nothing enabled, and the outputs go to rest.
Power-on and core power loss clear the whole block; the block reset keeps the memories and the rate correction. MRAM, the log in it and the key slots are kept. Start-up begins when
the block leaves AON, or its reset. -/
def Obligations.ResetAndSupplyCommands : Prop :=
  ∀ (s : State) (id : Fin 3),
    let o := s.aon
    let rank (a : Aon) : W8 :=
      if a.porN = false ∨ a.porDue then 0x01 else if a.blkDisable then 0x06 else if a.corePwrOk = false ∨ a.pwrDue then 0x03
      else if a.clkLoss then 0x05 else if a.blkRstN = false ∨ a.rstDue then 0x02 else if a.isolate then 0x04 else 0
    let shows (t : State) : Prop :=
      t.aon.porDue = (o.porDue || !t.aon.porN) ∧ t.aon.pwrDue = (o.pwrDue || !t.aon.corePwrOk) ∧
        t.aon.rstDue = (o.rstDue || !t.aon.blkRstN) ∧ t.aon.reason = (if rank t.aon = 0 then o.reason else rank t.aon) ∧
        t.aon.lastReason = if o.reason = 0 ∧ rank t.aon ≠ 0 then rank t.aon else o.lastReason
    let rest (t : State) : Prop := (∀ k, (gPin t k).out = false ∧ (gPin t k).oe = false ∧ (gPin t k).lpbk = false) ∧
      (∀ k, (gLane t k).tx.quiet = true) ∧ ∀ n, (gDp t n).hold = false
    let cut (a b : Mp) : Prop := b = { wd := b.wd } ∧ (a.wdTag = none → b.wd = []) ∧
      (a.wdTag ≠ none → ∃ n, n ≤ a.wd.length ∧ b.wd =
        if n = 0 then [] else a.wd.take n ++ (a.wd.drop n).map fun x => { x with be := 0 })
    let entered (t : State) : Prop := o.reason = 0 → rest t ∧ (∀ m, cut (gMp s m) (gMp t m)) ∧ t.hp.apJob = none ∧
      ∀ r, r ∈ t.hp.q → r.curtain = true
    let aonOnly (t : State) : Prop := t = { s with aon := t.aon }
    let cleared (t : State) : Prop := t.en = {} ∧ t.bank = [] ∧ t.blk = {} ∧ t.clk = {} ∧ t.mg.sm = {} ∧ t.tr.ush = {} ∧
      t.tr.box = {} ∧ t.tr.lg = [] ∧ t.tr.link = [] ∧ t.mv.dc = [] ∧ t.mv.hcas = {} ∧ t.mg.bp = [] ∧
      t.mg.lock.unlocked = false ∧ t.tb.now = 0 ∧ t.tb.running = false ∧ t.ms = { mp := t.ms.mp } ∧ rest t ∧
      (∀ m, gMp t m = { wd := (gMp t m).wd }) ∧
      t.mg.mram.bytes = s.mg.mram.bytes ∧ t.mg.log.ring = s.mg.log.ring ∧ t.aon.keys = o.keys
    let hard (t : State) : Prop := cleared t ∧ t.ram = {} ∧ t.tb = {} ∧ t.ms = {} ∧ t.mg.tap = {} ∧ t.mv = {}
    let soft (t : State) : Prop := cleared t ∧ t.ram.lm = s.ram.lm ∧ t.ram.wings = s.ram.wings ∧ t.tb.corr = s.tb.corr ∧
      shows t ∧ t.aon.owedRst = some t.aon.reason ∧
      t.aon.power = if o.power = .off ∨ o.power = .aon then o.power else .boot
    let boots (t : State) (b : Prop) : Prop := (b → t.aon.power = .boot ∧ t.blk = { s.blk with bootStep := 2 }) ∧
      (¬b → t.aon.power = o.power ∧ t.blk = s.blk)
    (o.vddAon = true → keeps .vddAonUp s) ∧
      (o.vddAon = false → Gives .vddAonUp s fun t => aonOnly t ∧ shows t ∧ t.aon.vddAon = true ∧ t.aon.power = .aon) ∧
      (o.vddAon = true → Gives .vddAonLoss s fun t => hard t ∧ t.aon.vddAon = false ∧ t.aon.power = .off ∧ t.aon.reason = 0x01) ∧
      (o.vddAon = true → o.porN = true → Gives .porNAssert s fun t => hard t ∧ t.aon.porN = false ∧ t.aon.power = .aon ∧
        t.aon.reason = 0x01 ∧ t.aon.lastReason = 0x01 ∧ t.aon.isolate = false) ∧
      (o.porN = false → keeps .porNAssert s) ∧
      (o.vddAon = true → o.porN = false → o.reason ≠ 0 → Gives .porNRelease s fun t => t.aon.porN = true ∧ shows t ∧
        boots t (o.corePwrOk = true) ∧ t = { s with aon := t.aon, blk := t.blk }) ∧
      (o.porN = true → keeps .porNRelease s) ∧
      (o.vddAon = true → o.corePwrOk = true → o.porN = true → Gives .corePwrOkFall s fun t => hard t ∧ shows t ∧
        t.aon.corePwrOk = false ∧ t.aon.power = .aon ∧ t.aon.owedPwr = some (aonStat t.aon)) ∧
      (o.corePwrOk = false → keeps .corePwrOkFall s) ∧
      (o.vddAon = true → o.corePwrOk = false → o.reason ≠ 0 → Gives .corePwrOkRise s fun t => t.aon.corePwrOk = true ∧ shows t ∧
        boots t (o.porN = true) ∧ t = { s with aon := t.aon, blk := t.blk }) ∧
      (o.vddAon = true → o.blkRstN = true → Gives .blkRstNAssert s fun t => soft t ∧ entered t ∧ t.aon.blkRstN = false) ∧
      (o.blkRstN = false → keeps .blkRstNAssert s) ∧
      (o.vddAon = true → o.blkRstN = false → o.reason ≠ 0 → Gives .blkRstNRelease s fun t => t.aon.blkRstN = true ∧
        t.aon.clkLoss = false ∧ shows t ∧ boots t (o.power = .boot) ∧ t = { s with aon := t.aon, blk := t.blk }) ∧
      (o.blkRstN = true → keeps .blkRstNRelease s) ∧
      (aonOpen s = true → o.isolate = false → Gives .isolate s fun t => soft t ∧ entered t ∧ t.aon.isolate = true) ∧
      (aonOpen s = false ∨ o.isolate = true → keeps .isolate s) ∧
      (aonOpen s = true → o.isolate = true → o.reason ≠ 0 → Gives .isolateClear s fun t => t.aon.isolate = false ∧ shows t ∧
        boots t (o.power = .boot) ∧ t = { s with aon := t.aon, blk := t.blk }) ∧
      (aonOpen s = false ∨ o.isolate = false → keeps .isolateClear s) ∧
      (o.vddAon = true → o.porN = true → o.clkLoss = false → s.tb.holdover = false → Gives (.wrapperClockLoss id) s fun t =>
        t.aon.clkLoss = true ∧ t.aon.owedClk = some id.val ∧ shows t ∧ entered t ∧ t.en = s.en ∧ t.ram = s.ram ∧
        (id.val ≠ 2 → t.mg = s.mg)) ∧
      (o.clkLoss = true ∨ s.tb.holdover = true → keeps (.wrapperClockLoss id) s) ∧
      (s.mg.mram.j0.hdr = none → s.mg.mram.j1.hdr = none → keeps .vddMramLoss s) ∧
      (∀ i, rulingHalf s = some i → Gives .vddMramLoss s fun t => t = { s with
        fresh := s.fresh + 1, mg := { s.mg with mram := t.mg.mram } } ∧ t.mg.mram.bytes = s.mg.mram.bytes ∧
        (t.mg.mram = s.mg.mram ∨ (jHalf t i).torn = true ∧ (jHalf t i).recs = (jHalf s i).recs))

/-- R82, R84, R92, R99–R106, R112: start-up and the power of one engine. Start-up releases the host port; without firmware that verifies, or with MRAM
not ready, it ends in RECOVERY with the log open; after power-on it stays in step 2 while a wrapper clock is outside its window; else it
waits in step 5 until the clock check passes, each clock's failure logged once, walks the holdings after a block reset, and ends in READY with the
timebase started at 0 and, when all 64 engines work, each logical engine on its own. A powered-up engine has its local
memory zeroed and its engine reset; then BIST if asked, and it is ON, or it has failed and is OFF. -/
def Obligations.StartUpCommands : Prop :=
  ∀ (s : State) (env : BootEnv) (p : Fin 68) (pass : Bool),
    let begins : Prop := s.aon.power = .boot ∧ levelReason s.aon = 0 ∧ s.blk.bootStep = 2
    let waits : Prop := s.aon.power = .boot ∧ levelReason s.aon = 0 ∧ s.blk.bootStep = 5
    let recovery (t : State) : Prop := t.aon.power = .recovery ∧ t.aon.reason = 0 ∧ t.blk.recovery = true ∧ t.blk.uncal = true ∧
      t.blk.norep = true ∧ t.blk.ready = false ∧ t.mg.sm.alive = true ∧ t.mg.log.opened = true
    let y := clocksTaken s env
    let ready (t : State) : Prop := t.aon.power = .ready ∧ t.aon.cold = false ∧ t.blk.ready = true ∧ t.blk.bootStep = 8 ∧
      t.blk.portsOn = true ∧ t.tb.now = 0 ∧ t.tb.running = true ∧ t.ec = 0 ∧ t.lap = 0
    let pe := gPe s p.val
    let pe' (t : State) : Pe := gPe t p.val
    let lo := p.val * 0x40000
    let goes : Prop := begins ∧ wrapperHolds s env = false
    (¬begins → keeps (.startUp env) s ∧ keeps .mramNotReady s) ∧ (¬goes → keeps (.startUp env) s) ∧
      (wrapperHolds s env = (s.aon.porDue && decide (envHz env 4 ≠ 0) &&
        !(decide (1000000000 ≤ envHz env 0 ∧ envHz env 0 ≤ 2750000000 ∧ 800000000 ≤ envHz env 1 ∧ envHz env 1 ≤ 2200000000 ∧
          200000000 ≤ envHz env 2 ∧ envHz env 2 ≤ 550000000)))) ∧
      (goes → s.blk.ready = false → fwChoice (hostRelease s env.chal) = none → Gives (.startUp env) s fun t =>
        recovery t ∧ t.mg.lock.chal = env.chal) ∧
      (∀ n i, goes → fwChoice (hostRelease s env.chal) = some (n, i) → ∃ x, exec (.startUp env) s = exec (.clockCheck env) x ∧
        x.aon.power = .boot ∧ x.aon.reason = 0 ∧ x.blk.bootStep = 5 ∧ x.blk.recovery = false ∧ x.blk.fwSlot = decide (n = 1) ∧
        x.mg.sm.fwVersion = i.version ∧ x.mg.sm.alive = true ∧ x.mg.log.opened = true ∧ x.mg.lock.chal = env.chal) ∧
      (begins → s.blk.ready = false → Gives .mramNotReady s fun t => recovery t) ∧
      (¬waits → keeps (.clockCheck env) s) ∧
      (waits → clocksBad y env = [] → Gives (.clockCheck env) s fun t => ready t ∧
        (s.aon.cold = false → ∀ u, u < 9 → (gAu t u).holdings = []) ∧
        ((∀ e, e < 64 → bootOk s env e = true) → (∀ e, e < 64 → physOf t e = e ∧ peOn t e = true) ∧ t.blk.degraded = false)) ∧
      (waits → clocksBad y env ≠ [] → Gives (.clockCheck env) s fun t => t.aon.power = .boot ∧ t.blk.bootStep = 5 ∧
        (∀ id, id ∈ t.blk.step5Log ↔ id ∈ s.blk.step5Log ∨ id ∈ clocksBad y env) ∧ t.tb = s.tb ∧ ∀ id, id < 5 → clkIsOut t id = decide (id ∈ clocksBad y env)) ∧
      (up s = true →
        (pe.st ≠ .ramp → keeps (.engineRampDone p) s ∧ keeps (.engineRampTimeout p) s) ∧
        (pe.st = .ramp → Gives (.engineRampDone p) s fun t => pe' t = { pe with st := .init } ∧
          (∀ q, mget t.ram.lm q = if lo ≤ q ∧ q < lo + 0x40000 then 0 else mget s.ram.lm q) ∧
          (∀ k, gThr t k = if k / 32 = p.val then {} else gThr s k) ∧ ∀ q, q ≠ p.val → gPe t q = gPe s q) ∧
        (pe.st = .ramp → Gives (.engineRampTimeout p) s fun t => (pe' t).st = .off ∧ (pe' t).failed = true ∧
          logAs s t (some (0x1020, [p.val])) ∧ t.ram = s.ram) ∧
        (pe.st ≠ .init → keeps (.engineZeroingDone p) s) ∧
        (pe.st = .init → pe.bistReq = true → Gives (.engineZeroingDone p) s fun t => pe' t = { pe with st := .bist }) ∧
        (pe.st = .init → pe.bistReq = false → pe.goal = .none → Gives (.engineZeroingDone p) s fun t =>
          pe' t = { pe with st := .on } ∧ t.en.emap = s.en.emap) ∧
        (∀ e, pe.st = .init → pe.bistReq = false → pe.goal = .map → lowestUnmapped s = some e →
          Gives (.engineZeroingDone p) s fun t => (pe' t).st = .on ∧ physOf t e = p.val ∧ ∀ q, q ≠ e → physOf t q = physOf s q) ∧
        (pe.st ≠ .bist → keeps (.engineBistDone p pass) s) ∧
        (pe.st = .bist → pass = true → pe.goal = .none → Gives (.engineBistDone p pass) s fun t => (pe' t).st = .on) ∧
        (pe.st = .bist → pass = false → Gives (.engineBistDone p pass) s fun t => (pe' t).st = .off ∧ (pe' t).failed = true ∧
          logAs s t (some (0x1022, [p.val, 0x7F]))))

/-- R85, R87, R88, R113, R250–R254, R425, R426, R499: the timebase's discipline, the clock monitors and the sensors. A sample without reference becomes
it; later ones add to the loop and, from the sixteenth, correct the rate within ±200 ppm. REFCLK lost means holdover, and back a
restart. A gap starts the loop anew whatever DISC_EN (log 21). A pulse near 1 s locks, another spacing is outside; one missing unlocks. A measured clock that leaves its window is marked and logged, and marked back in it; a DUT
clock too fast holds its port, and one enabled later at the next measurement; an LCLK outside unlocks its lanes. A sensor's value is corrected, and its episodes set and clear their bits. -/
def Obligations.ClockAndSensorCommands : Prop :=
  ∀ (s : State) (id f i : Nat) (raw : Int), up s = true →
    let t0 := s.tb
    let tbOnly (t : State) (y : Tb) : Prop := t = { s with tb := y }
    let loops : Prop := t0.running = true ∧ t0.discEn = true ∧ t0.holdover = false
    let clamped (y : Tb) (c : Int) : Tb :=
      if 13743895 < c then { y with corr := BitVec.ofInt 32 13743895, clamp := true }
      else if c < -13743895 then { y with corr := BitVec.ofInt 32 (-13743895), clamp := true }
      else { y with corr := BitVec.ofInt 32 c }
    let restart (y : Tb) : Tb := { y with k := 0, sAcc := 0, eAcc := 0, ref := none, unsettled := true }
    let clkLog (t : State) : Prop := t = { s with clk := t.clk, mg := { s.mg with log := t.mg.log } }
    let pulse := t0.now &&& ~~~15
    let d := (pulse - t0.pps).toNat
    let near : Prop := 1 ≤ t0.ppsSeen ∧ 39960000000 ≤ d ∧ d ≤ 40040000000
    let seen : Tb := { t0 with pps := pulse, ppsSeen := min 2 (t0.ppsSeen + 1) }
    let poll : Instr := .clockPoll [(id, f)]
    let polls : Prop := s.aon.power = .ready ∧ clkWatched s id = true ∧ (t0.holdover = false ∨ id = 4) ∧
      ¬(t0.holdover = true ∧ id < 2 ∧ f = 0)
    let isIn : Prop := clkInside s id f = true
    let isOut : Prop := clkIsOut s id = true
    let meas : Tab Nat := tset 0 s.clk.meas id f
    let marked : Clk := { s.clk with meas := meas, out := setBit s.clk.out id, seen := setBit s.clk.seen id }
    let sense : Instr := .sensorPoll [(i, raw)]
    let senses : Prop := s.mg.sm.alive = true ∧ s.aon.power = .ready
    let x := gSens s i
    let v := sensExact s i raw
    let th := sensThr s i
    let n := sensNum i (BitVec.ofInt 16 v)
    let reads : Prop := senses ∧ i < 40 ∧ sensFits i v = true
    let sensOnly (t : State) (b : Bool) : Prop := t = { s with mg := { s.mg with
      log := t.mg.log, sm := { s.mg.sm with heartbeat := s.mg.sm.heartbeat + 1, sens := t.mg.sm.sens, sensBit := b } } } ∧
        ∀ j, j ≠ i → gSens t j = gSens s j
    let noCrit : Prop := (x.crit = false → critMet th n = false) ∧ (x.crit = true → critOver i th n = false)
    let gaps : Prop := t0.running = true ∧ t0.holdover = false
    (¬loops → keeps .tbSample s) ∧ (¬gaps → keeps .refclkGap s) ∧
      (loops → t0.ref = none → Gives .tbSample s fun t => tbOnly t { t0 with ref := some t0.now }) ∧
      (∀ prev, loops → t0.ref = some prev →
        let diff : Int := ((t0.now - prev).toNat : Int) * 65536 - t0.x
        let y : Tb := { t0 with ref := some t0.now, k := t0.k + 1, eAcc := t0.eAcc + diff }
        Gives .tbSample s fun t => tbOnly t (if t0.k + 1 < 16 then { y with sAcc := t0.sAcc + diff }
          else if t0.k + 1 = 16 then clamped { y with unsettled := false } (t0.corr.toInt - (t0.sAcc + diff).tdiv 4)
          else clamped y (t0.corr.toInt - (diff * 4 + (t0.eAcc + diff).tdiv (8 * 65536) * 2 ^ 18)))) ∧
      (gaps → Gives .refclkGap s fun t => tbOnly t { restart t0 with gap := true }) ∧
      (t0.running = true → t0.holdover = false → keeps .refclkReturn s ∧ Gives .refclkLoss s fun t => t = { s with
        tb := { t0 with holdover := true }, clk := { s.clk with out := setBit s.clk.out 4, seen := setBit s.clk.seen 4 }
        mg := { s.mg with log := t.mg.log } } ∧ logAs s t (some (0x1003, [t0.corr.toNat]))) ∧
      (t0.running = true → t0.holdover = true → keeps .refclkLoss s ∧ Gives .refclkReturn s fun t => t = { s with
        tb := { restart t0 with holdover := false }, clk := { s.clk with out := clrBit s.clk.out 4 }
        mg := { s.mg with log := t.mg.log } } ∧ logAs s t (some (0x1002, [4]))) ∧
      (t0.running = true → t0.ppsSeen = 0 → Gives .ppsPulse s fun t => tbOnly t seen) ∧
      (t0.running = true → 1 ≤ t0.ppsSeen → ¬near → Gives .ppsPulse s fun t => t = { s with
        tb := { seen with ppsLost := true }, clk := { s.clk with out := setBit s.clk.out 5, seen := setBit s.clk.seen 5 } }) ∧
      (t0.running = true → near → t0.ppsLock = false → clkIsOut s 5 = false → Gives .ppsPulse s fun t =>
        tbOnly t { seen with ppsLock := t0.ppsEn }) ∧
      (t0.running = true → near → t0.ppsLock = true → clkIsOut s 5 = false → Gives .ppsPulse s fun t =>
        tbOnly t { seen with x := ((262144 * 40000000000 * 65536 / d : Nat) : Int) }) ∧
      (t0.running = true → near → clkIsOut s 5 = true → Gives .ppsPulse s fun t => t.tb.pps = pulse ∧ clkIsOut t 5 = false ∧ t.tb.ppsLost = false ∧
        logAs s t (some (0x1002, [5]))) ∧
      (t0.ppsSeen ≠ 2 → keeps .ppsMissing s) ∧
      (t0.running = true → t0.ppsSeen = 2 → Gives .ppsMissing s fun t => clkLog { t with tb := s.tb } ∧ clkIsOut t 5 = true ∧
        t.tb = { t0 with ppsLock := false, x := 262144 * 65536, ppsSeen := 0, ppsLost := true } ∧
        logAs s t (some (0x1004, [t0.pps.toNat]))) ∧
      ((t0.corr.toInt - t0.corrJrn.toInt).natAbs ≤ 68719 → keeps .tbRateJournal s) ∧
      (∀ h, s.mg.log.opened = true → s.mg.mram.wrErr = false → 68719 < (t0.corr.toInt - t0.corrJrn.toInt).natAbs →
        rulingHalf s = some h → Gives .tbRateJournal s fun t => t.tb = { t0 with corrJrn := t0.corr } ∧
          (jHalf t h).recs = (jHalf s h).recs ++ [.tbRate t0.corr] ∧ (journal t).tbRate = some t0.corr) ∧
      (s.aon.power ≠ .ready ∨ clkWatched s id = false ∧ t0.holdover = false → keeps poll s) ∧
      (polls → (isIn ↔ ¬isOut) → id < 16 ∨ isIn ∨ (gDp s (id - 16)).en = false ∨ (gDp s (id - 16)).fast = true → Gives poll s fun t => t = { s with clk := { s.clk with meas := meas } }) ∧
      (polls → ¬isIn → ¬isOut → id < 4 → Gives poll s fun t => clkLog t ∧ t.clk = marked ∧ logAs s t (some (0x1001, [id, f]))) ∧
      (polls → isIn → isOut → id < 4 → Gives poll s fun t => clkLog t ∧
        t.clk = { s.clk with meas := meas, out := clrBit s.clk.out id } ∧ logAs s t (some (0x1002, [id]))) ∧
      (polls → ¬isIn → ¬isOut → id = 4 → t0.holdover = false → Gives poll s fun t => t.tb = { t0 with holdover := true } ∧
        t.clk = marked ∧ logAs s t (some (0x1003, [t0.corr.toNat]))) ∧
      (∀ p, polls → ¬isIn → id = 16 + p → let q := gDp s p; isOut → q.en = true ∧ q.fast = false → Gives poll s fun t =>
        (t.clk = if isOut then { s.clk with meas := meas } else marked) ∧
        gDp t p = { q with
          fast := q.fast || q.en, hold := q.hold || q.en, holds := if q.en && !q.hold then satInc q.holds else q.holds } ∧
        logAs s t (some (0x1006, [p, f]))) ∧
      (∀ g j, polls → ¬isIn → ¬isOut → id = 8 + g → g < 8 → j < 8 → Gives poll s fun t => t.clk = marked ∧
        (gLane t (8 * g + j)).rx.clkBad = true ∧ laneLocked t (8 * g + j) = false ∧ laneQuiet t (8 * g + j) = true) ∧
      (∀ g j, polls → isIn → isOut → id = 8 + g → g < 8 → j < 8 → Gives poll s fun t => clkIsOut t id = false ∧
        (gLane t (8 * g + j)).rx.clkBad = false) ∧
      (s.aon.power = .ready → t0.holdover = true → id < 2 → f = 0 → Gives poll s fun t => t.aon.power = .boot ∧
        t.blk.bootStep = 2 ∧ t.en = {} ∧ t.aon.blkRstN = true) ∧
      (¬senses → keeps sense s) ∧
      (reads → noCrit → (x.warn = false → warnMet i th n = false) → (x.warn = true → warnOver i th n = false) →
        Gives sense s fun t => sensOnly t s.mg.sm.sensBit ∧ gSens t i = { x with value := BitVec.ofInt 16 v } ∧
          logAs s t none) ∧
      (reads → noCrit → x.warn = false → warnMet i th n = true → i < 24 → th.wAct < 2 → Gives sense s fun t =>
        sensOnly t (s.mg.sm.sensBit || decide (th.wAct = 1)) ∧ (gSens t i).warn = true ∧
          logAs s t (some (0x7101, [i, (BitVec.ofInt 16 v).toNat]))) ∧
      (reads → noCrit → x.warn = true → warnOver i th n = true → Gives sense s fun t => sensOnly t s.mg.sm.sensBit ∧
        (gSens t i).warn = false ∧ logAs s t (some (0x7105, [i, (BitVec.ofInt 16 v).toNat]))) ∧
      (reads → x.crit = false → critMet th n = true → i < 24 → th.cAct = 2 → s.aon.isolate = false → aonOpen s = true →
        Gives sense s fun t => t.aon.isolate = true)

/-! ### The stage manager (spec/12) -/

/-- R105, R424, R428, R434–R446, R450, R452, R374: the short commands. The command at the head of the ring completes with OK and its data, or with the
result that refuses it and no other effect: 0x03 BADPARAM, 0x04 BUSY, 0x05 RECOVERY, 0x06 AUTH, 0x07 MEMERR, 0x09 BADSTATE, 0x0A NOHANDLE,
0x0E MRAMERR. CONFIG_SET puts an item in force, and in the journal with PERSIST; CAL_WRITE replaces the calibration page,
whose CRC then holds; FW_ACTIVATE answers and then restarts the stage manager onto the slot, which serves no ring until then, or in RECOVERY
starts the block up again; REPLAY_ARM puts ports in replay; SUSPEND, RESUME and CANCEL act on an operation's state. Before READY the
command waits. -/
def Obligations.ShortManagerCommands : Prop :=
  ∀ (s : State) (e : List W8) (ans : MemAns) (tbl : Option ReplayTable),
    let turn (op : Nat) (used : List (Nat × Nat)) : Prop := smTurn s .ready op e ∧ entryOk e 0 used = true
    let ends (c : Instr) (res : Nat) : Prop := answers c s s e res []
    let f8 := ent e 8 2
    let f10 := ent e 10 2
    let mem := ent e 16 8
    let set (n : Nat) : Prop := smTurn s .ready 0x10 e ∧ entryOk e 1 [(8, 2), (10, 2), (16, 48)] = true ∧ itemLen f8 = some n
    let v (n : Nat) := (e.drop 16).take n
    let good (n : Nat) : Prop := set n ∧ entryOk e (if f8 = 2 then 0 else 1) [(8, 2), (10, 2), (16, n)] = true ∧ f10 = n ∧
      itemOk s f8 (v n) = true
    let item (n : Nat) (b : Bool) : CfgItem :=
      { item := BitVec.ofNat 16 f8, key := cfgKey (BitVec.ofNat 16 f8) (v n), val := v n, persist := b }
    let persist : Prop := ent e 1 1 = 1
    let page (t : State) : Prop := calOk t = true ∧ t.mg.sm.calSource = 2 ∧ t.blk.uncal = false ∧ leNat (calBytes t 6 2) = 2
    let calIn : Prop := 0x40 ≤ f8 ∧ 0 < f10 ∧ f8 + f10 ≤ 0x5E0 ∧ inExt mem f10 = true
    let calFree : Prop := calIn ∧ groupBusy s 0x21 = false ∧ ckRuns s = false
    let expo : Prop := mem % 64 = 0 ∧ inExt mem 0x10000 = true
    let n := ent e 8 1
    let ports := (List.range 16).filter fun i => bitOf f8 i
    let armed : Prop := s.tr.ush.pbEn = true ∧ inExt mem 256 = true ∧
      ∀ i, i ∈ ports → (gDp s i).en = true ∧ (gDp s i).mode ≠ .record
    let onOp (c : Instr) (op : Nat) (i : Nat) (o : OpSlot) (res : Nat) : Prop := turn op [(8, 2)] → ophSlot s f8 = some i →
      answers c s (mOp s i fun _ => o) e res []
    (∀ c, c ∈ [.identify, .status, .configSet, .configGet, .calRead, .calWrite ans, .calExport ans, .logRead ans, .fwActivate,
        .replayArm tbl, .suspend, .resume, .cancel, .opStatus] → smAlive s = false → keeps c s) ∧
      (smTurn s .ready 0x01 e → entryOk e 0 [] = false → ends .identify 0x03) ∧
      (smTurn s .boot 0x10 e → keeps .configSet s) ∧ (smTurn s .recovery 0x10 e → ends .configSet 0x05) ∧
      (turn 0x01 [] → answers .identify s s e 0 (dataOf [(8, 1, s.blk.rev.toNat), (9, 1, b2n s.blk.fwSlot),
        (10, 4, s.mg.sm.fwVersion.toNat), (16, 8, Config.serial.toNat), (24, 2, s.mg.sm.calSource.toNat),
        (26, 2, leNat (calBytes s 4 2))])) ∧
      (turn 0x02 [] → answers .status s s e 0 (dataOf [(8, 8, blkStat s.blk), (16, 1, (opsLive s).length),
        (17, 1, (BitVec.ofInt 8 (hottest s)).toNat), (18, 1, jFill s), (20, 4, s.mg.log.seq.toNat)])) ∧
      (smTurn s .ready 0x10 e → entryOk e 1 [(8, 2), (10, 2), (16, 48)] = true → itemLen f8 = none → ends .configSet 0x03) ∧
      (∀ k, set k → f10 ≠ k ∨ itemOk s f8 (v k) = false → ends .configSet 0x03) ∧
      (∀ k, good k → f8 ≠ 2 → ¬persist → answers .configSet s { s with mg := { s.mg with sm := { s.mg.sm with
        cfg := cfgPut s.mg.sm.cfg (item k false) } } } e 0 []) ∧
      (∀ k r, good k → f8 ≠ 2 → persist → s.mg.mram.wrErr = false → rulingHalf s = some r →
        itemDefault s (BitVec.ofNat 16 f8).toNat (item k true).key ≠ some (v k) → Gives .configSet s fun t =>
          t.mg.sm.cfg = cfgPut s.mg.sm.cfg (item k true) ∧ t.mg.sm.cmdRd = s.mg.sm.cmdRd + 1 ∧
            (jHalf t r).recs = (jHalf s r).recs ++ [.config (BitVec.ofNat 16 f8) (v k)]) ∧
      (∀ k, good k → f8 ≠ 2 → persist → s.mg.mram.wrErr = true → answers .configSet s (takeWrErr s) e 0x0E []) ∧
      (good 2 → f8 = 2 → ckRuns s = true → ends .configSet 0x04) ∧
      (∀ p l, good 2 → f8 = 2 → ckRuns s = false → p = ent (v 2) 0 1 → ent (v 2) 1 1 = 0 → logicalOf s p = some l →
        Gives .configSet s fun t => physOf t l = 0x7F ∧ (gPe t p).st = .off) ∧
      (∀ p, good 2 → f8 = 2 → ckRuns s = false → p = ent (v 2) 0 1 → ent (v 2) 1 1 = 1 → Gives .configSet s fun t =>
        (gPe t p).st = .ramp ∧ (gPe t p).goal = if (lowestUnmapped s).isSome then .map else .spare) ∧
      (turn 0x11 [(8, 2), (10, 2)] → itemLen f8 = none → ends .configGet 0x03) ∧
      (∀ k, turn 0x11 [(8, 2), (10, 2)] → itemLen f8 = some k → k ≤ f10 → ends .configGet 0x03) ∧
      (∀ x, turn 0x11 [(8, 2), (10, 2)] → f8 = 5 → f10 = 0 → cfgVal s 5 0 = some x → Gives .configGet s fun t => ∃ b : W8,
        t = cmdDone { s with fresh := s.fresh + 2 } e 0 (leBytes 2 4 ++ [b, 0] ++ x)) ∧
      (turn 0x20 [(8, 2), (10, 2)] → f10 = 0 ∨ 24 < f10 ∨ 0x10000 < f8 + f10 → ends .calRead 0x03) ∧
      (turn 0x20 [(8, 2), (10, 2)] → 0 < f10 → f10 ≤ 24 → f8 + f10 ≤ 0x10000 →
        answers .calRead s s e 0 (mread s.mg.mram.bytes (0x1000000 + f8) f10)) ∧
      (turn 0x21 [(8, 2), (10, 2), (16, 8)] → ¬calIn → ends (.calWrite ans) 0x03) ∧
      (turn 0x21 [(8, 2), (10, 2), (16, 8)] → calIn → groupBusy s 0x21 = true ∨ ckRuns s = true → ends (.calWrite ans) 0x04) ∧
      (∀ s1, turn 0x21 [(8, 2), (10, 2), (16, 8)] → calFree → moverRead s smSrc 3 mem f10 ans = (s1, none) →
        answers (.calWrite ans) s s1 e 0x07 []) ∧
      (∀ s1 bs, turn 0x21 [(8, 2), (10, 2), (16, 8)] → calFree → moverRead s smSrc 3 mem f10 ans = (s1, some bs) →
        bs.length = f10 → s.mg.mram.wrErr = false → Gives (.calWrite ans) s fun t => page t ∧ calBytes t f8 f10 = bs ∧
          ∀ a, 0x40 ≤ a → a < 0x5E0 → a < f8 ∨ f8 + f10 ≤ a → calBytes t a 1 = calBytes s a 1) ∧
      (turn 0x22 [(16, 8)] → ¬expo → ends (.calExport ans) 0x03) ∧
      (∀ s1, turn 0x22 [(16, 8)] → expo → moverWrite s smSrc 3 mem (calBytes s 0 0x10000) ans = (s1, false) →
        answers (.calExport ans) s s1 e 0x07 []) ∧
      (∀ s1, turn 0x22 [(16, 8)] → expo → moverWrite s smSrc 3 mem (calBytes s 0 0x10000) ans = (s1, true) →
        answers (.calExport ans) s s1 e 0 (dataOf [(8, 4, (calStored s).toNat), (12, 2, leNat (calBytes s 6 2))])) ∧
      (turn 0x30 [(8, 4), (12, 4), (16, 8)] → ent e 12 4 = 0 → ends (.logRead ans) 0x03) ∧
      (turn 0x30 [(8, 4), (12, 4), (16, 8)] → 0 < ent e 12 4 → ent e 12 4 ≤ 65535 → inExt mem (32 * ent e 12 4) = true →
        s.mg.log.ring = [] → answers (.logRead ans) s s e 0 (dataOf [(8, 4, ent e 8 4), (12, 4, 0), (16, 4, ent e 8 4)])) ∧
      (turn 0x41 [(8, 1)] → 1 < n → ends .fwActivate 0x03) ∧
      (turn 0x41 [(8, 1)] → n ≤ 1 → groupBusy s 0x41 = true → ends .fwActivate 0x04) ∧
      (turn 0x41 [(8, 1)] → n ≤ 1 → groupBusy s 0x41 = false → opsLive s ≠ [] → ends .fwActivate 0x09) ∧
      (∀ c d, turn 0x41 [(8, 1)] → n ≤ 1 → opsLive s = [] → slotRefused s n = some (c, d) →
        answers .fwActivate s (logEv (useFree s) c d) e 0x06 []) ∧
      (∀ i r, turn 0x41 [(8, 1)] → n ≤ 1 → opsLive s = [] → slotRefused s n = none → fwSlot s n = some i →
        s.mg.mram.wrErr = false → rulingHalf s = some r → Gives .fwActivate s fun t => t.blk.fwSlot = decide (n = 1) ∧
          t.mg.sm.fwVersion = i.version ∧ (journal t).fw = some n ∧ t.mg.sm.cmdRd = s.mg.sm.cmdRd + 1 ∧
          t.mg.sm.alive = false ∧ t.mg.sm.restart = true ∧ t.aon.power = .ready) ∧
      (∀ i r, smTurn s .recovery 0x41 e → entryOk e 0 [(8, 1)] = true → n ≤ 1 → opsLive s = [] → slotRefused s n = none →
        fwSlot s n = some i → s.mg.mram.wrErr = false → rulingHalf s = some r → Gives .fwActivate s fun t =>
          t.aon.power = .boot ∧ t.mg.sm.alive = false ∧ (journal t).fw = some n) ∧
      (turn 0x78 [(8, 2), (16, 8)] → ¬armed → ends (.replayArm tbl) 0x03) ∧
      (turn 0x78 [(8, 2), (16, 8)] → armed → ckRuns s = true → ends (.replayArm tbl) 0x04) ∧
      (turn 0x78 [(8, 2), (16, 8)] → armed → ckRuns s = false → tbl = none → ends (.replayArm tbl) 0x07) ∧
      (∀ b i, turn 0x78 [(8, 2), (16, 8)] → armed → ckRuns s = false → tbl = some b →
        (∀ j, j ∈ ports → rangeOk s (b.ranges.getD j (0, 0)) = true ∧ domsEmpty s (gDp s j) = true) → i ∈ ports →
        rangeEntries b i false ≠ [] → Gives (.replayArm tbl) s fun t => (gDp t i).mode = .replay ∧
          (gDp t i).rpTx = rangeEntries b i false ∧ (gDp t i).rpRx = rangeEntries b i true ∧
          t.mg.sm.cmdRd = s.mg.sm.cmdRd + 1) ∧
      (ophSlot s f8 = none → (turn 0xF0 [(8, 2)] → ends .suspend 0x0A) ∧ (turn 0xF1 [(8, 2)] → ends .resume 0x0A) ∧
        (turn 0xF2 [(8, 2)] → ends .cancel 0x0A) ∧ (turn 0xF3 [(8, 2)] → ends .opStatus 0x0A)) ∧
      ∀ i, let o := gOp s i
        (canSuspend o = true → o.st = .running → onOp .suspend 0xF0 i { o with susp := true } 0) ∧
        (canSuspend o = true → o.st = .intermission → onOp .suspend 0xF0 i o 0) ∧
        (canSuspend o = false ∨ o.st ≠ .running ∧ o.st ≠ .intermission → onOp .suspend 0xF0 i o 0x09) ∧
        (o.st = .intermission → onOp .resume 0xF1 i { o with st := .running, susp := false } 0) ∧
        (o.st ≠ .intermission → onOp .resume 0xF1 i o 0x09) ∧
        (o.st = .intermission ∨ o.st = .running ∧ o.committed = false →
          onOp .cancel 0xF2 i { o with st := .cancelling, susp := false } 0) ∧
        (o.st ≠ .intermission → o.st ≠ .running ∨ o.committed = true → onOp .cancel 0xF2 i o 0x09) ∧
        (opLive o = false → turn 0xF3 [(8, 2)] → ophSlot s f8 = some i → answers .opStatus s s e 0 (dataOf [
          (8, 1, opStNum o.st), (9, 1, o.result.toNat), (10, 1, opCode o), (12, 4, o.prog), (16, 4, o.total)]))

/-- R302, R424, R428, R432, R444–R447, R451, R454–R463: the long commands, the log and the MRAM. A command that is accepted starts an operation in the slot
that ended least recently; one that is refused has no other effect. With the ring empty the command does a step of its operation:
a compaction makes the other half rule, an update verifies what it wrote, a bank is paused and measured, an engine passes BIST or
is retired, a repertory comes into use, a swap waits until its threads have stopped, a swing moves a logical engine to the new
physical one at position 0 of a lap, a checkpoint freezes the block and writes its slot, a restore loads it; when memory fails
either of them, the operation has failed with MEMERR once the block is thawed. A cancelled operation
ends as CANCELLED, one whose wait ran out with TIMEOUT; one that stands at a suspend point enters INTERMISSION. -/
def Obligations.LongManagerCommands : Prop :=
  ∀ (s : State) (e : List W8) (n off : Nat) (img : ImgAns) (cals : List BankCal) (pass : Bool) (ans : MemAns) (slot : Fin 8)
    (data : List W8) (i : Nat),
    let turn (op : Nat) (fl : W8) (used : List (Nat × Nat)) : Prop := smTurn s .ready op e ∧ entryOk e fl used = true
    let ends (c : Instr) (res : Nat) : Prop := answers c s s e res []
    let free (op : Nat) : Prop := longBusy s op = false ∧ s.mg.mram.wrErr = false
    let k := s.mg.sm.freed.headD 0
    let o := gOp s i
    let runs (op : Nat) : Prop := smWorks s op i ∧ o.st = .running
    let ok (t : State) : Prop := smEnded t i .done 0
    let mem := ent e 16 8
    let len := ent e 24 4
    let compact : Instr := .journalCompact n
    let update : Instr := .fwUpdate n img
    let pins : Instr := .calPins n cals
    let load : Instr := .repertoryLoad n img
    let swap : Instr := .repertorySwap n img
    let swing : Instr := .engineSwing n
    let bist : Instr := .engineBist n pass
    let ckpt : Instr := .checkpoint n ans
    let rest : Instr := .restore n ans
    let all : List (Instr × Nat) := [(compact, 0x31), (update, 0x40), (pins, 0x23), (load, 0x50), (swap, 0x51), (swing, 0x60),
      (bist, 0x61), (ckpt, 0x70), (rest, 0x71)]
    let rep : List (Nat × Nat) := [(16, 8), (24, 4)]
    let repOk (max : Nat) : Prop := len ≤ max ∧ inExt mem len = true
    let ready (x : Image) : Prop := o.img = some x ∧ pinsPending s x = false ∧ pinsHere s x = true
    let le := ent e 8 1
    let p0 := physOf s (swEng o)
    let swOk : Prop := le < 64 ∧ (ent e 9 1 < 68 ∨ ent e 9 1 = 0xFF) ∧ ent e 10 1 < 4 ∧ isMapped s le = true
    let lap : Prop := s.ec % 64 = 0
    let part := ckPart o n
    let wr := extWrite { s with fresh := s.fresh + part / 8 + 1 } smSrc 3 (ckOff s o) ((freeBytes s (part / 8 + 1)).take part) ans
    let rd := extRead s smSrc 3 (ckOff s o) part ans
    let held (t : State) : Prop := ∀ p, p < 16 → (gDp s p).en = true → (gDp t p).hold = true ∧ (gDp t p).ckHold = true
    (∀ x, x ∈ all → smAlive s = false → keeps x.1 s) ∧
      (∀ x, x ∈ all → smAlive s = true → s.mg.sm.cmdRd = s.mg.sm.cmdWr → (∀ j, j ∈ s.mg.sm.freed → (gOp s j).owes = false) →
        opOf s x.2 = none → keeps x.1 s) ∧
      (∀ x, x ∈ [(compact, 0x31), (update, 0x40), (load, 0x50), (swap, 0x51), (swing, 0x60), (bist, 0x61)] → smWorks s x.2 i →
        o.st = .cancelling → Gives x.1 s fun t => smEnded t i .cancelled 0x0C) ∧
      -- JOURNAL_COMPACT
      (turn 0x31 0 [] → compactDue s = true → ends compact 0x04) ∧ (turn 0x31 0 [] → compactDue s = false → rulingHalf s = none → ends compact 0x09) ∧
      (∀ h, turn 0x31 0 [] → compactDue s = false → rulingHalf s = some h → longBusy s 0x31 = true → ends compact 0x04) ∧
      (∀ h, turn 0x31 0 [] → compactDue s = false → rulingHalf s = some h → free 0x31 → Gives compact s fun t =>
        smStarted s t k e (jImage (jView (jHalf s h).recs)).length (jHalf s h).recs.length) ∧
      (∀ h, runs 0x31 → o.phase = 1 → o.total ≤ o.prog + n → s.mg.mram.wrErr = false → rulingHalf s = some h →
        Gives compact s fun t => ok t ∧ rulingHalf t = some (1 - h) ∧ jGen t = jGen s + 1 ∧ (jHalf t (1 - h)).recs =
          jImage (jView ((jHalf s h).recs.take o.arg)) ++ (jHalf s h).recs.drop o.arg ++ [.opEnd (BitVec.ofNat 16 (ophOf s i)) 0]) ∧
      -- FW_UPDATE
      (turn 0x40 0 rep → ¬repOk 0x400000 → ends update 0x03) ∧
      (turn 0x40 0 rep → repOk 0x400000 → free 0x40 → Gives update s fun t =>
        smStarted s t k e len (if s.blk.fwSlot then 0 else 1)) ∧
      (runs 0x40 → img = .memErr → Gives update s fun t => smEnded t i .failed 0x07) ∧
      (∀ x y, runs 0x40 → img = .ok y → o.img = some x → o.susp = false → o.prog + n < o.total → Gives update s fun t =>
        gOp t i = { o with prog := o.prog + n } ∧ t.mg.mram = s.mg.mram) ∧
      (∀ x y, runs 0x40 → img = .ok y → o.img = some x → o.susp = false → o.total ≤ o.prog + n → s.mg.mram.wrErr = false →
        Gives update s fun t => fwSlot t o.arg = some x ∧
          (opRefused s o 1 x = none → ok t) ∧ (opRefused s o 1 x ≠ none → smEnded t i .failed 0x06)) ∧
      -- CAL_PINS
      (turn 0x23 0 [(8, 4)] → ent e 8 4 = 0 → ends pins 0x03) ∧
      (turn 0x23 0 [(8, 4)] → ent e 8 4 ≠ 0 → free 0x23 → Gives pins s fun t =>
        smStarted s t k e ((List.range 32).filter fun b => bitOf (ent e 8 4) b).length 0) ∧
      (∀ b, runs 0x23 → n = 0 → o.phase = 0 → o.susp = false → (calBanks o)[o.prog]? = some b → Gives pins s fun t =>
        (gBank t b).paused = true ∧ (gOp t i).phase = 1 ∧ ∀ j, j < 8 → (gPin t (8 * b + j)).cueQ = [] ∧
          (gPin t (8 * b + j)).cueDrop = satAdd (gPin s (8 * b + j)).cueDrop (gPin s (8 * b + j)).cueQ.length ∧
          (gPin t (8 * b + j)).lpbk = true) ∧
      (∀ b c, runs 0x23 → n = 1 → cals = [c] → o.phase = 1 → (calBanks o)[o.prog]? = some b → o.total ≤ o.prog + 1 →
        s.mg.mram.wrErr = false → Gives pins s fun t => ok t ∧ calOk t = true ∧ (gBank t b).paused = false ∧
          ∀ j, j < 8 → (gPin t (8 * b + j)).lpbk = false) ∧
      -- REPERTORY_LOAD, REPERTORY_SWAP
      (turn 0x50 1 rep → ¬repOk (if bitOf (ent e 1 1) 0 then 0x400000 else 0x4000000000) → ends load 0x03) ∧
      (turn 0x50 1 rep → repOk (if bitOf (ent e 1 1) 0 then 0x400000 else 0x4000000000) → free 0x50 → Gives load s fun t =>
        smStarted s t k e len (repOther s)) ∧
      (runs 0x50 → o.phase = 0 → img = .memErr → Gives load s fun t => smEnded t i .failed 0x07) ∧
      (∀ x, runs 0x50 → o.phase = 0 → img = .ok x → opRefused s o 2 x ≠ none → Gives load s fun t => smEnded t i .failed 0x06) ∧
      (∀ x, runs 0x50 → o.phase = 2 → ready x → opPersist o = false → Gives load s fun t => ok t ∧
        t.mg.sm.digest = Config.sha384Pair s.mg.sm.digest (imgDigest x)) ∧
      (turn 0x51 1 [(16, 8), (24, 4), (28, 4)] → repOk (if bitOf (ent e 1 1) 0 then 0x400000 else 0x4000000000) → free 0x51 →
        Gives swap s fun t => smStarted s t k e len (repOther s)) ∧
      (∀ x, runs 0x51 → o.phase = 2 → ready x → Gives swap s fun t => (gOp t i).phase = 3 ∧ (gOp t i).st = .running ∧
        ∀ m, m ∈ mapsOf x → isMapped s (m.1 / 32) = true → (gThr t (thrKey s m.1)).swap = true) ∧
      (∀ x g, runs 0x51 → o.phase = 3 → ready x → g ∈ namedBy x → swapStopped s g = false → keeps swap s) ∧
      (∀ x, runs 0x51 → o.phase = 3 → ready x → (∀ g, g ∈ namedBy x → swapStopped s g = true) → s.mg.mram.wrErr = false →
        Gives swap s fun t => ok t ∧ t.mg.sm.digest = Config.sha384Pair s.mg.sm.digest (imgDigest x)) ∧
      -- ENGINE_SWING, ENGINE_BIST
      (turn 0x60 0 [(8, 1), (9, 1), (10, 1), (12, 4)] → ¬swOk → ends swing 0x03) ∧
      (turn 0x60 0 [(8, 1), (9, 1), (10, 1), (12, 4)] → swOk → longBusy s 0x60 = false → swPick s (ent e 9 1) = none → ends swing 0x08) ∧
      (∀ q, turn 0x60 0 [(8, 1), (9, 1), (10, 1), (12, 4)] → swOk → free 0x60 → swPick s (ent e 9 1) = some q →
        Gives swing s fun t => smStarted s t k e 32 q ∧ (gPe t q).st = .ramp ∧ (gPe t q).goal = .swing k) ∧
      (runs 0x60 → n ≠ 0 → isMapped s (swEng o) = true → o.phase = 2 → stoppedCount s p0 = 32 → lap → swRetire o = false →
        o.arg < 68 → o.arg ≠ p0 → Gives swing s fun t => ok t ∧ physOf t (swEng o) = o.arg ∧ (gPe t p0).st = .off) ∧
      (runs 0x60 → n ≠ 0 → isMapped s (swEng o) = true → o.phase = 2 → stoppedCount s p0 ≠ 32 → Gives swing s fun t =>
        gOp t i = { o with prog := stoppedCount s p0 } ∧ t.en = s.en) ∧
      (turn 0x61 0 [(8, 1)] → 68 ≤ le ∨ peMapped s le = true → ends bist 0x03) ∧
      (turn 0x61 0 [(8, 1)] → le < 68 → peMapped s le = false → swingStages s le = false → (gPe s le).st = .off → free 0x61 →
        Gives bist s fun t => smStarted s t k e 1 (le + 128 * b2n (gPe s le).failed)) ∧
      (runs 0x61 → n ≠ 0 → (gPe s (o.arg % 128)).st = .bist → pass = true → s.mg.mram.wrErr = false → Gives bist s fun t => ok t ∧
        (gPe t (o.arg % 128)).st = .off ∧ (gPe t (o.arg % 128)).failed = false ∧ o.arg % 128 ∉ t.mg.sm.retired) ∧
      (runs 0x61 → n ≠ 0 → (gPe s (o.arg % 128)).st = .bist → pass = false → s.mg.mram.wrErr = false → Gives bist s fun t =>
        ok t ∧ (gPe t (o.arg % 128)).st = .off ∧ o.arg % 128 ∈ t.mg.sm.retired) ∧
      -- CHECKPOINT, RESTORE
      (turn 0x70 2 [(12, 4)] → longBusy s 0x70 = false → ckBase s (ckTarget s) = 0 → ends ckpt 0x09) ∧
      (turn 0x70 2 [(12, 4)] → free 0x70 → ckBase s (ckTarget s) ≠ 0 → Gives ckpt s fun t =>
        smStarted s t k e 0x3431000 (ckTarget s) ∧ held t) ∧
      (runs 0x70 → o.phase = 0 → portsQuiet s = false ∨ ¬lap → keeps ckpt s) ∧
      (runs 0x70 → o.phase = 0 → portsQuiet s = true → lap → Gives ckpt s fun t => t.mg.sm.frozen = true ∧
        (gOp t i).phase = 1) ∧
      (runs 0x70 → o.phase = 2 → wr.2 = false → Gives ckpt s fun t => t = mOp wr.1 i fun o => { o with phase := 4 }) ∧
      (runs 0x70 → o.phase = 2 → wr.2 = true → o.prog + n < o.total → Gives ckpt s fun t =>
        t = mOp wr.1 i fun o => { o with prog := o.prog + n }) ∧
      (runs 0x70 → o.phase = 2 → wr.2 = true → o.total ≤ o.prog + n → o.arg % 2 = 0 → Gives ckpt s fun t =>
        (gOp t i).phase = 3 ∧ (gOp t i).st = (if opHold o then .intermission else .running) ∧
          logAs wr.1 t (some (0x7050, [0, ckGen s])) ∧ ∃ c, t.mg.ckA = some c ∧ c.wings = s.ram.wings ∧ c.ce = s.en.ce ∧
          c.digest = s.mg.sm.digest ∧ c.gen = ckGen s) ∧
      (∀ x, x ∈ [(ckpt, 0x70), (rest, 0x71)] → runs x.2 → o.phase = 4 → ¬lap → keeps x.1 s) ∧
      (∀ x, x ∈ [(ckpt, 0x70), (rest, 0x71)] → runs x.2 → o.phase = 4 → lap → Gives x.1 s fun t =>
        smEnded t i .failed 0x07 ∧ t.mg.sm.frozen = false) ∧
      (runs 0x70 → o.phase = 3 → lap → Gives ckpt s fun t => ok t ∧ t.mg.sm.frozen = false) ∧
      (turn 0x71 2 [(8, 1), (12, 4)] → 2 ≤ le → le ≠ 0xFF → ends rest 0x03) ∧
      (∀ x, turn 0x71 2 [(8, 1), (12, 4)] → le < 2 → longBusy s 0x71 = false → ckSlot s le = some x →
        x.digest ≠ s.mg.sm.digest ∨ x.mask ≠ mappedList s → ends rest 0x0D) ∧
      (∀ x, turn 0x71 2 [(8, 1), (12, 4)] → le < 2 → free 0x71 → ckSlot s le = some x → x.digest = s.mg.sm.digest →
        x.mask = mappedList s → Gives rest s fun t => smStarted s t k e 0x3431000 le ∧ held t) ∧
      (runs 0x71 → o.phase = 2 → rd.2 = none → Gives rest s fun t => t = mOp rd.1 i fun o => { o with phase := 4 }) ∧
      (∀ bs, runs 0x71 → o.phase = 2 → rd.2 = some bs → o.total ≤ o.prog + n → Gives rest s fun t =>
        t = mOp rd.1 i fun o => { o with prog := o.total, committed := true, phase := 3 }) ∧
      (∀ x, runs 0x71 → o.phase = 3 → lap → ckSlot s (o.arg % 2) = some x → Gives rest s fun t => ok t ∧
        t.mg.sm.frozen = false ∧ t.ram.wings = x.wings ∧ t.en.ce = x.ce ∧ t.mv.dc = x.dc) ∧
      -- suspend points, timeouts, log, journal, units
      (let u := gOp s slot.val
        let waits (op phase us : Nat) : Prop := smAlive s = true ∧ u.st = .running ∧ opCode u = op ∧ u.phase = phase ∧
          us * tickUs ≤ (s.tb.now - u.t0).toNat
        (smAlive s = true → u.st = .running → u.susp = true → atSuspend u = true → Gives (.suspendPoint slot) s fun t =>
          gOp t slot.val = { u with st := .intermission, susp := false } ∧ t.en = s.en ∧ t.mg.log = s.mg.log) ∧
        (u.st ≠ .running ∨ u.susp = false ∨ atSuspend u = false → keeps (.suspendPoint slot) s) ∧
        (waits 0x51 3 (cmdTmo s (ent u.cmd 28 4)) → Gives (.longOperationTimeout slot) s fun t =>
          smEnded t slot.val .failed 0x0B) ∧
        (waits 0x60 2 (cmdTmo s (ent u.cmd 12 4)) → Gives (.longOperationTimeout slot) s fun t =>
          smEnded t slot.val .cancelled 0x0C) ∧
        (waits 0x70 0 (cmdTmo s (ent u.cmd 12 4)) → Gives (.longOperationTimeout slot) s fun t =>
          smEnded t slot.val .failed 0x0B ∧ ∀ p, p < 16 → (gDp t p).ckHold = false) ∧
        (u.st ≠ .running → keeps (.longOperationTimeout slot) s)) ∧
      (∀ x xs m, up s = true → s.mg.log.opened = true → s.mg.sm.restart = false → s.mg.log.buf = x :: xs →
        m = (if x.seq.toNat % 2 = 0 then 2 else 1) → Gives .logUnitWrite s fun t => t.mg.log = { s.mg.log with
          ring := ((s.mg.log.buf.take m).reverse ++ s.mg.log.ring).take 260096, buf := s.mg.log.buf.drop m } ∧
          t = { s with mg := { s.mg with log := t.mg.log } }) ∧
      (s.mg.log.opened = false ∨ s.mg.sm.restart = true → keeps .logUnitWrite s) ∧
      (compactDue s = false → keeps .journalCompaction s) ∧
      (∀ h, up s = true → s.mg.log.opened = true → s.mg.sm.restart = false → compactDue s = true → s.mg.mram.wrErr = false → rulingHalf s = some h →
        Gives .journalCompaction s fun t => rulingHalf t = some (1 - h) ∧ jGen t = jGen s + 1 ∧
          (jHalf t (1 - h)).recs = jImage (jView (jHalf s h).recs) ∧ t.en = s.en) ∧
      (up s = true → s.mg.sm.restart = false → Gives (.mramUnitWrite off data true) s fun t =>
        t = { s with mg := { s.mg with mram := { s.mg.mram with bytes := mwrite s.mg.mram.bytes off data } } }) ∧
      (s.mg.sm.restart = true → ∀ b, keeps (.mramUnitWrite off data b) s) ∧
      (up s = true → s.mg.sm.restart = false → Gives (.mramUnitWrite off data false) s fun t => t.mg.mram.wrErr = true ∧
        logAs s t (some (0x7012, [off])) ∧ t.en = s.en ∧ t.ram = s.ram ∧
          ∀ q, q < off ∨ off + 64 ≤ q → mget t.mg.mram.bytes q = mget s.mg.mram.bytes q)

/-! ### The whole machine -/

/-- A step takes the command at the front of the queue and runs it with the queue's rest. -/
def Obligations.StepTakesFront : Prop :=
  ∀ (c : Instr) (s : State) (rest : List Instr), s.pending = c :: rest → step s = exec c { s with pending := rest }

/-- With no command waiting the present ec goes on in three phases (the model's choice, log 9): first the rows that its start brings
come into the queue, then the words that issue in it, then it ends. At its end the number of the ec rises, the timebase advances by
INC (R249), at the next position 0 of a lap the lap count rises and CORR comes into use (R251), the thread that had an engine's slot
is the one that may not have the next (R118), a restart of the stage manager is over (R452), and the registers of a thread that waits
for no access and for no long operation stand, as do the always-on registers, the clocks, the lock and the MRAM. Behind the curtain
nothing changes. -/
def Obligations.IdleTick : Prop :=
  ∀ s : State, s.pending = [] → (up s = false → step s = .next s) ∧
    (up s = true → s.phase = 0 → step s = .next { s with pending := startRows s, phase := 1 }) ∧
    (up s = true → s.phase = 1 → step s = .next { s with pending := wordRows s, phase := 2 }) ∧
    (up s = true → 2 ≤ s.phase → ∃ t, step s = .next t ∧ t.ec = s.ec + 1 ∧ t.phase = 0 ∧ t.pending = [] ∧
      t.lap = (if (s.ec + 1) % 64 = 0 then s.lap + 1 else s.lap) ∧ t.tb.corr = s.tb.corr ∧
      t.tb.corrLive = (if (s.ec + 1) % 64 = 0 then s.tb.corr else s.tb.corrLive) ∧
      (s.tb.running = true → t.tb.now.toNat * 2 ^ 32 + t.tb.sub.toNat =
        (s.tb.now.toNat * 2 ^ 32 + s.tb.sub.toNat + (16 * 2 ^ 32 + s.tb.corrLive.toInt).toNat) % 2 ^ 96) ∧
      (s.tb.running = false → t.tb.now = s.tb.now ∧ t.tb.sub = s.tb.sub) ∧
      (∀ p, (gEng t p).slot = none ∧ ∀ k, (gEng s p).slot = some k → (gEng t p).prev = some k) ∧
      (s.mg.sm.restart = true → t.mg.sm.alive = true ∧ t.mg.sm.restart = false) ∧
      t.aon = s.aon ∧ t.clk = s.clk ∧ t.blk = s.blk ∧ t.mg.lock = s.mg.lock ∧ t.mg.mram = s.mg.mram ∧
      ∀ k, (gThr s k).held = none → (gThr s k).long = none → (gThr t k).r = (gThr s k).r)

/-- R74, R80, R91, R112, R256: the block as power-on reset leaves it is behind the curtain with reason 0x01, nothing is mapped, powered or
running, memories and tables are empty, and the queue of commands is empty. Of these, the reason and power state at which the block stands, the
contents of the memories and the engines' being off are in part the model's choice (log 2). -/
def Obligations.ResetState : Prop :=
  let r := State.reset
  r.pending = [] ∧ r.aon.reason = 0x01 ∧ r.aon.lastReason = 0x01 ∧ r.aon.isolate = false ∧ r.aon.power = .aon ∧ up r = false ∧
    blkStat r.blk = 0x100 ∧ r.tb.now = 0 ∧ r.tb.discEn = true ∧ r.tb.unsettled = true ∧ r.mg.lock.unlocked = false ∧
    (∀ e, isMapped r e = false) ∧ (∀ p, (gPe r p).st = .off) ∧ (∀ k, (gThr r k).st = .halt) ∧ (∀ c, (gDc r c).st = .off) ∧
    (∀ n, (gDp r n).en = false) ∧ (∀ a, mget r.ram.lm a = 0 ∧ mget r.ram.wings a = 0 ∧ mget r.ram.rep a = 0) ∧
    memOk r = true

/-- Every memory of the block keeps its canonical form through every command and every tick. -/
def Obligations.MemoryFormKept : Prop :=
  ∀ s t : State, memOk s = true → step s = .next t → memOk t = true

/-- Every command answers a next state and leaves the queue as it is; so every step with a command waiting answers a next state and
takes exactly the command at the front, and a step with none answers a next state. -/
def Obligations.CommandsLeaveQueue : Prop :=
  (∀ (c : Instr) (s : State), ∃ t, exec c s = .next t ∧ t.pending = s.pending) ∧
    ∀ s : State, ∃ t, step s = .next t ∧ (s.pending ≠ [] → t.pending = s.pending.tail)

/-- R118–R120, R124, R171, R284: which words issue. A command that is not the word at the PC of its thread or sequencer changes nothing,
nor does one whose thread or sequencer does not issue in the present ec or pc. A thread that issues is the one issuer of its engine in
the ec: it has not issued in the ec before, is in RUN, and owes no slot; it has the position of the present ec, or no owner of the
position is ready and it is the next ready ELASTIC thread after the one that the round-robin pointer names (a thread that resumes
from WAITT takes no such slot, R22). Its word takes the slot of the ec, so no thread of the engine issues another word in it. -/
def Obligations.IssueRules : Prop :=
  ∀ (c : Instr) (s : State),
    (∀ g, keOf c = some g → canIssue s g.val = false ∨ nextInstr s g ≠ some c → exec c s = .next s) ∧
      (∀ b, kpOf c = some b → sqIssues s b.val = false ∨ kpDecode b (kpWord (gSq s b.val)) ≠ c → exec c s = .next s) ∧
      (∀ g : Fin 2048, canIssue s g.val = true →
        let k := thrKey s g.val
        let p := k / 32
        let n := k % 32
        let e := gEng s p
        let x := gThr s k
        let skipped (u : Nat) : Prop := isFixed e u = true ∨ (gThr s (p * 32 + u)).ownFirst = true ∨ ready s (p * 32 + u) = false
        e.slot = none ∧ e.prev ≠ some n ∧ x.st = .run ∧ x.owe = 0 ∧ x.long = none ∧ x.held = none ∧ x.park = none ∧
          x.entering = none ∧ x.readyAt ≤ s.ec ∧ (isFixed e n = true → posThread e.live (s.ec % 64) = some n) ∧
          (∀ u, posThread e.live (s.ec % 64) = some u → u ≠ n → ready s (p * 32 + u) = false) ∧
          (posThread e.live (s.ec % 64) ≠ some n → ∃ i, i < 32 ∧ n = (e.rr + 1 + i) % 32 ∧
            ∀ j, j < i → skipped ((e.rr + 1 + j) % 32))) ∧
      ∀ g, keOf c = some g → canIssue s g.val = true → nextInstr s g = some c → Gives c s fun t =>
        (gEng t (thrKey s g.val / 32)).slot = some (thrKey s g.val % 32)

end
end

