-- ==== Sys2Proof/Laws/Tables.lean ====
section
/-! SUPPORT. Laws of tables and byte memories: a read after a write, and the canonical form kept by every operation. -/

namespace Sys2Proof.Machine

variable {α : Type}

/-! ### Reads -/

@[simp] theorem tget_nil (d : α) (k : Nat) : tget d [] k = d := rfl

theorem tget_tdel (d : α) (t : Tab α) (k j : Nat) : tget d (tdel t k) j = if j = k then d else tget d t j := by
  induction t with
  | nil => simp [tdel]
  | cons e t ih =>
    obtain ⟨k', v⟩ := e
    by_cases h : k' = k
    · subst h
      rw [tdel, if_pos rfl, ih]
      by_cases hj : j = k' <;> simp [tget, hj]
    · by_cases hj : j = k'
      · subst hj; simp [tdel, tget, h]
      · simp [tdel, tget, h, hj, ih]

theorem mem_tdel {t : Tab α} {k : Nat} {e : Nat × α} (h : e ∈ tdel t k) : e ∈ t ∧ e.1 ≠ k := by
  induction t with
  | nil => simp [tdel] at h
  | cons x t ih =>
    obtain ⟨k', v⟩ := x
    by_cases hk : k' = k
    · simp only [tdel, hk, if_true] at h
      exact ⟨List.mem_cons_of_mem _ (ih h).1, (ih h).2⟩
    · simp only [tdel, hk, if_false, List.mem_cons] at h
      rcases h with rfl | h
      · exact ⟨by simp, hk⟩
      · exact ⟨List.mem_cons_of_mem _ (ih h).1, (ih h).2⟩

theorem tget_tput (d : α) (t : Tab α) (k j : Nat) (v : α) (h : ∀ e ∈ t, e.1 ≠ k) :
    tget d (tput k v t) j = if j = k then v else tget d t j := by
  induction t with
  | nil => simp [tput, tget]
  | cons e t ih =>
    obtain ⟨k', w⟩ := e
    have hk : k' ≠ k := h (k', w) (by simp)
    have ih' := ih fun e he => h e (List.mem_cons_of_mem _ he)
    by_cases hlt : k < k'
    · simp [tput, hlt, tget]
    · by_cases hj : j = k'
      · subst hj; simp [tput, hlt, tget, hk]
      · simp [tput, hlt, tget, hj, ih']

/-- A read after a write of a table. -/
theorem tget_tset [DecidableEq α] (d : α) (t : Tab α) (k j : Nat) (v : α) :
    tget d (tset d t k v) j = if j = k then v else tget d t j := by
  unfold tset
  split
  · next h => subst h; exact tget_tdel _ t k j
  · rw [tget_tput d _ k j v fun e he => (mem_tdel he).2]
    by_cases hj : j = k <;> simp [hj, tget_tdel]

@[simp] theorem tget_tset_same [DecidableEq α] (d : α) (t : Tab α) (k : Nat) (v : α) :
    tget d (tset d t k v) k = v := by simp [tget_tset]

theorem tget_tset_ne [DecidableEq α] (d : α) (t : Tab α) {k j : Nat} (v : α) (h : j ≠ k) :
    tget d (tset d t k v) j = tget d t j := by simp [tget_tset, h]

/-! ### The canonical form -/

theorem twf_cons [DecidableEq α] {d : α} {k : Nat} {v : α} {t : Tab α} :
    twf d ((k, v) :: t) = true ↔ v ≠ d ∧ (∀ e ∈ t, k < e.1) ∧ twf d t = true := by
  simp [twf, and_assoc]

theorem twf_tdel [DecidableEq α] {d : α} {t : Tab α} (k : Nat) (h : twf d t = true) : twf d (tdel t k) = true := by
  induction t with
  | nil => rfl
  | cons e t ih =>
    obtain ⟨k', v⟩ := e
    rw [twf_cons] at h
    by_cases hk : k' = k
    · simpa [tdel, hk] using ih h.2.2
    · simp only [tdel, hk, if_false]
      exact twf_cons.2 ⟨h.1, fun e he => h.2.1 e (mem_tdel he).1, ih h.2.2⟩

theorem mem_tput {k : Nat} {v : α} {t : Tab α} {e : Nat × α} (h : e ∈ tput k v t) : e = (k, v) ∨ e ∈ t := by
  induction t with
  | nil => simpa [tput] using h
  | cons x t ih =>
    obtain ⟨k', w⟩ := x
    by_cases hlt : k < k'
    · simpa [tput, hlt] using h
    · simp only [tput, hlt, if_false, List.mem_cons] at h
      rcases h with rfl | h
      · simp
      · rcases ih h with h | h <;> simp [h]

theorem twf_tput [DecidableEq α] {d : α} {t : Tab α} {k : Nat} {v : α} (hv : v ≠ d)
    (hn : ∀ e ∈ t, e.1 ≠ k) (h : twf d t = true) : twf d (tput k v t) = true := by
  induction t with
  | nil => simp [tput, twf, hv]
  | cons x t ih =>
    obtain ⟨k', w⟩ := x
    have h' := twf_cons.1 h
    have hk : k' ≠ k := hn (k', w) (by simp)
    by_cases hlt : k < k'
    · simp only [tput, hlt, if_true]
      refine twf_cons.2 ⟨hv, fun e he => ?_, h⟩
      rcases List.mem_cons.1 he with rfl | he
      · exact hlt
      · exact Nat.lt_trans hlt (h'.2.1 e he)
    · simp only [tput, hlt, if_false]
      refine twf_cons.2 ⟨h'.1, fun e he => ?_, ih (fun e he => hn e (List.mem_cons_of_mem _ he)) h'.2.2⟩
      rcases mem_tput he with rfl | he
      · show k' < k; omega
      · exact h'.2.1 e he

theorem twf_tput_tdel [DecidableEq α] {d : α} {t : Tab α} {k : Nat} {v : α} (hv : v ≠ d) (h : twf d t = true) :
    twf d (tput k v (tdel t k)) = true := twf_tput hv (fun _ he => (mem_tdel he).2) (twf_tdel k h)

/-- Setting an entry keeps the canonical form. -/
theorem twf_tset [DecidableEq α] {d : α} {t : Tab α} (k : Nat) (v : α) (h : twf d t = true) :
    twf d (tset d t k v) = true := by
  unfold tset
  split
  · exact twf_tdel k h
  · next hv => exact twf_tput_tdel hv h

/-- A table with each entry rebuilt reads as the rebuilt entries. -/
theorem tget_tmap [DecidableEq α] {d : α} {f : α → α} (hf : f d = d) (t : Tab α) (k : Nat) :
    tget d (tmap d f t) k = f (tget d t k) := by
  induction t with
  | nil => exact hf.symm
  | cons e t ih =>
    rw [tmap, tget_tset, ih]
    by_cases h : k = e.1 <;> simp [tget, h]

/-- It is in canonical form, whatever it was made from. -/
theorem twf_tmap [DecidableEq α] {d : α} (f : α → α) (t : Tab α) : twf d (tmap d f t) = true := by
  induction t with
  | nil => rfl
  | cons e t ih => exact twf_tset _ _ ih

theorem twf_ne [DecidableEq α] {d : α} {t : Tab α} (h : twf d t = true) : ∀ e ∈ t, e.2 ≠ d := by
  induction t with
  | nil => simp
  | cons x t ih =>
    obtain ⟨k', w⟩ := x
    have h' := twf_cons.1 h
    intro e he
    rcases List.mem_cons.1 he with rfl | he
    · exact h'.1
    · exact ih h'.2.2 e he

theorem twf_filter [DecidableEq α] {d : α} {t : Tab α} (p : Nat × α → Bool) (h : twf d t = true) :
    twf d (t.filter p) = true := by
  induction t with
  | nil => rfl
  | cons x t ih =>
    obtain ⟨k', w⟩ := x
    have h' := twf_cons.1 h
    by_cases hp : p (k', w) = true
    · simp only [List.filter, hp]
      exact twf_cons.2 ⟨h'.1, fun e he => h'.2.1 e (List.mem_filter.1 he).1, ih h'.2.2⟩
    · simp only [List.filter, hp]
      exact ih h'.2.2

/-- Two tables in canonical form that read alike are one list. -/
theorem twf_ext [DecidableEq α] {d : α} {t u : Tab α} (ht : twf d t = true) (hu : twf d u = true)
    (h : ∀ k, tget d t k = tget d u k) : t = u := by
  have low : ∀ (x : Tab α) (k : Nat), (∀ e ∈ x, k < e.1) → tget d x k = d := by
    intro x k hx
    induction x with
    | nil => rfl
    | cons e x ih =>
      obtain ⟨k', w⟩ := e
      have hk : k < k' := hx (k', w) (by simp)
      simp only [tget, Nat.ne_of_lt hk, if_false]
      exact ih fun e he => hx e (List.mem_cons_of_mem _ he)
  induction t generalizing u with
  | nil =>
    cases u with
    | nil => rfl
    | cons y u =>
      obtain ⟨k, w⟩ := y
      have := h k
      simp only [tget, if_true] at this
      exact absurd this.symm (twf_cons.1 hu).1
  | cons x t ih =>
    obtain ⟨k, v⟩ := x
    cases u with
    | nil =>
      have := h k
      simp only [tget, if_true] at this
      exact absurd this (twf_cons.1 ht).1
    | cons y u =>
      obtain ⟨k', w⟩ := y
      have ht' := twf_cons.1 ht
      have hu' := twf_cons.1 hu
      have hkk : k = k' := by
        rcases Nat.lt_trichotomy k k' with hlt | heq | hgt
        · have := h k
          rw [low ((k', w) :: u) k (by
            intro e he
            rcases List.mem_cons.1 he with rfl | he
            · exact hlt
            · exact Nat.lt_trans hlt (hu'.2.1 e he))] at this
          simp only [tget, if_true] at this
          exact absurd this ht'.1
        · exact heq
        · have := h k'
          rw [low ((k, v) :: t) k' (by
            intro e he
            rcases List.mem_cons.1 he with rfl | he
            · exact hgt
            · exact Nat.lt_trans hgt (ht'.2.1 e he))] at this
          simp only [tget, if_true] at this
          exact absurd this.symm hu'.1
      subst hkk
      have hv : v = w := by simpa [tget] using h k
      subst hv
      congr 1
      apply ih ht'.2.2 hu'.2.2
      intro j
      by_cases hj : j = k
      · subst hj; rw [low t j ht'.2.1, low u j hu'.2.1]
      · simpa [tget, hj] using h j

/-! ### Byte memories -/

theorem mget_mset (m : Mem) (a j : Nat) (b : W8) : mget (mset m a b) j = if j = a then b else mget m j :=
  tget_tset 0 m a j b

theorem Memory.wf_mset {m : Mem} (a : Nat) (b : W8) (h : Memory.wf m = true) : Memory.wf (mset m a b) = true :=
  twf_tset a b h

/-- Writing bytes keeps the canonical form. -/
theorem Memory.wf_mwrite (bs : List W8) : ∀ {m : Mem} (a : Nat), Memory.wf m = true → Memory.wf (mwrite m a bs) = true := by
  induction bs with
  | nil => intro m a h; exact h
  | cons b bs ih => intro m a h; exact ih (a + 1) (Memory.wf_mset a b h)

/-- A read of one byte after a write of bytes. -/
theorem mget_mwrite (bs : List W8) : ∀ (m : Mem) (a j : Nat),
    mget (mwrite m a bs) j = if a ≤ j then (match bs[j - a]? with | some b => b | none => mget m j) else mget m j := by
  induction bs with
  | nil => intro m a j; simp [mwrite]
  | cons b bs ih =>
    intro m a j
    rw [mwrite, ih (mset m a b) (a + 1) j]
    by_cases h1 : a + 1 ≤ j
    · have h0 : a ≤ j := by omega
      have hj : j ≠ a := by omega
      obtain ⟨n, rfl⟩ : ∃ n, j = a + 1 + n := ⟨j - (a + 1), by omega⟩
      have e1 : a + 1 + n - (a + 1) = n := by omega
      have e2 : a + 1 + n - a = n + 1 := by omega
      simp [h0, e1, e2, mget_mset, hj]
    · by_cases h0 : a = j
      · subst h0; simp [mget_mset, h1]
      · have : ¬ a ≤ j := by omega
        simp [h1, this, mget_mset, Ne.symm h0]

theorem Memory.wf_tclr {m : Mem} (a n : Nat) (h : Memory.wf m = true) : Memory.wf (tclr m a n) = true :=
  twf_filter _ h

theorem Memory.wf_foldl_put (g : Nat → Option Nat) (l : Mem) : ∀ (acc : Mem), (∀ e ∈ l, e.2 ≠ 0) → Memory.wf acc = true →
    Memory.wf (l.foldl (fun acc x => match g x.1 with
      | some k => tput k x.2 (tdel acc k)
      | none => acc) acc) = true := by
  induction l with
  | nil => intro acc _ h; exact h
  | cons x l ih =>
    intro acc hl h
    refine ih _ (fun e he => hl e (List.mem_cons_of_mem _ he)) ?_
    show Memory.wf (match g x.1 with | some k => tput k x.2 (tdel acc k) | none => acc) = true
    split
    · exact twf_tput_tdel (hl x (by simp)) h
    · exact h

/-- Moving a block of bytes keeps the canonical form. -/
theorem Memory.wf_tmove {m : Mem} (a b n : Nat) (h : Memory.wf m = true) : Memory.wf (tmove m a b n) = true := by
  unfold tmove
  exact Memory.wf_foldl_put (fun k => some (k - a + b)) _ _
    (fun e he => twf_ne h e (List.mem_filter.1 he).1) (twf_filter _ (twf_filter _ h))

/-- Moving blocks of bytes keeps the canonical form. -/
theorem Memory.wf_remap {m : Mem} (n : Nat) (f : Nat → Option Nat) (h : Memory.wf m = true) :
    Memory.wf (remap m n f) = true := by
  have key := Memory.wf_foldl_put (fun k => (f (k / n)).map fun b => b * n + k % n) m [] (twf_ne h) rfl
  have e : (fun (acc : Mem) (x : Nat × W8) => match (f (x.1 / n)).map fun b => b * n + x.1 % n with
      | some k => tput k x.2 (tdel acc k)
      | none => acc) = fun acc x => match f (x.1 / n) with
      | some b => tput (b * n + x.1 % n) x.2 (tdel acc (b * n + x.1 % n))
      | none => acc := by
    funext acc x
    cases f (x.1 / n) <;> rfl
  rw [e] at key
  exact key

end Sys2Proof.Machine
end

