-- ==== Sys2Proof/Laws/State.lean ====
section
/-! SUPPORT. Laws of the state: what each named update leaves in each field, and what a part reads after its own update.
Every law but those about tables is true by definition. -/

namespace Sys2Proof.Machine

variable (s : State)

/-! ### mThr -/

@[simp] theorem mThr_pending (k : Nat) (f : Thread → Thread) : (mThr s k f).pending = s.pending := rfl
@[simp] theorem mThr_fresh (k : Nat) (f : Thread → Thread) : (mThr s k f).fresh = s.fresh := rfl
@[simp] theorem mThr_ec (k : Nat) (f : Thread → Thread) : (mThr s k f).ec = s.ec := rfl
@[simp] theorem mThr_phase (k : Nat) (f : Thread → Thread) : (mThr s k f).phase = s.phase := rfl
@[simp] theorem mThr_lap (k : Nat) (f : Thread → Thread) : (mThr s k f).lap = s.lap := rfl
@[simp] theorem mThr_aon (k : Nat) (f : Thread → Thread) : (mThr s k f).aon = s.aon := rfl
@[simp] theorem mThr_blk (k : Nat) (f : Thread → Thread) : (mThr s k f).blk = s.blk := rfl
@[simp] theorem mThr_clk (k : Nat) (f : Thread → Thread) : (mThr s k f).clk = s.clk := rfl
@[simp] theorem mThr_hp (k : Nat) (f : Thread → Thread) : (mThr s k f).hp = s.hp := rfl
@[simp] theorem mThr_ms (k : Nat) (f : Thread → Thread) : (mThr s k f).ms = s.ms := rfl
@[simp] theorem mThr_ram (k : Nat) (f : Thread → Thread) : (mThr s k f).ram = s.ram := rfl
@[simp] theorem mThr_tb (k : Nat) (f : Thread → Thread) : (mThr s k f).tb = s.tb := rfl
@[simp] theorem mThr_en_pe (k : Nat) (f : Thread → Thread) : (mThr s k f).en.pe = s.en.pe := rfl
@[simp] theorem mThr_en_emap (k : Nat) (f : Thread → Thread) : (mThr s k f).en.emap = s.en.emap := rfl
@[simp] theorem mThr_en_eng (k : Nat) (f : Thread → Thread) : (mThr s k f).en.eng = s.en.eng := rfl
@[simp] theorem mThr_en_ic (k : Nat) (f : Thread → Thread) : (mThr s k f).en.ic = s.en.ic := rfl
@[simp] theorem mThr_en_ce (k : Nat) (f : Thread → Thread) : (mThr s k f).en.ce = s.en.ce := rfl
@[simp] theorem mThr_en_cb (k : Nat) (f : Thread → Thread) : (mThr s k f).en.cb = s.en.cb := rfl
@[simp] theorem mThr_en_thr (k : Nat) (f : Thread → Thread) : (mThr s k f).en.thr = tset {} s.en.thr k (f (gThr s k)) := rfl
@[simp] theorem mThr_pin (k : Nat) (f : Thread → Thread) : (mThr s k f).pin = s.pin := rfl
@[simp] theorem mThr_bank (k : Nat) (f : Thread → Thread) : (mThr s k f).bank = s.bank := rfl
@[simp] theorem mThr_tr (k : Nat) (f : Thread → Thread) : (mThr s k f).tr = s.tr := rfl
@[simp] theorem mThr_mv (k : Nat) (f : Thread → Thread) : (mThr s k f).mv = s.mv := rfl
@[simp] theorem mThr_mg (k : Nat) (f : Thread → Thread) : (mThr s k f).mg = s.mg := rfl

/-! ### mEng -/

@[simp] theorem mEng_pending (k : Nat) (f : Eng → Eng) : (mEng s k f).pending = s.pending := rfl
@[simp] theorem mEng_fresh (k : Nat) (f : Eng → Eng) : (mEng s k f).fresh = s.fresh := rfl
@[simp] theorem mEng_ec (k : Nat) (f : Eng → Eng) : (mEng s k f).ec = s.ec := rfl
@[simp] theorem mEng_phase (k : Nat) (f : Eng → Eng) : (mEng s k f).phase = s.phase := rfl
@[simp] theorem mEng_lap (k : Nat) (f : Eng → Eng) : (mEng s k f).lap = s.lap := rfl
@[simp] theorem mEng_aon (k : Nat) (f : Eng → Eng) : (mEng s k f).aon = s.aon := rfl
@[simp] theorem mEng_blk (k : Nat) (f : Eng → Eng) : (mEng s k f).blk = s.blk := rfl
@[simp] theorem mEng_clk (k : Nat) (f : Eng → Eng) : (mEng s k f).clk = s.clk := rfl
@[simp] theorem mEng_hp (k : Nat) (f : Eng → Eng) : (mEng s k f).hp = s.hp := rfl
@[simp] theorem mEng_ms (k : Nat) (f : Eng → Eng) : (mEng s k f).ms = s.ms := rfl
@[simp] theorem mEng_ram (k : Nat) (f : Eng → Eng) : (mEng s k f).ram = s.ram := rfl
@[simp] theorem mEng_tb (k : Nat) (f : Eng → Eng) : (mEng s k f).tb = s.tb := rfl
@[simp] theorem mEng_en_pe (k : Nat) (f : Eng → Eng) : (mEng s k f).en.pe = s.en.pe := rfl
@[simp] theorem mEng_en_emap (k : Nat) (f : Eng → Eng) : (mEng s k f).en.emap = s.en.emap := rfl
@[simp] theorem mEng_en_thr (k : Nat) (f : Eng → Eng) : (mEng s k f).en.thr = s.en.thr := rfl
@[simp] theorem mEng_en_ic (k : Nat) (f : Eng → Eng) : (mEng s k f).en.ic = s.en.ic := rfl
@[simp] theorem mEng_en_ce (k : Nat) (f : Eng → Eng) : (mEng s k f).en.ce = s.en.ce := rfl
@[simp] theorem mEng_en_cb (k : Nat) (f : Eng → Eng) : (mEng s k f).en.cb = s.en.cb := rfl
@[simp] theorem mEng_en_eng (k : Nat) (f : Eng → Eng) : (mEng s k f).en.eng = tset {} s.en.eng k (f (gEng s k)) := rfl
@[simp] theorem mEng_pin (k : Nat) (f : Eng → Eng) : (mEng s k f).pin = s.pin := rfl
@[simp] theorem mEng_bank (k : Nat) (f : Eng → Eng) : (mEng s k f).bank = s.bank := rfl
@[simp] theorem mEng_tr (k : Nat) (f : Eng → Eng) : (mEng s k f).tr = s.tr := rfl
@[simp] theorem mEng_mv (k : Nat) (f : Eng → Eng) : (mEng s k f).mv = s.mv := rfl
@[simp] theorem mEng_mg (k : Nat) (f : Eng → Eng) : (mEng s k f).mg = s.mg := rfl

/-! ### mPe -/

@[simp] theorem mPe_pending (k : Nat) (f : Pe → Pe) : (mPe s k f).pending = s.pending := rfl
@[simp] theorem mPe_fresh (k : Nat) (f : Pe → Pe) : (mPe s k f).fresh = s.fresh := rfl
@[simp] theorem mPe_ec (k : Nat) (f : Pe → Pe) : (mPe s k f).ec = s.ec := rfl
@[simp] theorem mPe_phase (k : Nat) (f : Pe → Pe) : (mPe s k f).phase = s.phase := rfl
@[simp] theorem mPe_lap (k : Nat) (f : Pe → Pe) : (mPe s k f).lap = s.lap := rfl
@[simp] theorem mPe_aon (k : Nat) (f : Pe → Pe) : (mPe s k f).aon = s.aon := rfl
@[simp] theorem mPe_blk (k : Nat) (f : Pe → Pe) : (mPe s k f).blk = s.blk := rfl
@[simp] theorem mPe_clk (k : Nat) (f : Pe → Pe) : (mPe s k f).clk = s.clk := rfl
@[simp] theorem mPe_hp (k : Nat) (f : Pe → Pe) : (mPe s k f).hp = s.hp := rfl
@[simp] theorem mPe_ms (k : Nat) (f : Pe → Pe) : (mPe s k f).ms = s.ms := rfl
@[simp] theorem mPe_ram (k : Nat) (f : Pe → Pe) : (mPe s k f).ram = s.ram := rfl
@[simp] theorem mPe_tb (k : Nat) (f : Pe → Pe) : (mPe s k f).tb = s.tb := rfl
@[simp] theorem mPe_en_emap (k : Nat) (f : Pe → Pe) : (mPe s k f).en.emap = s.en.emap := rfl
@[simp] theorem mPe_en_thr (k : Nat) (f : Pe → Pe) : (mPe s k f).en.thr = s.en.thr := rfl
@[simp] theorem mPe_en_eng (k : Nat) (f : Pe → Pe) : (mPe s k f).en.eng = s.en.eng := rfl
@[simp] theorem mPe_en_ic (k : Nat) (f : Pe → Pe) : (mPe s k f).en.ic = s.en.ic := rfl
@[simp] theorem mPe_en_ce (k : Nat) (f : Pe → Pe) : (mPe s k f).en.ce = s.en.ce := rfl
@[simp] theorem mPe_en_cb (k : Nat) (f : Pe → Pe) : (mPe s k f).en.cb = s.en.cb := rfl
@[simp] theorem mPe_en_pe (k : Nat) (f : Pe → Pe) : (mPe s k f).en.pe = tset {} s.en.pe k (f (gPe s k)) := rfl
@[simp] theorem mPe_pin (k : Nat) (f : Pe → Pe) : (mPe s k f).pin = s.pin := rfl
@[simp] theorem mPe_bank (k : Nat) (f : Pe → Pe) : (mPe s k f).bank = s.bank := rfl
@[simp] theorem mPe_tr (k : Nat) (f : Pe → Pe) : (mPe s k f).tr = s.tr := rfl
@[simp] theorem mPe_mv (k : Nat) (f : Pe → Pe) : (mPe s k f).mv = s.mv := rfl
@[simp] theorem mPe_mg (k : Nat) (f : Pe → Pe) : (mPe s k f).mg = s.mg := rfl

/-! ### mIc -/

@[simp] theorem mIc_pending (k : Nat) (f : Icache → Icache) : (mIc s k f).pending = s.pending := rfl
@[simp] theorem mIc_fresh (k : Nat) (f : Icache → Icache) : (mIc s k f).fresh = s.fresh := rfl
@[simp] theorem mIc_ec (k : Nat) (f : Icache → Icache) : (mIc s k f).ec = s.ec := rfl
@[simp] theorem mIc_phase (k : Nat) (f : Icache → Icache) : (mIc s k f).phase = s.phase := rfl
@[simp] theorem mIc_lap (k : Nat) (f : Icache → Icache) : (mIc s k f).lap = s.lap := rfl
@[simp] theorem mIc_aon (k : Nat) (f : Icache → Icache) : (mIc s k f).aon = s.aon := rfl
@[simp] theorem mIc_blk (k : Nat) (f : Icache → Icache) : (mIc s k f).blk = s.blk := rfl
@[simp] theorem mIc_clk (k : Nat) (f : Icache → Icache) : (mIc s k f).clk = s.clk := rfl
@[simp] theorem mIc_hp (k : Nat) (f : Icache → Icache) : (mIc s k f).hp = s.hp := rfl
@[simp] theorem mIc_ms (k : Nat) (f : Icache → Icache) : (mIc s k f).ms = s.ms := rfl
@[simp] theorem mIc_ram (k : Nat) (f : Icache → Icache) : (mIc s k f).ram = s.ram := rfl
@[simp] theorem mIc_tb (k : Nat) (f : Icache → Icache) : (mIc s k f).tb = s.tb := rfl
@[simp] theorem mIc_en_pe (k : Nat) (f : Icache → Icache) : (mIc s k f).en.pe = s.en.pe := rfl
@[simp] theorem mIc_en_emap (k : Nat) (f : Icache → Icache) : (mIc s k f).en.emap = s.en.emap := rfl
@[simp] theorem mIc_en_thr (k : Nat) (f : Icache → Icache) : (mIc s k f).en.thr = s.en.thr := rfl
@[simp] theorem mIc_en_eng (k : Nat) (f : Icache → Icache) : (mIc s k f).en.eng = s.en.eng := rfl
@[simp] theorem mIc_en_ce (k : Nat) (f : Icache → Icache) : (mIc s k f).en.ce = s.en.ce := rfl
@[simp] theorem mIc_en_cb (k : Nat) (f : Icache → Icache) : (mIc s k f).en.cb = s.en.cb := rfl
@[simp] theorem mIc_en_ic (k : Nat) (f : Icache → Icache) : (mIc s k f).en.ic = tset {} s.en.ic k (f (gIc s k)) := rfl
@[simp] theorem mIc_pin (k : Nat) (f : Icache → Icache) : (mIc s k f).pin = s.pin := rfl
@[simp] theorem mIc_bank (k : Nat) (f : Icache → Icache) : (mIc s k f).bank = s.bank := rfl
@[simp] theorem mIc_tr (k : Nat) (f : Icache → Icache) : (mIc s k f).tr = s.tr := rfl
@[simp] theorem mIc_mv (k : Nat) (f : Icache → Icache) : (mIc s k f).mv = s.mv := rfl
@[simp] theorem mIc_mg (k : Nat) (f : Icache → Icache) : (mIc s k f).mg = s.mg := rfl

/-! ### mCe -/

@[simp] theorem mCe_pending (k : Nat) (f : Ce → Ce) : (mCe s k f).pending = s.pending := rfl
@[simp] theorem mCe_fresh (k : Nat) (f : Ce → Ce) : (mCe s k f).fresh = s.fresh := rfl
@[simp] theorem mCe_ec (k : Nat) (f : Ce → Ce) : (mCe s k f).ec = s.ec := rfl
@[simp] theorem mCe_phase (k : Nat) (f : Ce → Ce) : (mCe s k f).phase = s.phase := rfl
@[simp] theorem mCe_lap (k : Nat) (f : Ce → Ce) : (mCe s k f).lap = s.lap := rfl
@[simp] theorem mCe_aon (k : Nat) (f : Ce → Ce) : (mCe s k f).aon = s.aon := rfl
@[simp] theorem mCe_blk (k : Nat) (f : Ce → Ce) : (mCe s k f).blk = s.blk := rfl
@[simp] theorem mCe_clk (k : Nat) (f : Ce → Ce) : (mCe s k f).clk = s.clk := rfl
@[simp] theorem mCe_hp (k : Nat) (f : Ce → Ce) : (mCe s k f).hp = s.hp := rfl
@[simp] theorem mCe_ms (k : Nat) (f : Ce → Ce) : (mCe s k f).ms = s.ms := rfl
@[simp] theorem mCe_ram (k : Nat) (f : Ce → Ce) : (mCe s k f).ram = s.ram := rfl
@[simp] theorem mCe_tb (k : Nat) (f : Ce → Ce) : (mCe s k f).tb = s.tb := rfl
@[simp] theorem mCe_en_pe (k : Nat) (f : Ce → Ce) : (mCe s k f).en.pe = s.en.pe := rfl
@[simp] theorem mCe_en_emap (k : Nat) (f : Ce → Ce) : (mCe s k f).en.emap = s.en.emap := rfl
@[simp] theorem mCe_en_thr (k : Nat) (f : Ce → Ce) : (mCe s k f).en.thr = s.en.thr := rfl
@[simp] theorem mCe_en_eng (k : Nat) (f : Ce → Ce) : (mCe s k f).en.eng = s.en.eng := rfl
@[simp] theorem mCe_en_ic (k : Nat) (f : Ce → Ce) : (mCe s k f).en.ic = s.en.ic := rfl
@[simp] theorem mCe_en_cb (k : Nat) (f : Ce → Ce) : (mCe s k f).en.cb = s.en.cb := rfl
@[simp] theorem mCe_en_ce (k : Nat) (f : Ce → Ce) : (mCe s k f).en.ce = tset {} s.en.ce k (f (gCe s k)) := rfl
@[simp] theorem mCe_pin (k : Nat) (f : Ce → Ce) : (mCe s k f).pin = s.pin := rfl
@[simp] theorem mCe_bank (k : Nat) (f : Ce → Ce) : (mCe s k f).bank = s.bank := rfl
@[simp] theorem mCe_tr (k : Nat) (f : Ce → Ce) : (mCe s k f).tr = s.tr := rfl
@[simp] theorem mCe_mv (k : Nat) (f : Ce → Ce) : (mCe s k f).mv = s.mv := rfl
@[simp] theorem mCe_mg (k : Nat) (f : Ce → Ce) : (mCe s k f).mg = s.mg := rfl

/-! ### mCb -/

@[simp] theorem mCb_pending (f : Cb → Cb) : (mCb s f).pending = s.pending := rfl
@[simp] theorem mCb_fresh (f : Cb → Cb) : (mCb s f).fresh = s.fresh := rfl
@[simp] theorem mCb_ec (f : Cb → Cb) : (mCb s f).ec = s.ec := rfl
@[simp] theorem mCb_phase (f : Cb → Cb) : (mCb s f).phase = s.phase := rfl
@[simp] theorem mCb_lap (f : Cb → Cb) : (mCb s f).lap = s.lap := rfl
@[simp] theorem mCb_aon (f : Cb → Cb) : (mCb s f).aon = s.aon := rfl
@[simp] theorem mCb_blk (f : Cb → Cb) : (mCb s f).blk = s.blk := rfl
@[simp] theorem mCb_clk (f : Cb → Cb) : (mCb s f).clk = s.clk := rfl
@[simp] theorem mCb_hp (f : Cb → Cb) : (mCb s f).hp = s.hp := rfl
@[simp] theorem mCb_ms (f : Cb → Cb) : (mCb s f).ms = s.ms := rfl
@[simp] theorem mCb_ram (f : Cb → Cb) : (mCb s f).ram = s.ram := rfl
@[simp] theorem mCb_tb (f : Cb → Cb) : (mCb s f).tb = s.tb := rfl
@[simp] theorem mCb_en_pe (f : Cb → Cb) : (mCb s f).en.pe = s.en.pe := rfl
@[simp] theorem mCb_en_emap (f : Cb → Cb) : (mCb s f).en.emap = s.en.emap := rfl
@[simp] theorem mCb_en_thr (f : Cb → Cb) : (mCb s f).en.thr = s.en.thr := rfl
@[simp] theorem mCb_en_eng (f : Cb → Cb) : (mCb s f).en.eng = s.en.eng := rfl
@[simp] theorem mCb_en_ic (f : Cb → Cb) : (mCb s f).en.ic = s.en.ic := rfl
@[simp] theorem mCb_en_ce (f : Cb → Cb) : (mCb s f).en.ce = s.en.ce := rfl
@[simp] theorem mCb_en_cb (f : Cb → Cb) : (mCb s f).en.cb = f s.en.cb := rfl
@[simp] theorem mCb_pin (f : Cb → Cb) : (mCb s f).pin = s.pin := rfl
@[simp] theorem mCb_bank (f : Cb → Cb) : (mCb s f).bank = s.bank := rfl
@[simp] theorem mCb_tr (f : Cb → Cb) : (mCb s f).tr = s.tr := rfl
@[simp] theorem mCb_mv (f : Cb → Cb) : (mCb s f).mv = s.mv := rfl
@[simp] theorem mCb_mg (f : Cb → Cb) : (mCb s f).mg = s.mg := rfl

/-! ### mTmr -/

@[simp] theorem mTmr_pending (p n : Nat) (f : Tmr → Tmr) : (mTmr s p n f).pending = s.pending := rfl
@[simp] theorem mTmr_fresh (p n : Nat) (f : Tmr → Tmr) : (mTmr s p n f).fresh = s.fresh := rfl
@[simp] theorem mTmr_ec (p n : Nat) (f : Tmr → Tmr) : (mTmr s p n f).ec = s.ec := rfl
@[simp] theorem mTmr_phase (p n : Nat) (f : Tmr → Tmr) : (mTmr s p n f).phase = s.phase := rfl
@[simp] theorem mTmr_lap (p n : Nat) (f : Tmr → Tmr) : (mTmr s p n f).lap = s.lap := rfl
@[simp] theorem mTmr_aon (p n : Nat) (f : Tmr → Tmr) : (mTmr s p n f).aon = s.aon := rfl
@[simp] theorem mTmr_blk (p n : Nat) (f : Tmr → Tmr) : (mTmr s p n f).blk = s.blk := rfl
@[simp] theorem mTmr_clk (p n : Nat) (f : Tmr → Tmr) : (mTmr s p n f).clk = s.clk := rfl
@[simp] theorem mTmr_hp (p n : Nat) (f : Tmr → Tmr) : (mTmr s p n f).hp = s.hp := rfl
@[simp] theorem mTmr_ms (p n : Nat) (f : Tmr → Tmr) : (mTmr s p n f).ms = s.ms := rfl
@[simp] theorem mTmr_ram (p n : Nat) (f : Tmr → Tmr) : (mTmr s p n f).ram = s.ram := rfl
@[simp] theorem mTmr_tb (p n : Nat) (f : Tmr → Tmr) : (mTmr s p n f).tb = s.tb := rfl
@[simp] theorem mTmr_en_pe (p n : Nat) (f : Tmr → Tmr) : (mTmr s p n f).en.pe = s.en.pe := rfl
@[simp] theorem mTmr_en_emap (p n : Nat) (f : Tmr → Tmr) : (mTmr s p n f).en.emap = s.en.emap := rfl
@[simp] theorem mTmr_en_thr (p n : Nat) (f : Tmr → Tmr) : (mTmr s p n f).en.thr = s.en.thr := rfl
@[simp] theorem mTmr_en_ic (p n : Nat) (f : Tmr → Tmr) : (mTmr s p n f).en.ic = s.en.ic := rfl
@[simp] theorem mTmr_en_ce (p n : Nat) (f : Tmr → Tmr) : (mTmr s p n f).en.ce = s.en.ce := rfl
@[simp] theorem mTmr_en_cb (p n : Nat) (f : Tmr → Tmr) : (mTmr s p n f).en.cb = s.en.cb := rfl
@[simp] theorem mTmr_pin (p n : Nat) (f : Tmr → Tmr) : (mTmr s p n f).pin = s.pin := rfl
@[simp] theorem mTmr_bank (p n : Nat) (f : Tmr → Tmr) : (mTmr s p n f).bank = s.bank := rfl
@[simp] theorem mTmr_tr (p n : Nat) (f : Tmr → Tmr) : (mTmr s p n f).tr = s.tr := rfl
@[simp] theorem mTmr_mv (p n : Nat) (f : Tmr → Tmr) : (mTmr s p n f).mv = s.mv := rfl
@[simp] theorem mTmr_mg (p n : Nat) (f : Tmr → Tmr) : (mTmr s p n f).mg = s.mg := rfl

/-! ### mPin -/

@[simp] theorem mPin_pending (k : Nat) (f : Pin → Pin) : (mPin s k f).pending = s.pending := rfl
@[simp] theorem mPin_fresh (k : Nat) (f : Pin → Pin) : (mPin s k f).fresh = s.fresh := rfl
@[simp] theorem mPin_ec (k : Nat) (f : Pin → Pin) : (mPin s k f).ec = s.ec := rfl
@[simp] theorem mPin_phase (k : Nat) (f : Pin → Pin) : (mPin s k f).phase = s.phase := rfl
@[simp] theorem mPin_lap (k : Nat) (f : Pin → Pin) : (mPin s k f).lap = s.lap := rfl
@[simp] theorem mPin_aon (k : Nat) (f : Pin → Pin) : (mPin s k f).aon = s.aon := rfl
@[simp] theorem mPin_blk (k : Nat) (f : Pin → Pin) : (mPin s k f).blk = s.blk := rfl
@[simp] theorem mPin_clk (k : Nat) (f : Pin → Pin) : (mPin s k f).clk = s.clk := rfl
@[simp] theorem mPin_hp (k : Nat) (f : Pin → Pin) : (mPin s k f).hp = s.hp := rfl
@[simp] theorem mPin_ms (k : Nat) (f : Pin → Pin) : (mPin s k f).ms = s.ms := rfl
@[simp] theorem mPin_ram (k : Nat) (f : Pin → Pin) : (mPin s k f).ram = s.ram := rfl
@[simp] theorem mPin_tb (k : Nat) (f : Pin → Pin) : (mPin s k f).tb = s.tb := rfl
@[simp] theorem mPin_en (k : Nat) (f : Pin → Pin) : (mPin s k f).en = s.en := rfl
@[simp] theorem mPin_pin (k : Nat) (f : Pin → Pin) : (mPin s k f).pin = tset {} s.pin k (f (gPin s k)) := rfl
@[simp] theorem mPin_bank (k : Nat) (f : Pin → Pin) : (mPin s k f).bank = s.bank := rfl
@[simp] theorem mPin_tr (k : Nat) (f : Pin → Pin) : (mPin s k f).tr = s.tr := rfl
@[simp] theorem mPin_mv (k : Nat) (f : Pin → Pin) : (mPin s k f).mv = s.mv := rfl
@[simp] theorem mPin_mg (k : Nat) (f : Pin → Pin) : (mPin s k f).mg = s.mg := rfl

/-! ### mBank -/

@[simp] theorem mBank_pending (k : Nat) (f : Bank → Bank) : (mBank s k f).pending = s.pending := rfl
@[simp] theorem mBank_fresh (k : Nat) (f : Bank → Bank) : (mBank s k f).fresh = s.fresh := rfl
@[simp] theorem mBank_ec (k : Nat) (f : Bank → Bank) : (mBank s k f).ec = s.ec := rfl
@[simp] theorem mBank_phase (k : Nat) (f : Bank → Bank) : (mBank s k f).phase = s.phase := rfl
@[simp] theorem mBank_lap (k : Nat) (f : Bank → Bank) : (mBank s k f).lap = s.lap := rfl
@[simp] theorem mBank_aon (k : Nat) (f : Bank → Bank) : (mBank s k f).aon = s.aon := rfl
@[simp] theorem mBank_blk (k : Nat) (f : Bank → Bank) : (mBank s k f).blk = s.blk := rfl
@[simp] theorem mBank_clk (k : Nat) (f : Bank → Bank) : (mBank s k f).clk = s.clk := rfl
@[simp] theorem mBank_hp (k : Nat) (f : Bank → Bank) : (mBank s k f).hp = s.hp := rfl
@[simp] theorem mBank_ms (k : Nat) (f : Bank → Bank) : (mBank s k f).ms = s.ms := rfl
@[simp] theorem mBank_ram (k : Nat) (f : Bank → Bank) : (mBank s k f).ram = s.ram := rfl
@[simp] theorem mBank_tb (k : Nat) (f : Bank → Bank) : (mBank s k f).tb = s.tb := rfl
@[simp] theorem mBank_en (k : Nat) (f : Bank → Bank) : (mBank s k f).en = s.en := rfl
@[simp] theorem mBank_pin (k : Nat) (f : Bank → Bank) : (mBank s k f).pin = s.pin := rfl
@[simp] theorem mBank_bank (k : Nat) (f : Bank → Bank) : (mBank s k f).bank = tset {} s.bank k (f (gBank s k)) := rfl
@[simp] theorem mBank_tr (k : Nat) (f : Bank → Bank) : (mBank s k f).tr = s.tr := rfl
@[simp] theorem mBank_mv (k : Nat) (f : Bank → Bank) : (mBank s k f).mv = s.mv := rfl
@[simp] theorem mBank_mg (k : Nat) (f : Bank → Bank) : (mBank s k f).mg = s.mg := rfl

/-! ### mSq -/

@[simp] theorem mSq_pending (b : Nat) (f : Sq → Sq) : (mSq s b f).pending = s.pending := rfl
@[simp] theorem mSq_fresh (b : Nat) (f : Sq → Sq) : (mSq s b f).fresh = s.fresh := rfl
@[simp] theorem mSq_ec (b : Nat) (f : Sq → Sq) : (mSq s b f).ec = s.ec := rfl
@[simp] theorem mSq_phase (b : Nat) (f : Sq → Sq) : (mSq s b f).phase = s.phase := rfl
@[simp] theorem mSq_lap (b : Nat) (f : Sq → Sq) : (mSq s b f).lap = s.lap := rfl
@[simp] theorem mSq_aon (b : Nat) (f : Sq → Sq) : (mSq s b f).aon = s.aon := rfl
@[simp] theorem mSq_blk (b : Nat) (f : Sq → Sq) : (mSq s b f).blk = s.blk := rfl
@[simp] theorem mSq_clk (b : Nat) (f : Sq → Sq) : (mSq s b f).clk = s.clk := rfl
@[simp] theorem mSq_hp (b : Nat) (f : Sq → Sq) : (mSq s b f).hp = s.hp := rfl
@[simp] theorem mSq_ms (b : Nat) (f : Sq → Sq) : (mSq s b f).ms = s.ms := rfl
@[simp] theorem mSq_ram (b : Nat) (f : Sq → Sq) : (mSq s b f).ram = s.ram := rfl
@[simp] theorem mSq_tb (b : Nat) (f : Sq → Sq) : (mSq s b f).tb = s.tb := rfl
@[simp] theorem mSq_en (b : Nat) (f : Sq → Sq) : (mSq s b f).en = s.en := rfl
@[simp] theorem mSq_pin (b : Nat) (f : Sq → Sq) : (mSq s b f).pin = s.pin := rfl
@[simp] theorem mSq_tr (b : Nat) (f : Sq → Sq) : (mSq s b f).tr = s.tr := rfl
@[simp] theorem mSq_mv (b : Nat) (f : Sq → Sq) : (mSq s b f).mv = s.mv := rfl
@[simp] theorem mSq_mg (b : Nat) (f : Sq → Sq) : (mSq s b f).mg = s.mg := rfl

/-! ### mLane -/

@[simp] theorem mLane_pending (k : Nat) (f : Lane → Lane) : (mLane s k f).pending = s.pending := rfl
@[simp] theorem mLane_fresh (k : Nat) (f : Lane → Lane) : (mLane s k f).fresh = s.fresh := rfl
@[simp] theorem mLane_ec (k : Nat) (f : Lane → Lane) : (mLane s k f).ec = s.ec := rfl
@[simp] theorem mLane_phase (k : Nat) (f : Lane → Lane) : (mLane s k f).phase = s.phase := rfl
@[simp] theorem mLane_lap (k : Nat) (f : Lane → Lane) : (mLane s k f).lap = s.lap := rfl
@[simp] theorem mLane_aon (k : Nat) (f : Lane → Lane) : (mLane s k f).aon = s.aon := rfl
@[simp] theorem mLane_blk (k : Nat) (f : Lane → Lane) : (mLane s k f).blk = s.blk := rfl
@[simp] theorem mLane_clk (k : Nat) (f : Lane → Lane) : (mLane s k f).clk = s.clk := rfl
@[simp] theorem mLane_hp (k : Nat) (f : Lane → Lane) : (mLane s k f).hp = s.hp := rfl
@[simp] theorem mLane_ms (k : Nat) (f : Lane → Lane) : (mLane s k f).ms = s.ms := rfl
@[simp] theorem mLane_ram (k : Nat) (f : Lane → Lane) : (mLane s k f).ram = s.ram := rfl
@[simp] theorem mLane_tb (k : Nat) (f : Lane → Lane) : (mLane s k f).tb = s.tb := rfl
@[simp] theorem mLane_en (k : Nat) (f : Lane → Lane) : (mLane s k f).en = s.en := rfl
@[simp] theorem mLane_pin (k : Nat) (f : Lane → Lane) : (mLane s k f).pin = s.pin := rfl
@[simp] theorem mLane_bank (k : Nat) (f : Lane → Lane) : (mLane s k f).bank = s.bank := rfl
@[simp] theorem mLane_tr_link (k : Nat) (f : Lane → Lane) : (mLane s k f).tr.link = s.tr.link := rfl
@[simp] theorem mLane_tr_lg (k : Nat) (f : Lane → Lane) : (mLane s k f).tr.lg = s.tr.lg := rfl
@[simp] theorem mLane_tr_ush (k : Nat) (f : Lane → Lane) : (mLane s k f).tr.ush = s.tr.ush := rfl
@[simp] theorem mLane_tr_box (k : Nat) (f : Lane → Lane) : (mLane s k f).tr.box = s.tr.box := rfl
@[simp] theorem mLane_tr_dp (k : Nat) (f : Lane → Lane) : (mLane s k f).tr.dp = s.tr.dp := rfl
@[simp] theorem mLane_tr_lane (k : Nat) (f : Lane → Lane) : (mLane s k f).tr.lane = tset {} s.tr.lane k (f (gLane s k)) := rfl
@[simp] theorem mLane_mv (k : Nat) (f : Lane → Lane) : (mLane s k f).mv = s.mv := rfl
@[simp] theorem mLane_mg (k : Nat) (f : Lane → Lane) : (mLane s k f).mg = s.mg := rfl

/-! ### mLink -/

@[simp] theorem mLink_pending (k : Nat) (f : Link → Link) : (mLink s k f).pending = s.pending := rfl
@[simp] theorem mLink_fresh (k : Nat) (f : Link → Link) : (mLink s k f).fresh = s.fresh := rfl
@[simp] theorem mLink_ec (k : Nat) (f : Link → Link) : (mLink s k f).ec = s.ec := rfl
@[simp] theorem mLink_phase (k : Nat) (f : Link → Link) : (mLink s k f).phase = s.phase := rfl
@[simp] theorem mLink_lap (k : Nat) (f : Link → Link) : (mLink s k f).lap = s.lap := rfl
@[simp] theorem mLink_aon (k : Nat) (f : Link → Link) : (mLink s k f).aon = s.aon := rfl
@[simp] theorem mLink_blk (k : Nat) (f : Link → Link) : (mLink s k f).blk = s.blk := rfl
@[simp] theorem mLink_clk (k : Nat) (f : Link → Link) : (mLink s k f).clk = s.clk := rfl
@[simp] theorem mLink_hp (k : Nat) (f : Link → Link) : (mLink s k f).hp = s.hp := rfl
@[simp] theorem mLink_ms (k : Nat) (f : Link → Link) : (mLink s k f).ms = s.ms := rfl
@[simp] theorem mLink_ram (k : Nat) (f : Link → Link) : (mLink s k f).ram = s.ram := rfl
@[simp] theorem mLink_tb (k : Nat) (f : Link → Link) : (mLink s k f).tb = s.tb := rfl
@[simp] theorem mLink_en (k : Nat) (f : Link → Link) : (mLink s k f).en = s.en := rfl
@[simp] theorem mLink_pin (k : Nat) (f : Link → Link) : (mLink s k f).pin = s.pin := rfl
@[simp] theorem mLink_bank (k : Nat) (f : Link → Link) : (mLink s k f).bank = s.bank := rfl
@[simp] theorem mLink_tr_lane (k : Nat) (f : Link → Link) : (mLink s k f).tr.lane = s.tr.lane := rfl
@[simp] theorem mLink_tr_lg (k : Nat) (f : Link → Link) : (mLink s k f).tr.lg = s.tr.lg := rfl
@[simp] theorem mLink_tr_ush (k : Nat) (f : Link → Link) : (mLink s k f).tr.ush = s.tr.ush := rfl
@[simp] theorem mLink_tr_box (k : Nat) (f : Link → Link) : (mLink s k f).tr.box = s.tr.box := rfl
@[simp] theorem mLink_tr_dp (k : Nat) (f : Link → Link) : (mLink s k f).tr.dp = s.tr.dp := rfl
@[simp] theorem mLink_tr_link (k : Nat) (f : Link → Link) : (mLink s k f).tr.link = tset {} s.tr.link k (f (gLink s k)) := rfl
@[simp] theorem mLink_mv (k : Nat) (f : Link → Link) : (mLink s k f).mv = s.mv := rfl
@[simp] theorem mLink_mg (k : Nat) (f : Link → Link) : (mLink s k f).mg = s.mg := rfl

/-! ### mLg -/

@[simp] theorem mLg_pending (k : Nat) (f : Lg → Lg) : (mLg s k f).pending = s.pending := rfl
@[simp] theorem mLg_fresh (k : Nat) (f : Lg → Lg) : (mLg s k f).fresh = s.fresh := rfl
@[simp] theorem mLg_ec (k : Nat) (f : Lg → Lg) : (mLg s k f).ec = s.ec := rfl
@[simp] theorem mLg_phase (k : Nat) (f : Lg → Lg) : (mLg s k f).phase = s.phase := rfl
@[simp] theorem mLg_lap (k : Nat) (f : Lg → Lg) : (mLg s k f).lap = s.lap := rfl
@[simp] theorem mLg_aon (k : Nat) (f : Lg → Lg) : (mLg s k f).aon = s.aon := rfl
@[simp] theorem mLg_blk (k : Nat) (f : Lg → Lg) : (mLg s k f).blk = s.blk := rfl
@[simp] theorem mLg_clk (k : Nat) (f : Lg → Lg) : (mLg s k f).clk = s.clk := rfl
@[simp] theorem mLg_hp (k : Nat) (f : Lg → Lg) : (mLg s k f).hp = s.hp := rfl
@[simp] theorem mLg_ms (k : Nat) (f : Lg → Lg) : (mLg s k f).ms = s.ms := rfl
@[simp] theorem mLg_ram (k : Nat) (f : Lg → Lg) : (mLg s k f).ram = s.ram := rfl
@[simp] theorem mLg_tb (k : Nat) (f : Lg → Lg) : (mLg s k f).tb = s.tb := rfl
@[simp] theorem mLg_en (k : Nat) (f : Lg → Lg) : (mLg s k f).en = s.en := rfl
@[simp] theorem mLg_pin (k : Nat) (f : Lg → Lg) : (mLg s k f).pin = s.pin := rfl
@[simp] theorem mLg_bank (k : Nat) (f : Lg → Lg) : (mLg s k f).bank = s.bank := rfl
@[simp] theorem mLg_tr_lane (k : Nat) (f : Lg → Lg) : (mLg s k f).tr.lane = s.tr.lane := rfl
@[simp] theorem mLg_tr_link (k : Nat) (f : Lg → Lg) : (mLg s k f).tr.link = s.tr.link := rfl
@[simp] theorem mLg_tr_ush (k : Nat) (f : Lg → Lg) : (mLg s k f).tr.ush = s.tr.ush := rfl
@[simp] theorem mLg_tr_box (k : Nat) (f : Lg → Lg) : (mLg s k f).tr.box = s.tr.box := rfl
@[simp] theorem mLg_tr_dp (k : Nat) (f : Lg → Lg) : (mLg s k f).tr.dp = s.tr.dp := rfl
@[simp] theorem mLg_tr_lg (k : Nat) (f : Lg → Lg) : (mLg s k f).tr.lg = tset {} s.tr.lg k (f (gLg s k)) := rfl
@[simp] theorem mLg_mv (k : Nat) (f : Lg → Lg) : (mLg s k f).mv = s.mv := rfl
@[simp] theorem mLg_mg (k : Nat) (f : Lg → Lg) : (mLg s k f).mg = s.mg := rfl

/-! ### mDp -/

@[simp] theorem mDp_pending (k : Nat) (f : Dp → Dp) : (mDp s k f).pending = s.pending := rfl
@[simp] theorem mDp_fresh (k : Nat) (f : Dp → Dp) : (mDp s k f).fresh = s.fresh := rfl
@[simp] theorem mDp_ec (k : Nat) (f : Dp → Dp) : (mDp s k f).ec = s.ec := rfl
@[simp] theorem mDp_phase (k : Nat) (f : Dp → Dp) : (mDp s k f).phase = s.phase := rfl
@[simp] theorem mDp_lap (k : Nat) (f : Dp → Dp) : (mDp s k f).lap = s.lap := rfl
@[simp] theorem mDp_aon (k : Nat) (f : Dp → Dp) : (mDp s k f).aon = s.aon := rfl
@[simp] theorem mDp_blk (k : Nat) (f : Dp → Dp) : (mDp s k f).blk = s.blk := rfl
@[simp] theorem mDp_clk (k : Nat) (f : Dp → Dp) : (mDp s k f).clk = s.clk := rfl
@[simp] theorem mDp_hp (k : Nat) (f : Dp → Dp) : (mDp s k f).hp = s.hp := rfl
@[simp] theorem mDp_ms (k : Nat) (f : Dp → Dp) : (mDp s k f).ms = s.ms := rfl
@[simp] theorem mDp_ram (k : Nat) (f : Dp → Dp) : (mDp s k f).ram = s.ram := rfl
@[simp] theorem mDp_tb (k : Nat) (f : Dp → Dp) : (mDp s k f).tb = s.tb := rfl
@[simp] theorem mDp_en (k : Nat) (f : Dp → Dp) : (mDp s k f).en = s.en := rfl
@[simp] theorem mDp_pin (k : Nat) (f : Dp → Dp) : (mDp s k f).pin = s.pin := rfl
@[simp] theorem mDp_bank (k : Nat) (f : Dp → Dp) : (mDp s k f).bank = s.bank := rfl
@[simp] theorem mDp_tr_lane (k : Nat) (f : Dp → Dp) : (mDp s k f).tr.lane = s.tr.lane := rfl
@[simp] theorem mDp_tr_link (k : Nat) (f : Dp → Dp) : (mDp s k f).tr.link = s.tr.link := rfl
@[simp] theorem mDp_tr_lg (k : Nat) (f : Dp → Dp) : (mDp s k f).tr.lg = s.tr.lg := rfl
@[simp] theorem mDp_tr_ush (k : Nat) (f : Dp → Dp) : (mDp s k f).tr.ush = s.tr.ush := rfl
@[simp] theorem mDp_tr_box (k : Nat) (f : Dp → Dp) : (mDp s k f).tr.box = s.tr.box := rfl
@[simp] theorem mDp_tr_dp (k : Nat) (f : Dp → Dp) : (mDp s k f).tr.dp = tset {} s.tr.dp k (f (gDp s k)) := rfl
@[simp] theorem mDp_mv (k : Nat) (f : Dp → Dp) : (mDp s k f).mv = s.mv := rfl
@[simp] theorem mDp_mg (k : Nat) (f : Dp → Dp) : (mDp s k f).mg = s.mg := rfl

/-! ### mUsh -/

@[simp] theorem mUsh_pending (f : Ush → Ush) : (mUsh s f).pending = s.pending := rfl
@[simp] theorem mUsh_fresh (f : Ush → Ush) : (mUsh s f).fresh = s.fresh := rfl
@[simp] theorem mUsh_ec (f : Ush → Ush) : (mUsh s f).ec = s.ec := rfl
@[simp] theorem mUsh_phase (f : Ush → Ush) : (mUsh s f).phase = s.phase := rfl
@[simp] theorem mUsh_lap (f : Ush → Ush) : (mUsh s f).lap = s.lap := rfl
@[simp] theorem mUsh_aon (f : Ush → Ush) : (mUsh s f).aon = s.aon := rfl
@[simp] theorem mUsh_blk (f : Ush → Ush) : (mUsh s f).blk = s.blk := rfl
@[simp] theorem mUsh_clk (f : Ush → Ush) : (mUsh s f).clk = s.clk := rfl
@[simp] theorem mUsh_hp (f : Ush → Ush) : (mUsh s f).hp = s.hp := rfl
@[simp] theorem mUsh_ms (f : Ush → Ush) : (mUsh s f).ms = s.ms := rfl
@[simp] theorem mUsh_ram (f : Ush → Ush) : (mUsh s f).ram = s.ram := rfl
@[simp] theorem mUsh_tb (f : Ush → Ush) : (mUsh s f).tb = s.tb := rfl
@[simp] theorem mUsh_en (f : Ush → Ush) : (mUsh s f).en = s.en := rfl
@[simp] theorem mUsh_pin (f : Ush → Ush) : (mUsh s f).pin = s.pin := rfl
@[simp] theorem mUsh_bank (f : Ush → Ush) : (mUsh s f).bank = s.bank := rfl
@[simp] theorem mUsh_tr_lane (f : Ush → Ush) : (mUsh s f).tr.lane = s.tr.lane := rfl
@[simp] theorem mUsh_tr_link (f : Ush → Ush) : (mUsh s f).tr.link = s.tr.link := rfl
@[simp] theorem mUsh_tr_lg (f : Ush → Ush) : (mUsh s f).tr.lg = s.tr.lg := rfl
@[simp] theorem mUsh_tr_box (f : Ush → Ush) : (mUsh s f).tr.box = s.tr.box := rfl
@[simp] theorem mUsh_tr_dp (f : Ush → Ush) : (mUsh s f).tr.dp = s.tr.dp := rfl
@[simp] theorem mUsh_tr_ush (f : Ush → Ush) : (mUsh s f).tr.ush = f s.tr.ush := rfl
@[simp] theorem mUsh_mv (f : Ush → Ush) : (mUsh s f).mv = s.mv := rfl
@[simp] theorem mUsh_mg (f : Ush → Ush) : (mUsh s f).mg = s.mg := rfl

/-! ### mBox -/

@[simp] theorem mBox_pending (f : Box → Box) : (mBox s f).pending = s.pending := rfl
@[simp] theorem mBox_fresh (f : Box → Box) : (mBox s f).fresh = s.fresh := rfl
@[simp] theorem mBox_ec (f : Box → Box) : (mBox s f).ec = s.ec := rfl
@[simp] theorem mBox_phase (f : Box → Box) : (mBox s f).phase = s.phase := rfl
@[simp] theorem mBox_lap (f : Box → Box) : (mBox s f).lap = s.lap := rfl
@[simp] theorem mBox_aon (f : Box → Box) : (mBox s f).aon = s.aon := rfl
@[simp] theorem mBox_blk (f : Box → Box) : (mBox s f).blk = s.blk := rfl
@[simp] theorem mBox_clk (f : Box → Box) : (mBox s f).clk = s.clk := rfl
@[simp] theorem mBox_hp (f : Box → Box) : (mBox s f).hp = s.hp := rfl
@[simp] theorem mBox_ms (f : Box → Box) : (mBox s f).ms = s.ms := rfl
@[simp] theorem mBox_ram (f : Box → Box) : (mBox s f).ram = s.ram := rfl
@[simp] theorem mBox_tb (f : Box → Box) : (mBox s f).tb = s.tb := rfl
@[simp] theorem mBox_en (f : Box → Box) : (mBox s f).en = s.en := rfl
@[simp] theorem mBox_pin (f : Box → Box) : (mBox s f).pin = s.pin := rfl
@[simp] theorem mBox_bank (f : Box → Box) : (mBox s f).bank = s.bank := rfl
@[simp] theorem mBox_tr_lane (f : Box → Box) : (mBox s f).tr.lane = s.tr.lane := rfl
@[simp] theorem mBox_tr_link (f : Box → Box) : (mBox s f).tr.link = s.tr.link := rfl
@[simp] theorem mBox_tr_lg (f : Box → Box) : (mBox s f).tr.lg = s.tr.lg := rfl
@[simp] theorem mBox_tr_ush (f : Box → Box) : (mBox s f).tr.ush = s.tr.ush := rfl
@[simp] theorem mBox_tr_dp (f : Box → Box) : (mBox s f).tr.dp = s.tr.dp := rfl
@[simp] theorem mBox_tr_box (f : Box → Box) : (mBox s f).tr.box = f s.tr.box := rfl
@[simp] theorem mBox_mv (f : Box → Box) : (mBox s f).mv = s.mv := rfl
@[simp] theorem mBox_mg (f : Box → Box) : (mBox s f).mg = s.mg := rfl

/-! ### mDom -/

@[simp] theorem mDom_pending (n : Nat) (f : Dom → Dom) : (mDom s n f).pending = s.pending := rfl
@[simp] theorem mDom_fresh (n : Nat) (f : Dom → Dom) : (mDom s n f).fresh = s.fresh := rfl
@[simp] theorem mDom_ec (n : Nat) (f : Dom → Dom) : (mDom s n f).ec = s.ec := rfl
@[simp] theorem mDom_phase (n : Nat) (f : Dom → Dom) : (mDom s n f).phase = s.phase := rfl
@[simp] theorem mDom_lap (n : Nat) (f : Dom → Dom) : (mDom s n f).lap = s.lap := rfl
@[simp] theorem mDom_aon (n : Nat) (f : Dom → Dom) : (mDom s n f).aon = s.aon := rfl
@[simp] theorem mDom_blk (n : Nat) (f : Dom → Dom) : (mDom s n f).blk = s.blk := rfl
@[simp] theorem mDom_clk (n : Nat) (f : Dom → Dom) : (mDom s n f).clk = s.clk := rfl
@[simp] theorem mDom_hp (n : Nat) (f : Dom → Dom) : (mDom s n f).hp = s.hp := rfl
@[simp] theorem mDom_ms (n : Nat) (f : Dom → Dom) : (mDom s n f).ms = s.ms := rfl
@[simp] theorem mDom_ram (n : Nat) (f : Dom → Dom) : (mDom s n f).ram = s.ram := rfl
@[simp] theorem mDom_tb (n : Nat) (f : Dom → Dom) : (mDom s n f).tb = s.tb := rfl
@[simp] theorem mDom_en (n : Nat) (f : Dom → Dom) : (mDom s n f).en = s.en := rfl
@[simp] theorem mDom_pin (n : Nat) (f : Dom → Dom) : (mDom s n f).pin = s.pin := rfl
@[simp] theorem mDom_bank (n : Nat) (f : Dom → Dom) : (mDom s n f).bank = s.bank := rfl
@[simp] theorem mDom_tr_lane (n : Nat) (f : Dom → Dom) : (mDom s n f).tr.lane = s.tr.lane := rfl
@[simp] theorem mDom_tr_link (n : Nat) (f : Dom → Dom) : (mDom s n f).tr.link = s.tr.link := rfl
@[simp] theorem mDom_tr_lg (n : Nat) (f : Dom → Dom) : (mDom s n f).tr.lg = s.tr.lg := rfl
@[simp] theorem mDom_tr_box (n : Nat) (f : Dom → Dom) : (mDom s n f).tr.box = s.tr.box := rfl
@[simp] theorem mDom_tr_dp (n : Nat) (f : Dom → Dom) : (mDom s n f).tr.dp = s.tr.dp := rfl
@[simp] theorem mDom_mv (n : Nat) (f : Dom → Dom) : (mDom s n f).mv = s.mv := rfl
@[simp] theorem mDom_mg (n : Nat) (f : Dom → Dom) : (mDom s n f).mg = s.mg := rfl

/-! ### sWin -/

@[simp] theorem sWin_pending (w : Nat) (x : Option Pkt) : (sWin s w x).pending = s.pending := rfl
@[simp] theorem sWin_fresh (w : Nat) (x : Option Pkt) : (sWin s w x).fresh = s.fresh := rfl
@[simp] theorem sWin_ec (w : Nat) (x : Option Pkt) : (sWin s w x).ec = s.ec := rfl
@[simp] theorem sWin_phase (w : Nat) (x : Option Pkt) : (sWin s w x).phase = s.phase := rfl
@[simp] theorem sWin_lap (w : Nat) (x : Option Pkt) : (sWin s w x).lap = s.lap := rfl
@[simp] theorem sWin_aon (w : Nat) (x : Option Pkt) : (sWin s w x).aon = s.aon := rfl
@[simp] theorem sWin_blk (w : Nat) (x : Option Pkt) : (sWin s w x).blk = s.blk := rfl
@[simp] theorem sWin_clk (w : Nat) (x : Option Pkt) : (sWin s w x).clk = s.clk := rfl
@[simp] theorem sWin_hp (w : Nat) (x : Option Pkt) : (sWin s w x).hp = s.hp := rfl
@[simp] theorem sWin_ms (w : Nat) (x : Option Pkt) : (sWin s w x).ms = s.ms := rfl
@[simp] theorem sWin_ram (w : Nat) (x : Option Pkt) : (sWin s w x).ram = s.ram := rfl
@[simp] theorem sWin_tb (w : Nat) (x : Option Pkt) : (sWin s w x).tb = s.tb := rfl
@[simp] theorem sWin_en (w : Nat) (x : Option Pkt) : (sWin s w x).en = s.en := rfl
@[simp] theorem sWin_pin (w : Nat) (x : Option Pkt) : (sWin s w x).pin = s.pin := rfl
@[simp] theorem sWin_bank (w : Nat) (x : Option Pkt) : (sWin s w x).bank = s.bank := rfl
@[simp] theorem sWin_tr_lane (w : Nat) (x : Option Pkt) : (sWin s w x).tr.lane = s.tr.lane := rfl
@[simp] theorem sWin_tr_link (w : Nat) (x : Option Pkt) : (sWin s w x).tr.link = s.tr.link := rfl
@[simp] theorem sWin_tr_lg (w : Nat) (x : Option Pkt) : (sWin s w x).tr.lg = s.tr.lg := rfl
@[simp] theorem sWin_tr_box (w : Nat) (x : Option Pkt) : (sWin s w x).tr.box = s.tr.box := rfl
@[simp] theorem sWin_tr_dp (w : Nat) (x : Option Pkt) : (sWin s w x).tr.dp = s.tr.dp := rfl
@[simp] theorem sWin_mv (w : Nat) (x : Option Pkt) : (sWin s w x).mv = s.mv := rfl
@[simp] theorem sWin_mg (w : Nat) (x : Option Pkt) : (sWin s w x).mg = s.mg := rfl

/-! ### mPool -/

@[simp] theorem mPool_pending (p : Nat) (f : Pool → Pool) : (mPool s p f).pending = s.pending := rfl
@[simp] theorem mPool_fresh (p : Nat) (f : Pool → Pool) : (mPool s p f).fresh = s.fresh := rfl
@[simp] theorem mPool_ec (p : Nat) (f : Pool → Pool) : (mPool s p f).ec = s.ec := rfl
@[simp] theorem mPool_phase (p : Nat) (f : Pool → Pool) : (mPool s p f).phase = s.phase := rfl
@[simp] theorem mPool_lap (p : Nat) (f : Pool → Pool) : (mPool s p f).lap = s.lap := rfl
@[simp] theorem mPool_aon (p : Nat) (f : Pool → Pool) : (mPool s p f).aon = s.aon := rfl
@[simp] theorem mPool_blk (p : Nat) (f : Pool → Pool) : (mPool s p f).blk = s.blk := rfl
@[simp] theorem mPool_clk (p : Nat) (f : Pool → Pool) : (mPool s p f).clk = s.clk := rfl
@[simp] theorem mPool_hp (p : Nat) (f : Pool → Pool) : (mPool s p f).hp = s.hp := rfl
@[simp] theorem mPool_ms (p : Nat) (f : Pool → Pool) : (mPool s p f).ms = s.ms := rfl
@[simp] theorem mPool_ram (p : Nat) (f : Pool → Pool) : (mPool s p f).ram = s.ram := rfl
@[simp] theorem mPool_tb (p : Nat) (f : Pool → Pool) : (mPool s p f).tb = s.tb := rfl
@[simp] theorem mPool_en (p : Nat) (f : Pool → Pool) : (mPool s p f).en = s.en := rfl
@[simp] theorem mPool_pin (p : Nat) (f : Pool → Pool) : (mPool s p f).pin = s.pin := rfl
@[simp] theorem mPool_bank (p : Nat) (f : Pool → Pool) : (mPool s p f).bank = s.bank := rfl
@[simp] theorem mPool_tr_lane (p : Nat) (f : Pool → Pool) : (mPool s p f).tr.lane = s.tr.lane := rfl
@[simp] theorem mPool_tr_link (p : Nat) (f : Pool → Pool) : (mPool s p f).tr.link = s.tr.link := rfl
@[simp] theorem mPool_tr_lg (p : Nat) (f : Pool → Pool) : (mPool s p f).tr.lg = s.tr.lg := rfl
@[simp] theorem mPool_tr_ush (p : Nat) (f : Pool → Pool) : (mPool s p f).tr.ush = s.tr.ush := rfl
@[simp] theorem mPool_tr_dp (p : Nat) (f : Pool → Pool) : (mPool s p f).tr.dp = s.tr.dp := rfl
@[simp] theorem mPool_mv (p : Nat) (f : Pool → Pool) : (mPool s p f).mv = s.mv := rfl
@[simp] theorem mPool_mg (p : Nat) (f : Pool → Pool) : (mPool s p f).mg = s.mg := rfl

/-! ### mDc -/

@[simp] theorem mDc_pending (k : Nat) (f : Dc → Dc) : (mDc s k f).pending = s.pending := rfl
@[simp] theorem mDc_fresh (k : Nat) (f : Dc → Dc) : (mDc s k f).fresh = s.fresh := rfl
@[simp] theorem mDc_ec (k : Nat) (f : Dc → Dc) : (mDc s k f).ec = s.ec := rfl
@[simp] theorem mDc_phase (k : Nat) (f : Dc → Dc) : (mDc s k f).phase = s.phase := rfl
@[simp] theorem mDc_lap (k : Nat) (f : Dc → Dc) : (mDc s k f).lap = s.lap := rfl
@[simp] theorem mDc_aon (k : Nat) (f : Dc → Dc) : (mDc s k f).aon = s.aon := rfl
@[simp] theorem mDc_blk (k : Nat) (f : Dc → Dc) : (mDc s k f).blk = s.blk := rfl
@[simp] theorem mDc_clk (k : Nat) (f : Dc → Dc) : (mDc s k f).clk = s.clk := rfl
@[simp] theorem mDc_hp (k : Nat) (f : Dc → Dc) : (mDc s k f).hp = s.hp := rfl
@[simp] theorem mDc_ms (k : Nat) (f : Dc → Dc) : (mDc s k f).ms = s.ms := rfl
@[simp] theorem mDc_ram (k : Nat) (f : Dc → Dc) : (mDc s k f).ram = s.ram := rfl
@[simp] theorem mDc_tb (k : Nat) (f : Dc → Dc) : (mDc s k f).tb = s.tb := rfl
@[simp] theorem mDc_en (k : Nat) (f : Dc → Dc) : (mDc s k f).en = s.en := rfl
@[simp] theorem mDc_pin (k : Nat) (f : Dc → Dc) : (mDc s k f).pin = s.pin := rfl
@[simp] theorem mDc_bank (k : Nat) (f : Dc → Dc) : (mDc s k f).bank = s.bank := rfl
@[simp] theorem mDc_tr (k : Nat) (f : Dc → Dc) : (mDc s k f).tr = s.tr := rfl
@[simp] theorem mDc_mv_rdTurn (k : Nat) (f : Dc → Dc) : (mDc s k f).mv.rdTurn = s.mv.rdTurn := rfl
@[simp] theorem mDc_mv_wrTurn (k : Nat) (f : Dc → Dc) : (mDc s k f).mv.wrTurn = s.mv.wrTurn := rfl
@[simp] theorem mDc_mv_doneMap (k : Nat) (f : Dc → Dc) : (mDc s k f).mv.doneMap = s.mv.doneMap := rfl
@[simp] theorem mDc_mv_errMap (k : Nat) (f : Dc → Dc) : (mDc s k f).mv.errMap = s.mv.errMap := rfl
@[simp] theorem mDc_mv_au (k : Nat) (f : Dc → Dc) : (mDc s k f).mv.au = s.mv.au := rfl
@[simp] theorem mDc_mv_auFin (k : Nat) (f : Dc → Dc) : (mDc s k f).mv.auFin = s.mv.auFin := rfl
@[simp] theorem mDc_mv_hcas (k : Nat) (f : Dc → Dc) : (mDc s k f).mv.hcas = s.mv.hcas := rfl
@[simp] theorem mDc_mv_dc (k : Nat) (f : Dc → Dc) : (mDc s k f).mv.dc = tset {} s.mv.dc k (f (gDc s k)) := rfl
@[simp] theorem mDc_mg (k : Nat) (f : Dc → Dc) : (mDc s k f).mg = s.mg := rfl

/-! ### mAu -/

@[simp] theorem mAu_pending (k : Nat) (f : Au → Au) : (mAu s k f).pending = s.pending := rfl
@[simp] theorem mAu_fresh (k : Nat) (f : Au → Au) : (mAu s k f).fresh = s.fresh := rfl
@[simp] theorem mAu_ec (k : Nat) (f : Au → Au) : (mAu s k f).ec = s.ec := rfl
@[simp] theorem mAu_phase (k : Nat) (f : Au → Au) : (mAu s k f).phase = s.phase := rfl
@[simp] theorem mAu_lap (k : Nat) (f : Au → Au) : (mAu s k f).lap = s.lap := rfl
@[simp] theorem mAu_aon (k : Nat) (f : Au → Au) : (mAu s k f).aon = s.aon := rfl
@[simp] theorem mAu_blk (k : Nat) (f : Au → Au) : (mAu s k f).blk = s.blk := rfl
@[simp] theorem mAu_clk (k : Nat) (f : Au → Au) : (mAu s k f).clk = s.clk := rfl
@[simp] theorem mAu_hp (k : Nat) (f : Au → Au) : (mAu s k f).hp = s.hp := rfl
@[simp] theorem mAu_ms (k : Nat) (f : Au → Au) : (mAu s k f).ms = s.ms := rfl
@[simp] theorem mAu_ram (k : Nat) (f : Au → Au) : (mAu s k f).ram = s.ram := rfl
@[simp] theorem mAu_tb (k : Nat) (f : Au → Au) : (mAu s k f).tb = s.tb := rfl
@[simp] theorem mAu_en (k : Nat) (f : Au → Au) : (mAu s k f).en = s.en := rfl
@[simp] theorem mAu_pin (k : Nat) (f : Au → Au) : (mAu s k f).pin = s.pin := rfl
@[simp] theorem mAu_bank (k : Nat) (f : Au → Au) : (mAu s k f).bank = s.bank := rfl
@[simp] theorem mAu_tr (k : Nat) (f : Au → Au) : (mAu s k f).tr = s.tr := rfl
@[simp] theorem mAu_mv_dc (k : Nat) (f : Au → Au) : (mAu s k f).mv.dc = s.mv.dc := rfl
@[simp] theorem mAu_mv_rdTurn (k : Nat) (f : Au → Au) : (mAu s k f).mv.rdTurn = s.mv.rdTurn := rfl
@[simp] theorem mAu_mv_wrTurn (k : Nat) (f : Au → Au) : (mAu s k f).mv.wrTurn = s.mv.wrTurn := rfl
@[simp] theorem mAu_mv_doneMap (k : Nat) (f : Au → Au) : (mAu s k f).mv.doneMap = s.mv.doneMap := rfl
@[simp] theorem mAu_mv_errMap (k : Nat) (f : Au → Au) : (mAu s k f).mv.errMap = s.mv.errMap := rfl
@[simp] theorem mAu_mv_auFin (k : Nat) (f : Au → Au) : (mAu s k f).mv.auFin = s.mv.auFin := rfl
@[simp] theorem mAu_mv_hcas (k : Nat) (f : Au → Au) : (mAu s k f).mv.hcas = s.mv.hcas := rfl
@[simp] theorem mAu_mv_au (k : Nat) (f : Au → Au) : (mAu s k f).mv.au = tset {} s.mv.au k (f (gAu s k)) := rfl
@[simp] theorem mAu_mg (k : Nat) (f : Au → Au) : (mAu s k f).mg = s.mg := rfl

/-! ### mHcas -/

@[simp] theorem mHcas_pending (f : Hcas → Hcas) : (mHcas s f).pending = s.pending := rfl
@[simp] theorem mHcas_fresh (f : Hcas → Hcas) : (mHcas s f).fresh = s.fresh := rfl
@[simp] theorem mHcas_ec (f : Hcas → Hcas) : (mHcas s f).ec = s.ec := rfl
@[simp] theorem mHcas_phase (f : Hcas → Hcas) : (mHcas s f).phase = s.phase := rfl
@[simp] theorem mHcas_lap (f : Hcas → Hcas) : (mHcas s f).lap = s.lap := rfl
@[simp] theorem mHcas_aon (f : Hcas → Hcas) : (mHcas s f).aon = s.aon := rfl
@[simp] theorem mHcas_blk (f : Hcas → Hcas) : (mHcas s f).blk = s.blk := rfl
@[simp] theorem mHcas_clk (f : Hcas → Hcas) : (mHcas s f).clk = s.clk := rfl
@[simp] theorem mHcas_hp (f : Hcas → Hcas) : (mHcas s f).hp = s.hp := rfl
@[simp] theorem mHcas_ms (f : Hcas → Hcas) : (mHcas s f).ms = s.ms := rfl
@[simp] theorem mHcas_ram (f : Hcas → Hcas) : (mHcas s f).ram = s.ram := rfl
@[simp] theorem mHcas_tb (f : Hcas → Hcas) : (mHcas s f).tb = s.tb := rfl
@[simp] theorem mHcas_en (f : Hcas → Hcas) : (mHcas s f).en = s.en := rfl
@[simp] theorem mHcas_pin (f : Hcas → Hcas) : (mHcas s f).pin = s.pin := rfl
@[simp] theorem mHcas_bank (f : Hcas → Hcas) : (mHcas s f).bank = s.bank := rfl
@[simp] theorem mHcas_tr (f : Hcas → Hcas) : (mHcas s f).tr = s.tr := rfl
@[simp] theorem mHcas_mv_dc (f : Hcas → Hcas) : (mHcas s f).mv.dc = s.mv.dc := rfl
@[simp] theorem mHcas_mv_rdTurn (f : Hcas → Hcas) : (mHcas s f).mv.rdTurn = s.mv.rdTurn := rfl
@[simp] theorem mHcas_mv_wrTurn (f : Hcas → Hcas) : (mHcas s f).mv.wrTurn = s.mv.wrTurn := rfl
@[simp] theorem mHcas_mv_doneMap (f : Hcas → Hcas) : (mHcas s f).mv.doneMap = s.mv.doneMap := rfl
@[simp] theorem mHcas_mv_errMap (f : Hcas → Hcas) : (mHcas s f).mv.errMap = s.mv.errMap := rfl
@[simp] theorem mHcas_mv_au (f : Hcas → Hcas) : (mHcas s f).mv.au = s.mv.au := rfl
@[simp] theorem mHcas_mv_auFin (f : Hcas → Hcas) : (mHcas s f).mv.auFin = s.mv.auFin := rfl
@[simp] theorem mHcas_mv_hcas (f : Hcas → Hcas) : (mHcas s f).mv.hcas = f s.mv.hcas := rfl
@[simp] theorem mHcas_mg (f : Hcas → Hcas) : (mHcas s f).mg = s.mg := rfl

/-! ### mMp -/

@[simp] theorem mMp_pending (k : Nat) (f : Mp → Mp) : (mMp s k f).pending = s.pending := rfl
@[simp] theorem mMp_fresh (k : Nat) (f : Mp → Mp) : (mMp s k f).fresh = s.fresh := rfl
@[simp] theorem mMp_ec (k : Nat) (f : Mp → Mp) : (mMp s k f).ec = s.ec := rfl
@[simp] theorem mMp_phase (k : Nat) (f : Mp → Mp) : (mMp s k f).phase = s.phase := rfl
@[simp] theorem mMp_lap (k : Nat) (f : Mp → Mp) : (mMp s k f).lap = s.lap := rfl
@[simp] theorem mMp_aon (k : Nat) (f : Mp → Mp) : (mMp s k f).aon = s.aon := rfl
@[simp] theorem mMp_blk (k : Nat) (f : Mp → Mp) : (mMp s k f).blk = s.blk := rfl
@[simp] theorem mMp_clk (k : Nat) (f : Mp → Mp) : (mMp s k f).clk = s.clk := rfl
@[simp] theorem mMp_hp (k : Nat) (f : Mp → Mp) : (mMp s k f).hp = s.hp := rfl
@[simp] theorem mMp_ms_tmo (k : Nat) (f : Mp → Mp) : (mMp s k f).ms.tmo = s.ms.tmo := rfl
@[simp] theorem mMp_ms_hwErr (k : Nat) (f : Mp → Mp) : (mMp s k f).ms.hwErr = s.ms.hwErr := rfl
@[simp] theorem mMp_ms_hwWerr (k : Nat) (f : Mp → Mp) : (mMp s k f).ms.hwWerr = s.ms.hwWerr := rfl
@[simp] theorem mMp_ms_hwBase (k : Nat) (f : Mp → Mp) : (mMp s k f).ms.hwBase = s.ms.hwBase := rfl
@[simp] theorem mMp_ms_fin (k : Nat) (f : Mp → Mp) : (mMp s k f).ms.fin = s.ms.fin := rfl
@[simp] theorem mMp_ms_nextJob (k : Nat) (f : Mp → Mp) : (mMp s k f).ms.nextJob = s.ms.nextJob := rfl
@[simp] theorem mMp_ms_mp (k : Nat) (f : Mp → Mp) : (mMp s k f).ms.mp = tset {} s.ms.mp k (f (gMp s k)) := rfl
@[simp] theorem mMp_ram (k : Nat) (f : Mp → Mp) : (mMp s k f).ram = s.ram := rfl
@[simp] theorem mMp_tb (k : Nat) (f : Mp → Mp) : (mMp s k f).tb = s.tb := rfl
@[simp] theorem mMp_en (k : Nat) (f : Mp → Mp) : (mMp s k f).en = s.en := rfl
@[simp] theorem mMp_pin (k : Nat) (f : Mp → Mp) : (mMp s k f).pin = s.pin := rfl
@[simp] theorem mMp_bank (k : Nat) (f : Mp → Mp) : (mMp s k f).bank = s.bank := rfl
@[simp] theorem mMp_tr (k : Nat) (f : Mp → Mp) : (mMp s k f).tr = s.tr := rfl
@[simp] theorem mMp_mv (k : Nat) (f : Mp → Mp) : (mMp s k f).mv = s.mv := rfl
@[simp] theorem mMp_mg (k : Nat) (f : Mp → Mp) : (mMp s k f).mg = s.mg := rfl

/-! ### mLog -/

@[simp] theorem mLog_pending (f : LogSt → LogSt) : (mLog s f).pending = s.pending := rfl
@[simp] theorem mLog_fresh (f : LogSt → LogSt) : (mLog s f).fresh = s.fresh := rfl
@[simp] theorem mLog_ec (f : LogSt → LogSt) : (mLog s f).ec = s.ec := rfl
@[simp] theorem mLog_phase (f : LogSt → LogSt) : (mLog s f).phase = s.phase := rfl
@[simp] theorem mLog_lap (f : LogSt → LogSt) : (mLog s f).lap = s.lap := rfl
@[simp] theorem mLog_aon (f : LogSt → LogSt) : (mLog s f).aon = s.aon := rfl
@[simp] theorem mLog_blk (f : LogSt → LogSt) : (mLog s f).blk = s.blk := rfl
@[simp] theorem mLog_clk (f : LogSt → LogSt) : (mLog s f).clk = s.clk := rfl
@[simp] theorem mLog_hp (f : LogSt → LogSt) : (mLog s f).hp = s.hp := rfl
@[simp] theorem mLog_ms (f : LogSt → LogSt) : (mLog s f).ms = s.ms := rfl
@[simp] theorem mLog_ram (f : LogSt → LogSt) : (mLog s f).ram = s.ram := rfl
@[simp] theorem mLog_tb (f : LogSt → LogSt) : (mLog s f).tb = s.tb := rfl
@[simp] theorem mLog_en (f : LogSt → LogSt) : (mLog s f).en = s.en := rfl
@[simp] theorem mLog_pin (f : LogSt → LogSt) : (mLog s f).pin = s.pin := rfl
@[simp] theorem mLog_bank (f : LogSt → LogSt) : (mLog s f).bank = s.bank := rfl
@[simp] theorem mLog_tr (f : LogSt → LogSt) : (mLog s f).tr = s.tr := rfl
@[simp] theorem mLog_mv (f : LogSt → LogSt) : (mLog s f).mv = s.mv := rfl
@[simp] theorem mLog_mg_mram (f : LogSt → LogSt) : (mLog s f).mg.mram = s.mg.mram := rfl
@[simp] theorem mLog_mg_sm (f : LogSt → LogSt) : (mLog s f).mg.sm = s.mg.sm := rfl
@[simp] theorem mLog_mg_lock (f : LogSt → LogSt) : (mLog s f).mg.lock = s.mg.lock := rfl
@[simp] theorem mLog_mg_bp (f : LogSt → LogSt) : (mLog s f).mg.bp = s.mg.bp := rfl
@[simp] theorem mLog_mg_tap (f : LogSt → LogSt) : (mLog s f).mg.tap = s.mg.tap := rfl
@[simp] theorem mLog_mg_ckA (f : LogSt → LogSt) : (mLog s f).mg.ckA = s.mg.ckA := rfl
@[simp] theorem mLog_mg_ckB (f : LogSt → LogSt) : (mLog s f).mg.ckB = s.mg.ckB := rfl
@[simp] theorem mLog_mg_log (f : LogSt → LogSt) : (mLog s f).mg.log = f s.mg.log := rfl

/-! ### mMram -/

@[simp] theorem mMram_pending (f : Mram → Mram) : (mMram s f).pending = s.pending := rfl
@[simp] theorem mMram_fresh (f : Mram → Mram) : (mMram s f).fresh = s.fresh := rfl
@[simp] theorem mMram_ec (f : Mram → Mram) : (mMram s f).ec = s.ec := rfl
@[simp] theorem mMram_phase (f : Mram → Mram) : (mMram s f).phase = s.phase := rfl
@[simp] theorem mMram_lap (f : Mram → Mram) : (mMram s f).lap = s.lap := rfl
@[simp] theorem mMram_aon (f : Mram → Mram) : (mMram s f).aon = s.aon := rfl
@[simp] theorem mMram_blk (f : Mram → Mram) : (mMram s f).blk = s.blk := rfl
@[simp] theorem mMram_clk (f : Mram → Mram) : (mMram s f).clk = s.clk := rfl
@[simp] theorem mMram_hp (f : Mram → Mram) : (mMram s f).hp = s.hp := rfl
@[simp] theorem mMram_ms (f : Mram → Mram) : (mMram s f).ms = s.ms := rfl
@[simp] theorem mMram_ram (f : Mram → Mram) : (mMram s f).ram = s.ram := rfl
@[simp] theorem mMram_tb (f : Mram → Mram) : (mMram s f).tb = s.tb := rfl
@[simp] theorem mMram_en (f : Mram → Mram) : (mMram s f).en = s.en := rfl
@[simp] theorem mMram_pin (f : Mram → Mram) : (mMram s f).pin = s.pin := rfl
@[simp] theorem mMram_bank (f : Mram → Mram) : (mMram s f).bank = s.bank := rfl
@[simp] theorem mMram_tr (f : Mram → Mram) : (mMram s f).tr = s.tr := rfl
@[simp] theorem mMram_mv (f : Mram → Mram) : (mMram s f).mv = s.mv := rfl
@[simp] theorem mMram_mg_log (f : Mram → Mram) : (mMram s f).mg.log = s.mg.log := rfl
@[simp] theorem mMram_mg_sm (f : Mram → Mram) : (mMram s f).mg.sm = s.mg.sm := rfl
@[simp] theorem mMram_mg_lock (f : Mram → Mram) : (mMram s f).mg.lock = s.mg.lock := rfl
@[simp] theorem mMram_mg_bp (f : Mram → Mram) : (mMram s f).mg.bp = s.mg.bp := rfl
@[simp] theorem mMram_mg_tap (f : Mram → Mram) : (mMram s f).mg.tap = s.mg.tap := rfl
@[simp] theorem mMram_mg_ckA (f : Mram → Mram) : (mMram s f).mg.ckA = s.mg.ckA := rfl
@[simp] theorem mMram_mg_ckB (f : Mram → Mram) : (mMram s f).mg.ckB = s.mg.ckB := rfl
@[simp] theorem mMram_mg_mram (f : Mram → Mram) : (mMram s f).mg.mram = f s.mg.mram := rfl

/-! ### mSm -/

@[simp] theorem mSm_pending (f : Sm → Sm) : (mSm s f).pending = s.pending := rfl
@[simp] theorem mSm_fresh (f : Sm → Sm) : (mSm s f).fresh = s.fresh := rfl
@[simp] theorem mSm_ec (f : Sm → Sm) : (mSm s f).ec = s.ec := rfl
@[simp] theorem mSm_phase (f : Sm → Sm) : (mSm s f).phase = s.phase := rfl
@[simp] theorem mSm_lap (f : Sm → Sm) : (mSm s f).lap = s.lap := rfl
@[simp] theorem mSm_aon (f : Sm → Sm) : (mSm s f).aon = s.aon := rfl
@[simp] theorem mSm_blk (f : Sm → Sm) : (mSm s f).blk = s.blk := rfl
@[simp] theorem mSm_clk (f : Sm → Sm) : (mSm s f).clk = s.clk := rfl
@[simp] theorem mSm_hp (f : Sm → Sm) : (mSm s f).hp = s.hp := rfl
@[simp] theorem mSm_ms (f : Sm → Sm) : (mSm s f).ms = s.ms := rfl
@[simp] theorem mSm_ram (f : Sm → Sm) : (mSm s f).ram = s.ram := rfl
@[simp] theorem mSm_tb (f : Sm → Sm) : (mSm s f).tb = s.tb := rfl
@[simp] theorem mSm_en (f : Sm → Sm) : (mSm s f).en = s.en := rfl
@[simp] theorem mSm_pin (f : Sm → Sm) : (mSm s f).pin = s.pin := rfl
@[simp] theorem mSm_bank (f : Sm → Sm) : (mSm s f).bank = s.bank := rfl
@[simp] theorem mSm_tr (f : Sm → Sm) : (mSm s f).tr = s.tr := rfl
@[simp] theorem mSm_mv (f : Sm → Sm) : (mSm s f).mv = s.mv := rfl
@[simp] theorem mSm_mg_log (f : Sm → Sm) : (mSm s f).mg.log = s.mg.log := rfl
@[simp] theorem mSm_mg_mram (f : Sm → Sm) : (mSm s f).mg.mram = s.mg.mram := rfl
@[simp] theorem mSm_mg_lock (f : Sm → Sm) : (mSm s f).mg.lock = s.mg.lock := rfl
@[simp] theorem mSm_mg_bp (f : Sm → Sm) : (mSm s f).mg.bp = s.mg.bp := rfl
@[simp] theorem mSm_mg_tap (f : Sm → Sm) : (mSm s f).mg.tap = s.mg.tap := rfl
@[simp] theorem mSm_mg_ckA (f : Sm → Sm) : (mSm s f).mg.ckA = s.mg.ckA := rfl
@[simp] theorem mSm_mg_ckB (f : Sm → Sm) : (mSm s f).mg.ckB = s.mg.ckB := rfl
@[simp] theorem mSm_mg_sm (f : Sm → Sm) : (mSm s f).mg.sm = f s.mg.sm := rfl

/-! ### mLock -/

@[simp] theorem mLock_pending (f : DbgLock → DbgLock) : (mLock s f).pending = s.pending := rfl
@[simp] theorem mLock_fresh (f : DbgLock → DbgLock) : (mLock s f).fresh = s.fresh := rfl
@[simp] theorem mLock_ec (f : DbgLock → DbgLock) : (mLock s f).ec = s.ec := rfl
@[simp] theorem mLock_phase (f : DbgLock → DbgLock) : (mLock s f).phase = s.phase := rfl
@[simp] theorem mLock_lap (f : DbgLock → DbgLock) : (mLock s f).lap = s.lap := rfl
@[simp] theorem mLock_aon (f : DbgLock → DbgLock) : (mLock s f).aon = s.aon := rfl
@[simp] theorem mLock_blk (f : DbgLock → DbgLock) : (mLock s f).blk = s.blk := rfl
@[simp] theorem mLock_clk (f : DbgLock → DbgLock) : (mLock s f).clk = s.clk := rfl
@[simp] theorem mLock_hp (f : DbgLock → DbgLock) : (mLock s f).hp = s.hp := rfl
@[simp] theorem mLock_ms (f : DbgLock → DbgLock) : (mLock s f).ms = s.ms := rfl
@[simp] theorem mLock_ram (f : DbgLock → DbgLock) : (mLock s f).ram = s.ram := rfl
@[simp] theorem mLock_tb (f : DbgLock → DbgLock) : (mLock s f).tb = s.tb := rfl
@[simp] theorem mLock_en (f : DbgLock → DbgLock) : (mLock s f).en = s.en := rfl
@[simp] theorem mLock_pin (f : DbgLock → DbgLock) : (mLock s f).pin = s.pin := rfl
@[simp] theorem mLock_bank (f : DbgLock → DbgLock) : (mLock s f).bank = s.bank := rfl
@[simp] theorem mLock_tr (f : DbgLock → DbgLock) : (mLock s f).tr = s.tr := rfl
@[simp] theorem mLock_mv (f : DbgLock → DbgLock) : (mLock s f).mv = s.mv := rfl
@[simp] theorem mLock_mg_log (f : DbgLock → DbgLock) : (mLock s f).mg.log = s.mg.log := rfl
@[simp] theorem mLock_mg_mram (f : DbgLock → DbgLock) : (mLock s f).mg.mram = s.mg.mram := rfl
@[simp] theorem mLock_mg_sm (f : DbgLock → DbgLock) : (mLock s f).mg.sm = s.mg.sm := rfl
@[simp] theorem mLock_mg_bp (f : DbgLock → DbgLock) : (mLock s f).mg.bp = s.mg.bp := rfl
@[simp] theorem mLock_mg_tap (f : DbgLock → DbgLock) : (mLock s f).mg.tap = s.mg.tap := rfl
@[simp] theorem mLock_mg_ckA (f : DbgLock → DbgLock) : (mLock s f).mg.ckA = s.mg.ckA := rfl
@[simp] theorem mLock_mg_ckB (f : DbgLock → DbgLock) : (mLock s f).mg.ckB = s.mg.ckB := rfl
@[simp] theorem mLock_mg_lock (f : DbgLock → DbgLock) : (mLock s f).mg.lock = f s.mg.lock := rfl

/-! ### mTap -/

@[simp] theorem mTap_pending (f : Tap → Tap) : (mTap s f).pending = s.pending := rfl
@[simp] theorem mTap_fresh (f : Tap → Tap) : (mTap s f).fresh = s.fresh := rfl
@[simp] theorem mTap_ec (f : Tap → Tap) : (mTap s f).ec = s.ec := rfl
@[simp] theorem mTap_phase (f : Tap → Tap) : (mTap s f).phase = s.phase := rfl
@[simp] theorem mTap_lap (f : Tap → Tap) : (mTap s f).lap = s.lap := rfl
@[simp] theorem mTap_aon (f : Tap → Tap) : (mTap s f).aon = s.aon := rfl
@[simp] theorem mTap_blk (f : Tap → Tap) : (mTap s f).blk = s.blk := rfl
@[simp] theorem mTap_clk (f : Tap → Tap) : (mTap s f).clk = s.clk := rfl
@[simp] theorem mTap_hp (f : Tap → Tap) : (mTap s f).hp = s.hp := rfl
@[simp] theorem mTap_ms (f : Tap → Tap) : (mTap s f).ms = s.ms := rfl
@[simp] theorem mTap_ram (f : Tap → Tap) : (mTap s f).ram = s.ram := rfl
@[simp] theorem mTap_tb (f : Tap → Tap) : (mTap s f).tb = s.tb := rfl
@[simp] theorem mTap_en (f : Tap → Tap) : (mTap s f).en = s.en := rfl
@[simp] theorem mTap_pin (f : Tap → Tap) : (mTap s f).pin = s.pin := rfl
@[simp] theorem mTap_bank (f : Tap → Tap) : (mTap s f).bank = s.bank := rfl
@[simp] theorem mTap_tr (f : Tap → Tap) : (mTap s f).tr = s.tr := rfl
@[simp] theorem mTap_mv (f : Tap → Tap) : (mTap s f).mv = s.mv := rfl
@[simp] theorem mTap_mg_log (f : Tap → Tap) : (mTap s f).mg.log = s.mg.log := rfl
@[simp] theorem mTap_mg_mram (f : Tap → Tap) : (mTap s f).mg.mram = s.mg.mram := rfl
@[simp] theorem mTap_mg_sm (f : Tap → Tap) : (mTap s f).mg.sm = s.mg.sm := rfl
@[simp] theorem mTap_mg_lock (f : Tap → Tap) : (mTap s f).mg.lock = s.mg.lock := rfl
@[simp] theorem mTap_mg_bp (f : Tap → Tap) : (mTap s f).mg.bp = s.mg.bp := rfl
@[simp] theorem mTap_mg_ckA (f : Tap → Tap) : (mTap s f).mg.ckA = s.mg.ckA := rfl
@[simp] theorem mTap_mg_ckB (f : Tap → Tap) : (mTap s f).mg.ckB = s.mg.ckB := rfl
@[simp] theorem mTap_mg_tap (f : Tap → Tap) : (mTap s f).mg.tap = f s.mg.tap := rfl

/-! ### mOp -/

@[simp] theorem mOp_pending (i : Nat) (f : OpSlot → OpSlot) : (mOp s i f).pending = s.pending := rfl
@[simp] theorem mOp_fresh (i : Nat) (f : OpSlot → OpSlot) : (mOp s i f).fresh = s.fresh := rfl
@[simp] theorem mOp_ec (i : Nat) (f : OpSlot → OpSlot) : (mOp s i f).ec = s.ec := rfl
@[simp] theorem mOp_phase (i : Nat) (f : OpSlot → OpSlot) : (mOp s i f).phase = s.phase := rfl
@[simp] theorem mOp_lap (i : Nat) (f : OpSlot → OpSlot) : (mOp s i f).lap = s.lap := rfl
@[simp] theorem mOp_aon (i : Nat) (f : OpSlot → OpSlot) : (mOp s i f).aon = s.aon := rfl
@[simp] theorem mOp_blk (i : Nat) (f : OpSlot → OpSlot) : (mOp s i f).blk = s.blk := rfl
@[simp] theorem mOp_clk (i : Nat) (f : OpSlot → OpSlot) : (mOp s i f).clk = s.clk := rfl
@[simp] theorem mOp_hp (i : Nat) (f : OpSlot → OpSlot) : (mOp s i f).hp = s.hp := rfl
@[simp] theorem mOp_ms (i : Nat) (f : OpSlot → OpSlot) : (mOp s i f).ms = s.ms := rfl
@[simp] theorem mOp_ram (i : Nat) (f : OpSlot → OpSlot) : (mOp s i f).ram = s.ram := rfl
@[simp] theorem mOp_tb (i : Nat) (f : OpSlot → OpSlot) : (mOp s i f).tb = s.tb := rfl
@[simp] theorem mOp_en (i : Nat) (f : OpSlot → OpSlot) : (mOp s i f).en = s.en := rfl
@[simp] theorem mOp_pin (i : Nat) (f : OpSlot → OpSlot) : (mOp s i f).pin = s.pin := rfl
@[simp] theorem mOp_bank (i : Nat) (f : OpSlot → OpSlot) : (mOp s i f).bank = s.bank := rfl
@[simp] theorem mOp_tr (i : Nat) (f : OpSlot → OpSlot) : (mOp s i f).tr = s.tr := rfl
@[simp] theorem mOp_mv (i : Nat) (f : OpSlot → OpSlot) : (mOp s i f).mv = s.mv := rfl
@[simp] theorem mOp_mg_log (i : Nat) (f : OpSlot → OpSlot) : (mOp s i f).mg.log = s.mg.log := rfl
@[simp] theorem mOp_mg_mram (i : Nat) (f : OpSlot → OpSlot) : (mOp s i f).mg.mram = s.mg.mram := rfl
@[simp] theorem mOp_mg_lock (i : Nat) (f : OpSlot → OpSlot) : (mOp s i f).mg.lock = s.mg.lock := rfl
@[simp] theorem mOp_mg_bp (i : Nat) (f : OpSlot → OpSlot) : (mOp s i f).mg.bp = s.mg.bp := rfl
@[simp] theorem mOp_mg_tap (i : Nat) (f : OpSlot → OpSlot) : (mOp s i f).mg.tap = s.mg.tap := rfl
@[simp] theorem mOp_mg_ckA (i : Nat) (f : OpSlot → OpSlot) : (mOp s i f).mg.ckA = s.mg.ckA := rfl
@[simp] theorem mOp_mg_ckB (i : Nat) (f : OpSlot → OpSlot) : (mOp s i f).mg.ckB = s.mg.ckB := rfl

/-! ### mAon -/

@[simp] theorem mAon_pending (f : Aon → Aon) : (mAon s f).pending = s.pending := rfl
@[simp] theorem mAon_fresh (f : Aon → Aon) : (mAon s f).fresh = s.fresh := rfl
@[simp] theorem mAon_ec (f : Aon → Aon) : (mAon s f).ec = s.ec := rfl
@[simp] theorem mAon_phase (f : Aon → Aon) : (mAon s f).phase = s.phase := rfl
@[simp] theorem mAon_lap (f : Aon → Aon) : (mAon s f).lap = s.lap := rfl
@[simp] theorem mAon_aon (f : Aon → Aon) : (mAon s f).aon = f s.aon := rfl
@[simp] theorem mAon_blk (f : Aon → Aon) : (mAon s f).blk = s.blk := rfl
@[simp] theorem mAon_clk (f : Aon → Aon) : (mAon s f).clk = s.clk := rfl
@[simp] theorem mAon_hp (f : Aon → Aon) : (mAon s f).hp = s.hp := rfl
@[simp] theorem mAon_ms (f : Aon → Aon) : (mAon s f).ms = s.ms := rfl
@[simp] theorem mAon_ram (f : Aon → Aon) : (mAon s f).ram = s.ram := rfl
@[simp] theorem mAon_tb (f : Aon → Aon) : (mAon s f).tb = s.tb := rfl
@[simp] theorem mAon_en (f : Aon → Aon) : (mAon s f).en = s.en := rfl
@[simp] theorem mAon_pin (f : Aon → Aon) : (mAon s f).pin = s.pin := rfl
@[simp] theorem mAon_bank (f : Aon → Aon) : (mAon s f).bank = s.bank := rfl
@[simp] theorem mAon_tr (f : Aon → Aon) : (mAon s f).tr = s.tr := rfl
@[simp] theorem mAon_mv (f : Aon → Aon) : (mAon s f).mv = s.mv := rfl
@[simp] theorem mAon_mg (f : Aon → Aon) : (mAon s f).mg = s.mg := rfl

/-! ### mBlk -/

@[simp] theorem mBlk_pending (f : Blk → Blk) : (mBlk s f).pending = s.pending := rfl
@[simp] theorem mBlk_fresh (f : Blk → Blk) : (mBlk s f).fresh = s.fresh := rfl
@[simp] theorem mBlk_ec (f : Blk → Blk) : (mBlk s f).ec = s.ec := rfl
@[simp] theorem mBlk_phase (f : Blk → Blk) : (mBlk s f).phase = s.phase := rfl
@[simp] theorem mBlk_lap (f : Blk → Blk) : (mBlk s f).lap = s.lap := rfl
@[simp] theorem mBlk_aon (f : Blk → Blk) : (mBlk s f).aon = s.aon := rfl
@[simp] theorem mBlk_blk (f : Blk → Blk) : (mBlk s f).blk = f s.blk := rfl
@[simp] theorem mBlk_clk (f : Blk → Blk) : (mBlk s f).clk = s.clk := rfl
@[simp] theorem mBlk_hp (f : Blk → Blk) : (mBlk s f).hp = s.hp := rfl
@[simp] theorem mBlk_ms (f : Blk → Blk) : (mBlk s f).ms = s.ms := rfl
@[simp] theorem mBlk_ram (f : Blk → Blk) : (mBlk s f).ram = s.ram := rfl
@[simp] theorem mBlk_tb (f : Blk → Blk) : (mBlk s f).tb = s.tb := rfl
@[simp] theorem mBlk_en (f : Blk → Blk) : (mBlk s f).en = s.en := rfl
@[simp] theorem mBlk_pin (f : Blk → Blk) : (mBlk s f).pin = s.pin := rfl
@[simp] theorem mBlk_bank (f : Blk → Blk) : (mBlk s f).bank = s.bank := rfl
@[simp] theorem mBlk_tr (f : Blk → Blk) : (mBlk s f).tr = s.tr := rfl
@[simp] theorem mBlk_mv (f : Blk → Blk) : (mBlk s f).mv = s.mv := rfl
@[simp] theorem mBlk_mg (f : Blk → Blk) : (mBlk s f).mg = s.mg := rfl

/-! ### mClk -/

@[simp] theorem mClk_pending (f : Clk → Clk) : (mClk s f).pending = s.pending := rfl
@[simp] theorem mClk_fresh (f : Clk → Clk) : (mClk s f).fresh = s.fresh := rfl
@[simp] theorem mClk_ec (f : Clk → Clk) : (mClk s f).ec = s.ec := rfl
@[simp] theorem mClk_phase (f : Clk → Clk) : (mClk s f).phase = s.phase := rfl
@[simp] theorem mClk_lap (f : Clk → Clk) : (mClk s f).lap = s.lap := rfl
@[simp] theorem mClk_aon (f : Clk → Clk) : (mClk s f).aon = s.aon := rfl
@[simp] theorem mClk_blk (f : Clk → Clk) : (mClk s f).blk = s.blk := rfl
@[simp] theorem mClk_clk (f : Clk → Clk) : (mClk s f).clk = f s.clk := rfl
@[simp] theorem mClk_hp (f : Clk → Clk) : (mClk s f).hp = s.hp := rfl
@[simp] theorem mClk_ms (f : Clk → Clk) : (mClk s f).ms = s.ms := rfl
@[simp] theorem mClk_ram (f : Clk → Clk) : (mClk s f).ram = s.ram := rfl
@[simp] theorem mClk_tb (f : Clk → Clk) : (mClk s f).tb = s.tb := rfl
@[simp] theorem mClk_en (f : Clk → Clk) : (mClk s f).en = s.en := rfl
@[simp] theorem mClk_pin (f : Clk → Clk) : (mClk s f).pin = s.pin := rfl
@[simp] theorem mClk_bank (f : Clk → Clk) : (mClk s f).bank = s.bank := rfl
@[simp] theorem mClk_tr (f : Clk → Clk) : (mClk s f).tr = s.tr := rfl
@[simp] theorem mClk_mv (f : Clk → Clk) : (mClk s f).mv = s.mv := rfl
@[simp] theorem mClk_mg (f : Clk → Clk) : (mClk s f).mg = s.mg := rfl

/-! ### mHp -/

@[simp] theorem mHp_pending (f : Hp → Hp) : (mHp s f).pending = s.pending := rfl
@[simp] theorem mHp_fresh (f : Hp → Hp) : (mHp s f).fresh = s.fresh := rfl
@[simp] theorem mHp_ec (f : Hp → Hp) : (mHp s f).ec = s.ec := rfl
@[simp] theorem mHp_phase (f : Hp → Hp) : (mHp s f).phase = s.phase := rfl
@[simp] theorem mHp_lap (f : Hp → Hp) : (mHp s f).lap = s.lap := rfl
@[simp] theorem mHp_aon (f : Hp → Hp) : (mHp s f).aon = s.aon := rfl
@[simp] theorem mHp_blk (f : Hp → Hp) : (mHp s f).blk = s.blk := rfl
@[simp] theorem mHp_clk (f : Hp → Hp) : (mHp s f).clk = s.clk := rfl
@[simp] theorem mHp_hp (f : Hp → Hp) : (mHp s f).hp = f s.hp := rfl
@[simp] theorem mHp_ms (f : Hp → Hp) : (mHp s f).ms = s.ms := rfl
@[simp] theorem mHp_ram (f : Hp → Hp) : (mHp s f).ram = s.ram := rfl
@[simp] theorem mHp_tb (f : Hp → Hp) : (mHp s f).tb = s.tb := rfl
@[simp] theorem mHp_en (f : Hp → Hp) : (mHp s f).en = s.en := rfl
@[simp] theorem mHp_pin (f : Hp → Hp) : (mHp s f).pin = s.pin := rfl
@[simp] theorem mHp_bank (f : Hp → Hp) : (mHp s f).bank = s.bank := rfl
@[simp] theorem mHp_tr (f : Hp → Hp) : (mHp s f).tr = s.tr := rfl
@[simp] theorem mHp_mv (f : Hp → Hp) : (mHp s f).mv = s.mv := rfl
@[simp] theorem mHp_mg (f : Hp → Hp) : (mHp s f).mg = s.mg := rfl

/-! ### mTb -/

@[simp] theorem mTb_pending (f : Tb → Tb) : (mTb s f).pending = s.pending := rfl
@[simp] theorem mTb_fresh (f : Tb → Tb) : (mTb s f).fresh = s.fresh := rfl
@[simp] theorem mTb_ec (f : Tb → Tb) : (mTb s f).ec = s.ec := rfl
@[simp] theorem mTb_phase (f : Tb → Tb) : (mTb s f).phase = s.phase := rfl
@[simp] theorem mTb_lap (f : Tb → Tb) : (mTb s f).lap = s.lap := rfl
@[simp] theorem mTb_aon (f : Tb → Tb) : (mTb s f).aon = s.aon := rfl
@[simp] theorem mTb_blk (f : Tb → Tb) : (mTb s f).blk = s.blk := rfl
@[simp] theorem mTb_clk (f : Tb → Tb) : (mTb s f).clk = s.clk := rfl
@[simp] theorem mTb_hp (f : Tb → Tb) : (mTb s f).hp = s.hp := rfl
@[simp] theorem mTb_ms (f : Tb → Tb) : (mTb s f).ms = s.ms := rfl
@[simp] theorem mTb_ram (f : Tb → Tb) : (mTb s f).ram = s.ram := rfl
@[simp] theorem mTb_tb (f : Tb → Tb) : (mTb s f).tb = f s.tb := rfl
@[simp] theorem mTb_en (f : Tb → Tb) : (mTb s f).en = s.en := rfl
@[simp] theorem mTb_pin (f : Tb → Tb) : (mTb s f).pin = s.pin := rfl
@[simp] theorem mTb_bank (f : Tb → Tb) : (mTb s f).bank = s.bank := rfl
@[simp] theorem mTb_tr (f : Tb → Tb) : (mTb s f).tr = s.tr := rfl
@[simp] theorem mTb_mv (f : Tb → Tb) : (mTb s f).mv = s.mv := rfl
@[simp] theorem mTb_mg (f : Tb → Tb) : (mTb s f).mg = s.mg := rfl

/-! ### mRam -/

@[simp] theorem mRam_pending (f : Rams → Rams) : (mRam s f).pending = s.pending := rfl
@[simp] theorem mRam_fresh (f : Rams → Rams) : (mRam s f).fresh = s.fresh := rfl
@[simp] theorem mRam_ec (f : Rams → Rams) : (mRam s f).ec = s.ec := rfl
@[simp] theorem mRam_phase (f : Rams → Rams) : (mRam s f).phase = s.phase := rfl
@[simp] theorem mRam_lap (f : Rams → Rams) : (mRam s f).lap = s.lap := rfl
@[simp] theorem mRam_aon (f : Rams → Rams) : (mRam s f).aon = s.aon := rfl
@[simp] theorem mRam_blk (f : Rams → Rams) : (mRam s f).blk = s.blk := rfl
@[simp] theorem mRam_clk (f : Rams → Rams) : (mRam s f).clk = s.clk := rfl
@[simp] theorem mRam_hp (f : Rams → Rams) : (mRam s f).hp = s.hp := rfl
@[simp] theorem mRam_ms (f : Rams → Rams) : (mRam s f).ms = s.ms := rfl
@[simp] theorem mRam_ram (f : Rams → Rams) : (mRam s f).ram = f s.ram := rfl
@[simp] theorem mRam_tb (f : Rams → Rams) : (mRam s f).tb = s.tb := rfl
@[simp] theorem mRam_en (f : Rams → Rams) : (mRam s f).en = s.en := rfl
@[simp] theorem mRam_pin (f : Rams → Rams) : (mRam s f).pin = s.pin := rfl
@[simp] theorem mRam_bank (f : Rams → Rams) : (mRam s f).bank = s.bank := rfl
@[simp] theorem mRam_tr (f : Rams → Rams) : (mRam s f).tr = s.tr := rfl
@[simp] theorem mRam_mv (f : Rams → Rams) : (mRam s f).mv = s.mv := rfl
@[simp] theorem mRam_mg (f : Rams → Rams) : (mRam s f).mg = s.mg := rfl

/-! ### useFree -/

@[simp] theorem useFree_pending : (useFree s).pending = s.pending := rfl
@[simp] theorem useFree_fresh : (useFree s).fresh = s.fresh + 1 := rfl
@[simp] theorem useFree_ec : (useFree s).ec = s.ec := rfl
@[simp] theorem useFree_phase : (useFree s).phase = s.phase := rfl
@[simp] theorem useFree_lap : (useFree s).lap = s.lap := rfl
@[simp] theorem useFree_aon : (useFree s).aon = s.aon := rfl
@[simp] theorem useFree_blk : (useFree s).blk = s.blk := rfl
@[simp] theorem useFree_clk : (useFree s).clk = s.clk := rfl
@[simp] theorem useFree_hp : (useFree s).hp = s.hp := rfl
@[simp] theorem useFree_ms : (useFree s).ms = s.ms := rfl
@[simp] theorem useFree_ram : (useFree s).ram = s.ram := rfl
@[simp] theorem useFree_tb : (useFree s).tb = s.tb := rfl
@[simp] theorem useFree_en : (useFree s).en = s.en := rfl
@[simp] theorem useFree_pin : (useFree s).pin = s.pin := rfl
@[simp] theorem useFree_bank : (useFree s).bank = s.bank := rfl
@[simp] theorem useFree_tr : (useFree s).tr = s.tr := rfl
@[simp] theorem useFree_mv : (useFree s).mv = s.mv := rfl
@[simp] theorem useFree_mg : (useFree s).mg = s.mg := rfl

/-! ### unmappedHit -/

@[simp] theorem unmappedHit_pending : (unmappedHit s).pending = s.pending := rfl
@[simp] theorem unmappedHit_fresh : (unmappedHit s).fresh = s.fresh := rfl
@[simp] theorem unmappedHit_ec : (unmappedHit s).ec = s.ec := rfl
@[simp] theorem unmappedHit_phase : (unmappedHit s).phase = s.phase := rfl
@[simp] theorem unmappedHit_lap : (unmappedHit s).lap = s.lap := rfl
@[simp] theorem unmappedHit_aon : (unmappedHit s).aon = s.aon := rfl
@[simp] theorem unmappedHit_clk : (unmappedHit s).clk = s.clk := rfl
@[simp] theorem unmappedHit_hp : (unmappedHit s).hp = s.hp := rfl
@[simp] theorem unmappedHit_ms : (unmappedHit s).ms = s.ms := rfl
@[simp] theorem unmappedHit_ram : (unmappedHit s).ram = s.ram := rfl
@[simp] theorem unmappedHit_tb : (unmappedHit s).tb = s.tb := rfl
@[simp] theorem unmappedHit_en : (unmappedHit s).en = s.en := rfl
@[simp] theorem unmappedHit_pin : (unmappedHit s).pin = s.pin := rfl
@[simp] theorem unmappedHit_bank : (unmappedHit s).bank = s.bank := rfl
@[simp] theorem unmappedHit_tr : (unmappedHit s).tr = s.tr := rfl
@[simp] theorem unmappedHit_mv : (unmappedHit s).mv = s.mv := rfl
@[simp] theorem unmappedHit_mg : (unmappedHit s).mg = s.mg := rfl

/-! ### A part after its own update -/

theorem gThr_mThr (k j : Nat) (f : Thread → Thread) : gThr (mThr s k f) j = if j = k then f (gThr s k) else gThr s j :=
  tget_tset _ _ _ _ _
@[simp] theorem gThr_mThr_same (k : Nat) (f : Thread → Thread) : gThr (mThr s k f) k = f (gThr s k) := tget_tset_same _ _ _ _
theorem gThr_mThr_ne {k j : Nat} (f : Thread → Thread) (h : j ≠ k) : gThr (mThr s k f) j = gThr s j := tget_tset_ne _ _ _ h
theorem gEng_mEng (k j : Nat) (f : Eng → Eng) : gEng (mEng s k f) j = if j = k then f (gEng s k) else gEng s j :=
  tget_tset _ _ _ _ _
@[simp] theorem gEng_mEng_same (k : Nat) (f : Eng → Eng) : gEng (mEng s k f) k = f (gEng s k) := tget_tset_same _ _ _ _
theorem gEng_mEng_ne {k j : Nat} (f : Eng → Eng) (h : j ≠ k) : gEng (mEng s k f) j = gEng s j := tget_tset_ne _ _ _ h
theorem gPe_mPe (k j : Nat) (f : Pe → Pe) : gPe (mPe s k f) j = if j = k then f (gPe s k) else gPe s j :=
  tget_tset _ _ _ _ _
@[simp] theorem gPe_mPe_same (k : Nat) (f : Pe → Pe) : gPe (mPe s k f) k = f (gPe s k) := tget_tset_same _ _ _ _
theorem gPe_mPe_ne {k j : Nat} (f : Pe → Pe) (h : j ≠ k) : gPe (mPe s k f) j = gPe s j := tget_tset_ne _ _ _ h
theorem gIc_mIc (k j : Nat) (f : Icache → Icache) : gIc (mIc s k f) j = if j = k then f (gIc s k) else gIc s j :=
  tget_tset _ _ _ _ _
@[simp] theorem gIc_mIc_same (k : Nat) (f : Icache → Icache) : gIc (mIc s k f) k = f (gIc s k) := tget_tset_same _ _ _ _
theorem gIc_mIc_ne {k j : Nat} (f : Icache → Icache) (h : j ≠ k) : gIc (mIc s k f) j = gIc s j := tget_tset_ne _ _ _ h
theorem gCe_mCe (k j : Nat) (f : Ce → Ce) : gCe (mCe s k f) j = if j = k then f (gCe s k) else gCe s j :=
  tget_tset _ _ _ _ _
@[simp] theorem gCe_mCe_same (k : Nat) (f : Ce → Ce) : gCe (mCe s k f) k = f (gCe s k) := tget_tset_same _ _ _ _
theorem gCe_mCe_ne {k j : Nat} (f : Ce → Ce) (h : j ≠ k) : gCe (mCe s k f) j = gCe s j := tget_tset_ne _ _ _ h
theorem gPin_mPin (k j : Nat) (f : Pin → Pin) : gPin (mPin s k f) j = if j = k then f (gPin s k) else gPin s j :=
  tget_tset _ _ _ _ _
@[simp] theorem gPin_mPin_same (k : Nat) (f : Pin → Pin) : gPin (mPin s k f) k = f (gPin s k) := tget_tset_same _ _ _ _
theorem gPin_mPin_ne {k j : Nat} (f : Pin → Pin) (h : j ≠ k) : gPin (mPin s k f) j = gPin s j := tget_tset_ne _ _ _ h
theorem gBank_mBank (k j : Nat) (f : Bank → Bank) : gBank (mBank s k f) j = if j = k then f (gBank s k) else gBank s j :=
  tget_tset _ _ _ _ _
@[simp] theorem gBank_mBank_same (k : Nat) (f : Bank → Bank) : gBank (mBank s k f) k = f (gBank s k) := tget_tset_same _ _ _ _
theorem gBank_mBank_ne {k j : Nat} (f : Bank → Bank) (h : j ≠ k) : gBank (mBank s k f) j = gBank s j := tget_tset_ne _ _ _ h
theorem gLane_mLane (k j : Nat) (f : Lane → Lane) : gLane (mLane s k f) j = if j = k then f (gLane s k) else gLane s j :=
  tget_tset _ _ _ _ _
@[simp] theorem gLane_mLane_same (k : Nat) (f : Lane → Lane) : gLane (mLane s k f) k = f (gLane s k) := tget_tset_same _ _ _ _
theorem gLane_mLane_ne {k j : Nat} (f : Lane → Lane) (h : j ≠ k) : gLane (mLane s k f) j = gLane s j := tget_tset_ne _ _ _ h
theorem gLink_mLink (k j : Nat) (f : Link → Link) : gLink (mLink s k f) j = if j = k then f (gLink s k) else gLink s j :=
  tget_tset _ _ _ _ _
@[simp] theorem gLink_mLink_same (k : Nat) (f : Link → Link) : gLink (mLink s k f) k = f (gLink s k) := tget_tset_same _ _ _ _
theorem gLink_mLink_ne {k j : Nat} (f : Link → Link) (h : j ≠ k) : gLink (mLink s k f) j = gLink s j := tget_tset_ne _ _ _ h
theorem gLg_mLg (k j : Nat) (f : Lg → Lg) : gLg (mLg s k f) j = if j = k then f (gLg s k) else gLg s j :=
  tget_tset _ _ _ _ _
@[simp] theorem gLg_mLg_same (k : Nat) (f : Lg → Lg) : gLg (mLg s k f) k = f (gLg s k) := tget_tset_same _ _ _ _
theorem gLg_mLg_ne {k j : Nat} (f : Lg → Lg) (h : j ≠ k) : gLg (mLg s k f) j = gLg s j := tget_tset_ne _ _ _ h
theorem gDp_mDp (k j : Nat) (f : Dp → Dp) : gDp (mDp s k f) j = if j = k then f (gDp s k) else gDp s j :=
  tget_tset _ _ _ _ _
@[simp] theorem gDp_mDp_same (k : Nat) (f : Dp → Dp) : gDp (mDp s k f) k = f (gDp s k) := tget_tset_same _ _ _ _
theorem gDp_mDp_ne {k j : Nat} (f : Dp → Dp) (h : j ≠ k) : gDp (mDp s k f) j = gDp s j := tget_tset_ne _ _ _ h
theorem gDc_mDc (k j : Nat) (f : Dc → Dc) : gDc (mDc s k f) j = if j = k then f (gDc s k) else gDc s j :=
  tget_tset _ _ _ _ _
@[simp] theorem gDc_mDc_same (k : Nat) (f : Dc → Dc) : gDc (mDc s k f) k = f (gDc s k) := tget_tset_same _ _ _ _
theorem gDc_mDc_ne {k j : Nat} (f : Dc → Dc) (h : j ≠ k) : gDc (mDc s k f) j = gDc s j := tget_tset_ne _ _ _ h
theorem gAu_mAu (k j : Nat) (f : Au → Au) : gAu (mAu s k f) j = if j = k then f (gAu s k) else gAu s j :=
  tget_tset _ _ _ _ _
@[simp] theorem gAu_mAu_same (k : Nat) (f : Au → Au) : gAu (mAu s k f) k = f (gAu s k) := tget_tset_same _ _ _ _
theorem gAu_mAu_ne {k j : Nat} (f : Au → Au) (h : j ≠ k) : gAu (mAu s k f) j = gAu s j := tget_tset_ne _ _ _ h
theorem gMp_mMp (k j : Nat) (f : Mp → Mp) : gMp (mMp s k f) j = if j = k then f (gMp s k) else gMp s j :=
  tget_tset _ _ _ _ _
@[simp] theorem gMp_mMp_same (k : Nat) (f : Mp → Mp) : gMp (mMp s k f) k = f (gMp s k) := tget_tset_same _ _ _ _
theorem gMp_mMp_ne {k j : Nat} (f : Mp → Mp) (h : j ≠ k) : gMp (mMp s k f) j = gMp s j := tget_tset_ne _ _ _ h

@[simp] theorem gBank_mSq_same (b : Nat) (f : Sq → Sq) :
    gBank (mSq s b f) b = { gBank s b with sq := f (gBank s b).sq } := gBank_mBank_same s b _
theorem gBank_mSq_ne {b j : Nat} (f : Sq → Sq) (h : j ≠ b) : gBank (mSq s b f) j = gBank s j := gBank_mBank_ne s _ h

@[simp] theorem gTmr_mTmr_same (p n : Nat) (f : Tmr → Tmr) : gTmr (mTmr s p n f) p n = f (gTmr s p n) := by
  simp [gTmr, mTmr]
theorem gTmr_mTmr_ne {p n q m : Nat} (f : Tmr → Tmr) (h : ¬(q = p ∧ m = n)) :
    gTmr (mTmr s p n f) q m = gTmr s q m := by
  unfold gTmr mTmr
  by_cases hq : q = p
  · subst hq
    have hm : m ≠ n := fun e => h ⟨rfl, e⟩
    rw [gEng_mEng_same]
    exact tget_tset_ne _ _ _ hm
  · rw [gEng_mEng_ne s _ hq]

@[simp] theorem gDom_mDom_same (n : Nat) (f : Dom → Dom) : gDom (mDom s n f) n = f (gDom s n) := by simp [gDom, mDom]
theorem gDom_mDom_ne {n j : Nat} (f : Dom → Dom) (h : j ≠ n) : gDom (mDom s n f) j = gDom s j := by
  simp [gDom, mDom, tget_tset_ne _ _ _ h]

@[simp] theorem gWin_sWin_same (w : Nat) (x : Option Pkt) : gWin (sWin s w x) w = x := by simp [gWin, sWin]
theorem gWin_sWin_ne {w j : Nat} (x : Option Pkt) (h : j ≠ w) : gWin (sWin s w x) j = gWin s j := by
  simp [gWin, sWin, tget_tset_ne _ _ _ h]

@[simp] theorem gPool_mPool_same (p : Nat) (f : Pool → Pool) : gPool (mPool s p f) p = f (gPool s p) := by
  simp [gPool, mPool]
theorem gPool_mPool_ne {p j : Nat} (f : Pool → Pool) (h : j ≠ p) : gPool (mPool s p f) j = gPool s j := by
  simp [gPool, mPool, tget_tset_ne _ _ _ h]

@[simp] theorem gOp_mOp_same (i : Nat) (f : OpSlot → OpSlot) : gOp (mOp s i f) i = f (gOp s i) := by simp [gOp, mOp]
theorem gOp_mOp_ne {i j : Nat} (f : OpSlot → OpSlot) (h : j ≠ i) : gOp (mOp s i f) j = gOp s j := by
  simp [gOp, mOp, tget_tset_ne _ _ _ h]

/-! ### The log -/

@[simp] theorem logEv_pending (c : W16) (d : List Nat) : (logEv s c d).pending = s.pending := by unfold logEv; split <;> rfl
@[simp] theorem logEv_fresh (c : W16) (d : List Nat) : (logEv s c d).fresh = s.fresh := by unfold logEv; split <;> rfl
@[simp] theorem logEv_ec (c : W16) (d : List Nat) : (logEv s c d).ec = s.ec := by unfold logEv; split <;> rfl
@[simp] theorem logEv_phase (c : W16) (d : List Nat) : (logEv s c d).phase = s.phase := by unfold logEv; split <;> rfl
@[simp] theorem logEv_lap (c : W16) (d : List Nat) : (logEv s c d).lap = s.lap := by unfold logEv; split <;> rfl
@[simp] theorem logEv_aon (c : W16) (d : List Nat) : (logEv s c d).aon = s.aon := by unfold logEv; split <;> rfl
@[simp] theorem logEv_blk (c : W16) (d : List Nat) : (logEv s c d).blk = s.blk := by unfold logEv; split <;> rfl
@[simp] theorem logEv_clk (c : W16) (d : List Nat) : (logEv s c d).clk = s.clk := by unfold logEv; split <;> rfl
@[simp] theorem logEv_hp (c : W16) (d : List Nat) : (logEv s c d).hp = s.hp := by unfold logEv; split <;> rfl
@[simp] theorem logEv_ms (c : W16) (d : List Nat) : (logEv s c d).ms = s.ms := by unfold logEv; split <;> rfl
@[simp] theorem logEv_ram (c : W16) (d : List Nat) : (logEv s c d).ram = s.ram := by unfold logEv; split <;> rfl
@[simp] theorem logEv_tb (c : W16) (d : List Nat) : (logEv s c d).tb = s.tb := by unfold logEv; split <;> rfl
@[simp] theorem logEv_en (c : W16) (d : List Nat) : (logEv s c d).en = s.en := by unfold logEv; split <;> rfl
@[simp] theorem logEv_pin (c : W16) (d : List Nat) : (logEv s c d).pin = s.pin := by unfold logEv; split <;> rfl
@[simp] theorem logEv_bank (c : W16) (d : List Nat) : (logEv s c d).bank = s.bank := by unfold logEv; split <;> rfl
@[simp] theorem logEv_tr (c : W16) (d : List Nat) : (logEv s c d).tr = s.tr := by unfold logEv; split <;> rfl
@[simp] theorem logEv_mv (c : W16) (d : List Nat) : (logEv s c d).mv = s.mv := by unfold logEv; split <;> rfl
@[simp] theorem logEv_mg_mram (c : W16) (d : List Nat) : (logEv s c d).mg.mram = s.mg.mram := by unfold logEv; split <;> rfl
@[simp] theorem logEv_mg_sm (c : W16) (d : List Nat) : (logEv s c d).mg.sm = s.mg.sm := by unfold logEv; split <;> rfl
@[simp] theorem logEv_mg_lock (c : W16) (d : List Nat) : (logEv s c d).mg.lock = s.mg.lock := by unfold logEv; split <;> rfl
@[simp] theorem logEv_mg_bp (c : W16) (d : List Nat) : (logEv s c d).mg.bp = s.mg.bp := by unfold logEv; split <;> rfl
@[simp] theorem logEv_mg_tap (c : W16) (d : List Nat) : (logEv s c d).mg.tap = s.mg.tap := by unfold logEv; split <;> rfl
@[simp] theorem logEv_mg_ckA (c : W16) (d : List Nat) : (logEv s c d).mg.ckA = s.mg.ckA := by unfold logEv; split <;> rfl
@[simp] theorem logEv_mg_ckB (c : W16) (d : List Nat) : (logEv s c d).mg.ckB = s.mg.ckB := by unfold logEv; split <;> rfl

/-- An event logged in an open log takes the next number, and what was held stays (R427). -/
theorem logEv_open (c : W16) (d : List Nat) (h : s.mg.log.opened = true) :
    (logEv s c d).mg.log = { s.mg.log with
      buf := logInsert { tb := s.tb.now, seq := s.mg.log.seq, code := c, data := d } s.mg.log.buf
      seq := s.mg.log.seq + 1 } := by
  simp [logEv, h]

/-- An event before the log is open is held without a timebase value (R115). -/
theorem logEv_early (c : W16) (d : List Nat) (h : s.mg.log.opened = false) :
    (logEv s c d).mg.log = { s.mg.log with early := s.mg.log.early ++ [(c, d)] } := by
  simp [logEv, h]

end Sys2Proof.Machine
end

