-- ==== Sys2Proof/Laws/Commands.lean ====
section
/-! SUPPORT. Laws of the shared forms of commands: one that acts under a condition, a pin sequencer's word, a command of the stage
manager at the head of its ring, and a step of a long operation (spec/08 R284, R298; spec/12 R105, R437, R438, R444). -/

namespace Sys2Proof.Machine

/-! ### Commands under a condition -/

theorem act_true {b : Bool} {f : State → State} {s : State} (h : b = true) : act b f s = .next (f s) := by simp [act, h]

theorem act_false {b : Bool} {f : State → State} {s : State} (h : b = false) : act b f s = .next s := by simp [act, h]

/-- A command under a condition answers its effect, or changes nothing. -/
theorem act_cases (b : Bool) (f : State → State) (s : State) :
    (b = true ∧ act b f s = .next (f s)) ∨ (b = false ∧ act b f s = .next s) := by cases b <;> simp [act]

/-! ### Words of a pin sequencer -/

/-- A word at the PC of a sequencer that issues has its effect, and no other word issues in the pc. -/
theorem kpIssue_can {i : Instr} {b : Fin 32} {f : State → State} {s : State} (h : sqIssues s b.val = true)
    (hn : kpDecode b (kpWord (gSq s b.val)) = i) : kpIssue i b f s = .next (mSq (f s) b.val fun x => sqLater s x) := by
  unfold kpIssue
  rw [act_true (by rw [h, hn]; simp)]

/-- A word of a sequencer that does not issue has none. -/
theorem kpIssue_cannot {i : Instr} {b : Fin 32} {f : State → State} {s : State} (h : sqIssues s b.val = false) :
    kpIssue i b f s = .next s := by
  unfold kpIssue
  rw [act_false (by rw [h]; simp)]

/-- Nor has a command that is not the word at the PC. -/
theorem kpIssue_other {i : Instr} {b : Fin 32} {f : State → State} {s : State}
    (hn : kpDecode b (kpWord (gSq s b.val)) ≠ i) : kpIssue i b f s = .next s := by
  unfold kpIssue
  rw [act_false (by simp [hn])]

theorem kpCtl_ok {i : Instr} {b : Fin 32} {f : Sq → Except W8 Sq} {s : State} {x : Sq} (h : sqIssues s b.val = true)
    (hn : kpDecode b (kpWord (gSq s b.val)) = i) (hf : f (gSq s b.val) = .ok x) :
    kpCtl i b f s = .next (mSq (mSq s b.val fun _ => sqStepEnd { x with bpPass := false }) b.val fun x => sqLater s x) := by
  unfold kpCtl
  rw [kpIssue_can h hn]
  simp only [hf]

theorem kpCtl_trap {i : Instr} {b : Fin 32} {f : Sq → Except W8 Sq} {s : State} {c : W8} (h : sqIssues s b.val = true)
    (hn : kpDecode b (kpWord (gSq s b.val)) = i) (hf : f (gSq s b.val) = .error c) :
    kpCtl i b f s = .next (mSq (sqTrap s b.val c) b.val fun x => sqLater s x) := by
  unfold kpCtl
  rw [kpIssue_can h hn]
  simp only [hf]

/-! ### Commands of the stage manager -/

/-- With no end completion waiting, none is written. -/
theorem oweFlush_none {s : State} (h : ∀ i, i ∈ s.mg.sm.freed → (gOp s i).owes = false) : oweFlush s = s := by
  unfold oweFlush
  generalize s.mg.sm.freed = l at h
  induction l with
  | nil => rfl
  | cons i t ih =>
    have hi : oweOne s i = s := by simp [oweOne, h i (by simp)]
    rw [foldNat, hi]
    exact ih fun j hj => h j (List.mem_cons_of_mem _ hj)

/-- With a command of the table at the head of the ring, T0 changes nothing before it looks at it. -/
theorem smBegin_turn {s : State} {p : Power} {op : Nat} {e : List W8} (h : smTurn s p op e)
    (ho : knownOps.contains op = true) : smBegin s = s := by
  obtain ⟨-, -, hf, -, he, hop⟩ := h
  unfold smBegin
  rw [oweFlush_none hf, skipBad, he, hop, ho]
  simp

/-- A command of the stage manager in its turn, in READY: it is carried out, or refused for its form. -/
theorem shortCmd_turn {s : State} {c : CmdForm} {e : List W8} {f : List W8 → State → State}
    (h : smTurn s .ready c.op e) (ho : knownOps.contains c.op = true) :
    shortCmd c f s = .next (if entryOk e c.flags c.used then f e s else cmdDone s e 0x03 []) := by
  have hb := smBegin_turn h ho
  obtain ⟨ha, hp, -, hr, he, hop⟩ := h
  have hh : smHead s c.op = true := by simp [smHead, ha, hr, he, hop, hp]
  simp only [shortCmd, hb, hh, if_true, smRun, hp, he]
  cases entryOk e c.flags c.used <;> simp

/-- The same for a long command. -/
theorem longCmd_turn {s : State} {c : CmdForm} {e : List W8} {accept : List W8 → State → State}
    {run : Nat → State → State} (h : smTurn s .ready c.op e) (ho : knownOps.contains c.op = true) :
    longCmd c accept run s = .next (if entryOk e c.flags c.used then accept e s else cmdDone s e 0x03 []) := by
  have hb := smBegin_turn h ho
  obtain ⟨ha, hp, -, hr, he, hop⟩ := h
  have hh : smHead s c.op = true := by simp [smHead, ha, hr, he, hop, hp]
  simp only [longCmd, hb, hh, if_true, smRun, hp, he]
  cases entryOk e c.flags c.used <;> simp

/-- With the command ring empty, a long command is a step of its operation. -/
theorem longCmd_works {s : State} {c : CmdForm} {i : Nat} {accept : List W8 → State → State} {run : Nat → State → State}
    (h : smWorks s c.op i) : longCmd c accept run s = .next (run i s) := by
  obtain ⟨ha, hr, hf, ho⟩ := h
  have hc : cmdReady s = false := by simp [cmdReady, hr]
  have hb : smBegin s = s := by
    unfold smBegin
    rw [oweFlush_none hf, skipBad, hc]
    simp
  have hh : smHead s c.op = false := by simp [smHead, hc]
  simp [longCmd, hb, hh, ha, ho]

end Sys2Proof.Machine
end

