-- ==== Sys2Proof/Laws/PerInstr.lean ====
section
/-! SUPPORT. The statements made per command: one lemma for each constructor of Instr. -/

namespace Sys2Proof.Laws.OneIssuer

open Sys2Proof.Machine

/-- A command is not at once the word of an engine's thread and the word of a pin sequencer (spec/05, spec/08). -/
def Statement (i : Instr) : Prop := keOf i = none ∨ kpOf i = none

theorem commit (e : Fin 64) : Statement (.commit e) := .inl rfl
theorem billSwitch (e : Fin 64) : Statement (.billSwitch e) := .inl rfl
theorem fetchMiss (g : Fin 2048) : Statement (.fetchMiss g) := .inl rfl
theorem fillDone (p : Fin 68) (line : W48) : Statement (.fillDone p line) := .inl rfl
theorem stiCacheUpdate (g : Fin 2048) : Statement (.stiCacheUpdate g) := .inl rfl
theorem heldAccessResponse (g : Fin 2048) : Statement (.heldAccessResponse g) := .inl rfl
theorem postedAccessResponse (g : Fin 2048) (k : Nat) : Statement (.postedAccessResponse g k) := .inl rfl
theorem eventEntry (g : Fin 2048) : Statement (.eventEntry g) := .inl rfl
theorem threadWake (g : Fin 2048) : Statement (.threadWake g) := .inl rfl
theorem threadWatchdog (g : Fin 2048) : Statement (.threadWatchdog g) := .inl rfl
theorem restart (who : Requester) (g : Fin 2048) (dropev : Bool) : Statement (.restart who g dropev) := .inl rfl
theorem thrEvWrite (who : Requester) (g : Fin 2048) (data : W64) : Statement (.thrEvWrite who g data) := .inl rfl
theorem add (g : Fin 2048) (rd rs rt : Fin 16) : Statement (.add g rd rs rt) := .inr rfl
theorem addc (g : Fin 2048) (rd rs rt : Fin 16) : Statement (.addc g rd rs rt) := .inr rfl
theorem sub (g : Fin 2048) (rd rs rt : Fin 16) : Statement (.sub g rd rs rt) := .inr rfl
theorem subc (g : Fin 2048) (rd rs rt : Fin 16) : Statement (.subc g rd rs rt) := .inr rfl
theorem and (g : Fin 2048) (rd rs rt : Fin 16) : Statement (.and g rd rs rt) := .inr rfl
theorem or (g : Fin 2048) (rd rs rt : Fin 16) : Statement (.or g rd rs rt) := .inr rfl
theorem xor (g : Fin 2048) (rd rs rt : Fin 16) : Statement (.xor g rd rs rt) := .inr rfl
theorem andn (g : Fin 2048) (rd rs rt : Fin 16) : Statement (.andn g rd rs rt) := .inr rfl
theorem shl (g : Fin 2048) (rd rs rt : Fin 16) : Statement (.shl g rd rs rt) := .inr rfl
theorem shr (g : Fin 2048) (rd rs rt : Fin 16) : Statement (.shr g rd rs rt) := .inr rfl
theorem sar (g : Fin 2048) (rd rs rt : Fin 16) : Statement (.sar g rd rs rt) := .inr rfl
theorem ror (g : Fin 2048) (rd rs rt : Fin 16) : Statement (.ror g rd rs rt) := .inr rfl
theorem mul (g : Fin 2048) (rd rs rt : Fin 16) : Statement (.mul g rd rs rt) := .inr rfl
theorem mulhs (g : Fin 2048) (rd rs rt : Fin 16) : Statement (.mulhs g rd rs rt) := .inr rfl
theorem mulhu (g : Fin 2048) (rd rs rt : Fin 16) : Statement (.mulhu g rd rs rt) := .inr rfl
theorem cmp (g : Fin 2048) (rs rt : Fin 16) : Statement (.cmp g rs rt) := .inr rfl
theorem min (g : Fin 2048) (rd rs rt : Fin 16) : Statement (.min g rd rs rt) := .inr rfl
theorem max (g : Fin 2048) (rd rs rt : Fin 16) : Statement (.max g rd rs rt) := .inr rfl
theorem minu (g : Fin 2048) (rd rs rt : Fin 16) : Statement (.minu g rd rs rt) := .inr rfl
theorem maxu (g : Fin 2048) (rd rs rt : Fin 16) : Statement (.maxu g rd rs rt) := .inr rfl
theorem clz (g : Fin 2048) (rd rs : Fin 16) : Statement (.clz g rd rs) := .inr rfl
theorem popc (g : Fin 2048) (rd rs : Fin 16) : Statement (.popc g rd rs) := .inr rfl
theorem brev (g : Fin 2048) (rd rs : Fin 16) : Statement (.brev g rd rs) := .inr rfl
theorem bswap (g : Fin 2048) (rd rs : Fin 16) : Statement (.bswap g rd rs) := .inr rfl
theorem sextb (g : Fin 2048) (rd rs : Fin 16) : Statement (.sextb g rd rs) := .inr rfl
theorem sexth (g : Fin 2048) (rd rs : Fin 16) : Statement (.sexth g rd rs) := .inr rfl
theorem selt (g : Fin 2048) (rd rs rt : Fin 16) : Statement (.selt g rd rs rt) := .inr rfl
theorem teq (g : Fin 2048) (rs rt : Fin 16) : Statement (.teq g rs rt) := .inr rfl
theorem tlt (g : Fin 2048) (rs rt : Fin 16) : Statement (.tlt g rs rt) := .inr rfl
theorem tltu (g : Fin 2048) (rs rt : Fin 16) : Statement (.tltu g rs rt) := .inr rfl
theorem tbit (g : Fin 2048) (rs rt : Fin 16) : Statement (.tbit g rs rt) := .inr rfl
theorem addi (g : Fin 2048) (rd rs : Fin 16) (imm17 : BitVec 17) : Statement (.addi g rd rs imm17) := .inr rfl
theorem andi (g : Fin 2048) (rd rs : Fin 16) (imm17 : BitVec 17) : Statement (.andi g rd rs imm17) := .inr rfl
theorem ori (g : Fin 2048) (rd rs : Fin 16) (imm17 : BitVec 17) : Statement (.ori g rd rs imm17) := .inr rfl
theorem xori (g : Fin 2048) (rd rs : Fin 16) (imm17 : BitVec 17) : Statement (.xori g rd rs imm17) := .inr rfl
theorem shi (g : Fin 2048) (rd rs : Fin 16) (imm17 : BitVec 17) : Statement (.shi g rd rs imm17) := .inr rfl
theorem cmpi (g : Fin 2048) (rs : Fin 16) (imm17 : BitVec 17) : Statement (.cmpi g rs imm17) := .inr rfl
theorem tsti (g : Fin 2048) (sel : Fin 16) (rs : Fin 16) (imm17 : BitVec 17) : Statement (.tsti g sel rs imm17) := .inr rfl
theorem movi (g : Fin 2048) (rd : Fin 16) (h : Bool) (imm16 : W16) : Statement (.movi g rd h imm16) := .inr rfl
theorem div (g : Fin 2048) (rd rs rt : Fin 16) : Statement (.div g rd rs rt) := .inr rfl
theorem divu (g : Fin 2048) (rd rs rt : Fin 16) : Statement (.divu g rd rs rt) := .inr rfl
theorem rems (g : Fin 2048) (rd rs rt : Fin 16) : Statement (.rems g rd rs rt) := .inr rfl
theorem remu (g : Fin 2048) (rd rs rt : Fin 16) : Statement (.remu g rd rs rt) := .inr rfl
theorem aaddi (g : Fin 2048) (ad as : Fin 8) (imm19 : BitVec 19) : Statement (.aaddi g ad as imm19) := .inr rfl
theorem aadd (g : Fin 2048) (ad as : Fin 8) (dt : Fin 16) : Statement (.aadd g ad as dt) := .inr rfl
theorem asub (g : Fin 2048) (ad as : Fin 8) (dt : Fin 16) : Statement (.asub g ad as dt) := .inr rfl
theorem amov (g : Fin 2048) (ad as : Fin 8) : Statement (.amov g ad as) := .inr rfl
theorem alo (g : Fin 2048) (ad as : Fin 8) (dt : Fin 16) : Statement (.alo g ad as dt) := .inr rfl
theorem ahi (g : Fin 2048) (ad as : Fin 8) (dt : Fin 16) : Statement (.ahi g ad as dt) := .inr rfl
theorem atod (g : Fin 2048) (as : Fin 8) (dt : Fin 16) : Statement (.atod g as dt) := .inr rfl
theorem atodh (g : Fin 2048) (as : Fin 8) (dt : Fin 16) : Statement (.atodh g as dt) := .inr rfl
theorem taeq (g : Fin 2048) (ad as : Fin 8) : Statement (.taeq g ad as) := .inr rfl
theorem taltu (g : Fin 2048) (ad as : Fin 8) : Statement (.taltu g ad as) := .inr rfl
theorem amovi (g : Fin 2048) (ad : Fin 8) (h : BitVec 2) (imm16 : W16) : Statement (.amovi g ad h imm16) := .inr rfl
theorem mts (g : Fin 2048) (reg : BitVec 5) (num : W8) : Statement (.mts g reg num) := .inr rfl
theorem mfs (g : Fin 2048) (reg : BitVec 5) (num : W8) : Statement (.mfs g reg num) := .inr rfl
theorem ldb (g : Fin 2048) (r : Fin 16) (a : Fin 8) (mode : BitVec 2) (imm16 : W16) : Statement (.ldb g r a mode imm16) := .inr rfl
theorem ldbu (g : Fin 2048) (r : Fin 16) (a : Fin 8) (mode : BitVec 2) (imm16 : W16) : Statement (.ldbu g r a mode imm16) := .inr rfl
theorem ldh (g : Fin 2048) (r : Fin 16) (a : Fin 8) (mode : BitVec 2) (imm16 : W16) : Statement (.ldh g r a mode imm16) := .inr rfl
theorem ldhu (g : Fin 2048) (r : Fin 16) (a : Fin 8) (mode : BitVec 2) (imm16 : W16) : Statement (.ldhu g r a mode imm16) := .inr rfl
theorem ldw (g : Fin 2048) (r : Fin 16) (a : Fin 8) (mode : BitVec 2) (imm16 : W16) : Statement (.ldw g r a mode imm16) := .inr rfl
theorem ldd (g : Fin 2048) (r : Fin 16) (a : Fin 8) (mode : BitVec 2) (imm16 : W16) : Statement (.ldd g r a mode imm16) := .inr rfl
theorem lda (g : Fin 2048) (r : Fin 16) (a : Fin 8) (mode : BitVec 2) (imm16 : W16) : Statement (.lda g r a mode imm16) := .inr rfl
theorem stb (g : Fin 2048) (r : Fin 16) (a : Fin 8) (mode : BitVec 2) (imm16 : W16) : Statement (.stb g r a mode imm16) := .inr rfl
theorem sth (g : Fin 2048) (r : Fin 16) (a : Fin 8) (mode : BitVec 2) (imm16 : W16) : Statement (.sth g r a mode imm16) := .inr rfl
theorem stw (g : Fin 2048) (r : Fin 16) (a : Fin 8) (mode : BitVec 2) (imm16 : W16) : Statement (.stw g r a mode imm16) := .inr rfl
theorem std (g : Fin 2048) (r : Fin 16) (a : Fin 8) (mode : BitVec 2) (imm16 : W16) : Statement (.std g r a mode imm16) := .inr rfl
theorem sta (g : Fin 2048) (r : Fin 16) (a : Fin 8) (mode : BitVec 2) (imm16 : W16) : Statement (.sta g r a mode imm16) := .inr rfl
theorem sti (g : Fin 2048) (r : Fin 16) (a : Fin 8) (mode : BitVec 2) (imm16 : W16) : Statement (.sti g r a mode imm16) := .inr rfl
theorem macx (g : Fin 2048) (ac : Fin 2) (ax ay : Fin 8) (xm ym sg : BitVec 2) (neg : Bool) : Statement (.macx g ac ax ay xm ym sg neg) := .inr rfl
theorem clmacx (g : Fin 2048) (ac : Fin 2) (ax ay : Fin 8) (xm ym : BitVec 2) : Statement (.clmacx g ac ax ay xm ym) := .inr rfl
theorem mac (g : Fin 2048) (ac : Fin 2) (rs rt : Fin 16) (sg : BitVec 2) (neg : Bool) : Statement (.mac g ac rs rt sg neg) := .inr rfl
theorem clrac (g : Fin 2048) (ac : Fin 2) : Statement (.clrac g ac) := .inr rfl
theorem mfac (g : Fin 2048) (ac : Fin 2) (d : Fin 16) (par : BitVec 13) : Statement (.mfac g ac d par) := .inr rfl
theorem mfacs (g : Fin 2048) (ac : Fin 2) (d : Fin 16) (par : BitVec 13) : Statement (.mfacs g ac d par) := .inr rfl
theorem mtac (g : Fin 2048) (ac : Fin 2) (d : Fin 16) (par : BitVec 13) : Statement (.mtac g ac d par) := .inr rfl
theorem acshr (g : Fin 2048) (ac : Fin 2) (par : BitVec 13) : Statement (.acshr g ac par) := .inr rfl
theorem acshl (g : Fin 2048) (ac : Fin 2) (par : BitVec 13) : Statement (.acshl g ac par) := .inr rfl
theorem clred (g : Fin 2048) (ac : Fin 2) (d : Fin 16) (par : BitVec 13) : Statement (.clred g ac d par) := .inr rfl
theorem acadd (g : Fin 2048) (ac : Fin 2) : Statement (.acadd g ac) := .inr rfl
theorem acxor (g : Fin 2048) (ac : Fin 2) : Statement (.acxor g ac) := .inr rfl
theorem bcrc (g : Fin 2048) (ac : Fin 2) (ax ay : Fin 8) (xm ym : BitVec 2) (dn : Fin 16) : Statement (.bcrc g ac ax ay xm ym dn) := .inr rfl
theorem br (g : Fin 2048) (cond : BitVec 4) (off21 : BitVec 21) : Statement (.br g cond off21) := .inr rfl
theorem dbnz (g : Fin 2048) (d : Fin 16) (off21 : BitVec 21) : Statement (.dbnz g d off21) := .inr rfl
theorem call (g : Fin 2048) (off25 : BitVec 25) : Statement (.call g off25) := .inr rfl
theorem jr (g : Fin 2048) (a : Fin 8) : Statement (.jr g a) := .inr rfl
theorem callr (g : Fin 2048) (a : Fin 8) : Statement (.callr g a) := .inr rfl
theorem ret (g : Fin 2048) : Statement (.ret g) := .inr rfl
theorem rete (g : Fin 2048) : Statement (.rete g) := .inr rfl
theorem waitt (g : Fin 2048) : Statement (.waitt g) := .inr rfl
theorem waite (g : Fin 2048) (mask : W16) : Statement (.waite g mask) := .inr rfl
theorem ldtb (g : Fin 2048) (d : Fin 16) : Statement (.ldtb g d) := .inr rfl
theorem cue (g : Fin 2048) (s p : Fin 16) (act : BitVec 4) : Statement (.cue g s p act) := .inr rfl
theorem caprd (g : Fin 2048) (d p k : Fin 16) : Statement (.caprd g d p k) := .inr rfl
theorem tmrRead (g : Fin 2048) (d : Fin 16) (n : Fin 4) (sel : BitVec 4) : Statement (.tmrRead g d n sel) := .inr rfl
theorem tmrWrite (g : Fin 2048) (d : Fin 16) (n : Fin 4) (sel : BitVec 4) : Statement (.tmrWrite g d n sel) := .inr rfl
theorem chopen (g : Fin 2048) (ce : Fin 4) (d : Fin 16) (tr : Bool) : Statement (.chopen g ce d tr) := .inr rfl
theorem chw (g : Fin 2048) (ce : Fin 4) (d : Fin 16) (tr : Bool) : Statement (.chw g ce d tr) := .inr rfl
theorem chclose (g : Fin 2048) (ce : Fin 4) (tr : Bool) : Statement (.chclose g ce tr) := .inr rfl
theorem chr (g : Fin 2048) (ce : Fin 4) (d : Fin 16) (tr : Bool) : Statement (.chr g ce d tr) := .inr rfl
theorem chabort (g : Fin 2048) (ce : Fin 4) (tr : Bool) : Statement (.chabort g ce tr) := .inr rfl
theorem take (g : Fin 2048) (r1 : Fin 16) (tr : Bool) : Statement (.take g r1 tr) := .inr rfl
theorem release (g : Fin 2048) (r1 r2 : Fin 16) : Statement (.release g r1 r2) := .inr rfl
theorem casw (g : Fin 2048) (a : Fin 8) (d t : Fin 16) : Statement (.casw g a d t) := .inr rfl
theorem casd (g : Fin 2048) (a : Fin 8) (d t : Fin 16) : Statement (.casd g a d t) := .inr rfl
theorem acq (g : Fin 2048) (a : Fin 8) (d t : Fin 16) : Statement (.acq g a d t) := .inr rfl
theorem rel (g : Fin 2048) (a : Fin 8) : Statement (.rel g a) := .inr rfl
theorem lwatch (g : Fin 2048) (a : Fin 8) : Statement (.lwatch g a) := .inr rfl
theorem lunwatch (g : Fin 2048) (a : Fin 8) : Statement (.lunwatch g a) := .inr rfl
theorem nop (g : Fin 2048) : Statement (.nop g) := .inr rfl
theorem synci (g : Fin 2048) : Statement (.synci g) := .inr rfl
theorem cpt (g : Fin 2048) (num : W16) : Statement (.cpt g num) := .inr rfl
theorem fence (g : Fin 2048) : Statement (.fence g) := .inr rfl
theorem bkpt (g : Fin 2048) (num : W16) : Statement (.bkpt g num) := .inr rfl
theorem tset (g : Fin 2048) : Statement (.tset g) := .inr rfl
theorem tclr (g : Fin 2048) : Statement (.tclr g) := .inr rfl
theorem pair (g : Fin 2048) (a b : ShortOp) : Statement (.pair g a b) := .inr rfl
theorem cbOpenArrive (ep : Fin 8192) : Statement (.cbOpenArrive ep) := .inl rfl
theorem cbNextGrant (ep : Fin 8192) : Statement (.cbNextGrant ep) := .inl rfl
theorem cbGrantArrive (ep : Fin 8192) : Statement (.cbGrantArrive ep) := .inl rfl
theorem cbWordArrive (ep : Fin 8192) : Statement (.cbWordArrive ep) := .inl rfl
theorem cbCreditArrive (ep : Fin 8192) : Statement (.cbCreditArrive ep) := .inl rfl
theorem cbCloseNews (ep : Fin 8192) : Statement (.cbCloseNews ep) := .inl rfl
theorem cbAbortArrive (ep : Fin 8192) : Statement (.cbAbortArrive ep) := .inl rfl
theorem ceAbort (who : Requester) (ep : Fin 8192) : Statement (.ceAbort who ep) := .inl rfl
theorem ceAbortTx (who : Requester) (ep : Fin 8192) : Statement (.ceAbortTx who ep) := .inl rfl
theorem stalledRoute (ep : Fin 8192) : Statement (.stalledRoute ep) := .inl rfl
theorem standstillEvaluation : Statement (.standstillEvaluation) := .inl rfl
theorem timerTop (e : Fin 64) (n : Fin 4) : Statement (.timerTop e n) := .inl rfl
theorem timerBottom (e : Fin 64) (n : Fin 4) : Statement (.timerBottom e n) := .inl rfl
theorem timerCompareMatch (e : Fin 64) (n : Fin 4) : Statement (.timerCompareMatch e n) := .inl rfl
theorem timerTrigger (e : Fin 64) (n : Fin 4) : Statement (.timerTrigger e n) := .inl rfl
theorem tmrCfgWrite (e : Fin 64) (n : Fin 4) (data : W32) : Statement (.tmrCfgWrite e n data) := .inl rfl
theorem clr (e : Fin 64) (n : Fin 4) : Statement (.clr e n) := .inl rfl
theorem swcap (e : Fin 64) (n : Fin 4) : Statement (.swcap e n) := .inl rfl
theorem cmpWrite (e : Fin 64) (n : Fin 4) (b : Bool) (data : W32) : Statement (.cmpWrite e n b data) := .inl rfl
theorem periodWrite (e : Fin 64) (n : Fin 4) (data : W32) : Statement (.periodWrite e n data) := .inl rfl
theorem cntWrite (e : Fin 64) (n : Fin 4) (data : W32) : Statement (.cntWrite e n data) := .inl rfl
theorem tmrCapRead (who : Requester) (e : Fin 64) (n : Fin 4) : Statement (.tmrCapRead who e n) := .inl rfl
theorem tmrOvrClear (e : Fin 64) (n : Fin 4) : Statement (.tmrOvrClear e n) := .inl rfl
theorem pinEdge (k : Fin 256) (rising : Bool) (off : Fin 64) : Statement (.pinEdge k rising off) := .inl rfl
theorem cueFire (k : Fin 256) : Statement (.cueFire k) := .inl rfl
theorem flushCue (k : Fin 256) : Statement (.flushCue k) := .inl rfl
theorem flushCap (k : Fin 256) : Statement (.flushCap k) := .inl rfl
theorem pinOvrClear (k : Fin 256) : Statement (.pinOvrClear k) := .inl rfl
theorem pbRfxWrite (b : Fin 32) (r : Fin 4) (data : W64) : Statement (.pbRfxWrite b r data) := .inl rfl
theorem seqStart (b : Fin 32) : Statement (.seqStart b) := .inl rfl
theorem seqStop (b : Fin 32) : Statement (.seqStop b) := .inl rfl
theorem programMemoryWrite (b : Fin 32) (w : BitVec 12) (data : W16) : Statement (.programMemoryWrite b w data) := .inl rfl
theorem dmWrite (b : Fin 32) (w : BitVec 9) (data : W16) : Statement (.dmWrite b w data) := .inl rfl
theorem seqMbinWrite (b : Fin 32) (be : W8) (data : W64) : Statement (.seqMbinWrite b be data) := .inl rfl
theorem streamInFetch (b : Fin 32) (ans : MemAns) : Statement (.streamInFetch b ans) := .inl rfl
theorem streamOutFlush (b : Fin 32) (ans : MemAns) : Statement (.streamOutFlush b ans) := .inl rfl
theorem kpWaitEnd (b : Fin 32) : Statement (.kpWaitEnd b) := .inl rfl
theorem seqTrap (b : Fin 32) (why : SeqTrapWhy) : Statement (.seqTrap b why) := .inl rfl
theorem kpNop (b : Fin 32) : Statement (.kpNop b) := .inl rfl
theorem kpEnd (b : Fin 32) : Statement (.kpEnd b) := .inl rfl
theorem kpTrap (b : Fin 32) (imm8 : W8) : Statement (.kpTrap b imm8) := .inl rfl
theorem kpBr (b : Fin 32) (imm8 : W8) : Statement (.kpBr b imm8) := .inl rfl
theorem kpCall (b : Fin 32) (imm8 : W8) : Statement (.kpCall b imm8) := .inl rfl
theorem kpRet (b : Fin 32) : Statement (.kpRet b) := .inl rfl
theorem kpJv (b : Fin 32) (s : Fin 8) : Statement (.kpJv b s) := .inl rfl
theorem kpCallv (b : Fin 32) (s : Fin 8) : Statement (.kpCallv b s) := .inl rfl
theorem kpBz (b : Fin 32) (imm8 : W8) : Statement (.kpBz b imm8) := .inl rfl
theorem kpBnz (b : Fin 32) (imm8 : W8) : Statement (.kpBnz b imm8) := .inl rfl
theorem kpBc (b : Fin 32) (imm8 : W8) : Statement (.kpBc b imm8) := .inl rfl
theorem kpBnc (b : Fin 32) (imm8 : W8) : Statement (.kpBnc b imm8) := .inl rfl
theorem kpBt (b : Fin 32) (imm8 : W8) : Statement (.kpBt b imm8) := .inl rfl
theorem kpBf (b : Fin 32) (imm8 : W8) : Statement (.kpBf b imm8) := .inl rfl
theorem kpDjnz (b : Fin 32) (imm8 : W8) : Statement (.kpDjnz b imm8) := .inl rfl
theorem kpMov (b : Fin 32) (d s : Fin 8) : Statement (.kpMov b d s) := .inl rfl
theorem kpAdd (b : Fin 32) (d s : Fin 8) : Statement (.kpAdd b d s) := .inl rfl
theorem kpSub (b : Fin 32) (d s : Fin 8) : Statement (.kpSub b d s) := .inl rfl
theorem kpAnd (b : Fin 32) (d s : Fin 8) : Statement (.kpAnd b d s) := .inl rfl
theorem kpOr (b : Fin 32) (d s : Fin 8) : Statement (.kpOr b d s) := .inl rfl
theorem kpXor (b : Fin 32) (d s : Fin 8) : Statement (.kpXor b d s) := .inl rfl
theorem kpNot (b : Fin 32) (d s : Fin 8) : Statement (.kpNot b d s) := .inl rfl
theorem kpCmp (b : Fin 32) (d s : Fin 8) : Statement (.kpCmp b d s) := .inl rfl
theorem kpAddi (b : Fin 32) (d : Fin 8) (imm5 : BitVec 5) : Statement (.kpAddi b d imm5) := .inl rfl
theorem kpLdi (b : Fin 32) (d : Fin 8) (imm5 : BitVec 5) : Statement (.kpLdi b d imm5) := .inl rfl
theorem kpLdb0 (b : Fin 32) (imm8 : W8) : Statement (.kpLdb0 b imm8) := .inl rfl
theorem kpLdh0 (b : Fin 32) (imm8 : W8) : Statement (.kpLdh0 b imm8) := .inl rfl
theorem kpShl (b : Fin 32) (d : Fin 8) (imm5 : BitVec 5) : Statement (.kpShl b d imm5) := .inl rfl
theorem kpShr (b : Fin 32) (d : Fin 8) (imm5 : BitVec 5) : Statement (.kpShr b d imm5) := .inl rfl
theorem kpRlt (b : Fin 32) (d : Fin 8) : Statement (.kpRlt b d) := .inl rfl
theorem kpTbv (b : Fin 32) (d : Fin 8) (imm5 : BitVec 5) : Statement (.kpTbv b d imm5) := .inl rfl
theorem kpLd (b : Fin 32) (d s : Fin 8) : Statement (.kpLd b d s) := .inl rfl
theorem kpSt (b : Fin 32) (d s : Fin 8) : Statement (.kpSt b d s) := .inl rfl
theorem kpLdlc (b : Fin 32) (imm8 : W8) : Statement (.kpLdlc b imm8) := .inl rfl
theorem kpTolc (b : Fin 32) (s : Fin 8) : Statement (.kpTolc b s) := .inl rfl
theorem kpFrlc (b : Fin 32) (d : Fin 8) : Statement (.kpFrlc b d) := .inl rfl
theorem kpPush (b : Fin 32) (s : Fin 8) : Statement (.kpPush b s) := .inl rfl
theorem kpPull (b : Fin 32) (d : Fin 8) : Statement (.kpPull b d) := .inl rfl
theorem kpEpnow (b : Fin 32) : Statement (.kpEpnow b) := .inl rfl
theorem kpEpadd (b : Fin 32) (s : Fin 8) : Statement (.kpEpadd b s) := .inl rfl
theorem kpEpaddi (b : Fin 32) (imm8 : W8) : Statement (.kpEpaddi b imm8) := .inl rfl
theorem kpCue (b : Fin 32) (j act : Fin 8) : Statement (.kpCue b j act) := .inl rfl
theorem kpCuec (b : Fin 32) (j : Fin 8) : Statement (.kpCuec b j) := .inl rfl
theorem kpCueimg (b : Fin 32) (s : Fin 8) (drive : Bool) : Statement (.kpCueimg b s drive) := .inl rfl
theorem kpMarknow (b : Fin 32) (j : Fin 8) : Statement (.kpMarknow b j) := .inl rfl
theorem kpEpcr (b : Fin 32) : Statement (.kpEpcr b) := .inl rfl
theorem kpInp (b : Fin 32) (d : Fin 8) : Statement (.kpInp b d) := .inl rfl
theorem kpTpin (b : Fin 32) (j : Fin 8) : Statement (.kpTpin b j) := .inl rfl
theorem kpCapr (b : Fin 32) (j : Fin 8) : Statement (.kpCapr b j) := .inl rfl
theorem kpCrd (b : Fin 32) (d : Fin 8) : Statement (.kpCrd b d) := .inl rfl
theorem kpCre (b : Fin 32) (d : Fin 8) : Statement (.kpCre b d) := .inl rfl
theorem kpMbr (b : Fin 32) (r : Fin 8) (k : Fin 4) : Statement (.kpMbr b r k) := .inl rfl
theorem kpMbw (b : Fin 32) (r : Fin 8) (k : Fin 4) : Statement (.kpMbw b r k) := .inl rfl
theorem kpWaitep (b : Fin 32) : Statement (.kpWaitep b) := .inl rfl
theorem kpWaitn (b : Fin 32) (imm8 : W8) : Statement (.kpWaitn b imm8) := .inl rfl
theorem kpWaitv (b : Fin 32) (s : Fin 8) : Statement (.kpWaitv b s) := .inl rfl
theorem kpWcap (b : Fin 32) (j : Fin 8) : Statement (.kpWcap b j) := .inl rfl
theorem kpWmb (b : Fin 32) (k : Fin 4) : Statement (.kpWmb b k) := .inl rfl
theorem kpWroom (b : Fin 32) (j : Fin 8) : Statement (.kpWroom b j) := .inl rfl
theorem debugHaltEffect (g : Fin 2048) : Statement (.debugHaltEffect g) := .inl rfl
theorem forcedHalt (g : Fin 2048) : Statement (.forcedHalt g) := .inl rfl
theorem addressBreakpoint (g : Fin 2048) : Statement (.addressBreakpoint g) := .inl rfl
theorem seqBreakpoint (b : Fin 32) : Statement (.seqBreakpoint b) := .inl rfl
theorem illegalOpcode (g : Fin 2048) : Statement (.illegalOpcode g) := .inr rfl
theorem vddAonUp : Statement (.vddAonUp) := .inl rfl
theorem porNAssert : Statement (.porNAssert) := .inl rfl
theorem porNRelease : Statement (.porNRelease) := .inl rfl
theorem corePwrOkFall : Statement (.corePwrOkFall) := .inl rfl
theorem corePwrOkRise : Statement (.corePwrOkRise) := .inl rfl
theorem blkRstNAssert : Statement (.blkRstNAssert) := .inl rfl
theorem blkRstNRelease : Statement (.blkRstNRelease) := .inl rfl
theorem isolate : Statement (.isolate) := .inl rfl
theorem isolateClear : Statement (.isolateClear) := .inl rfl
theorem wrapperClockLoss (id : Fin 3) : Statement (.wrapperClockLoss id) := .inl rfl
theorem dpRstNAssert (n : Fin 16) : Statement (.dpRstNAssert n) := .inl rfl
theorem dpRstNRelease (n : Fin 16) : Statement (.dpRstNRelease n) := .inl rfl
theorem tapReset : Statement (.tapReset) := .inl rfl
theorem startUp (env : BootEnv) : Statement (.startUp env) := .inl rfl
theorem mramNotReady : Statement (.mramNotReady) := .inl rfl
theorem clockCheck (env : BootEnv) : Statement (.clockCheck env) := .inl rfl
theorem engineRampDone (p : Fin 68) : Statement (.engineRampDone p) := .inl rfl
theorem engineRampTimeout (p : Fin 68) : Statement (.engineRampTimeout p) := .inl rfl
theorem engineZeroingDone (p : Fin 68) : Statement (.engineZeroingDone p) := .inl rfl
theorem engineBistDone (p : Fin 68) (pass : Bool) : Statement (.engineBistDone p pass) := .inl rfl
theorem clockPoll (meas : List (Nat × Nat)) : Statement (.clockPoll meas) := .inl rfl
theorem sensorPoll (raw : List (Nat × Int)) : Statement (.sensorPoll raw) := .inl rfl
theorem ppsPulse : Statement (.ppsPulse) := .inl rfl
theorem ppsMissing : Statement (.ppsMissing) := .inl rfl
theorem refclkLoss : Statement (.refclkLoss) := .inl rfl
theorem refclkReturn : Statement (.refclkReturn) := .inl rfl
theorem refclkGap : Statement (.refclkGap) := .inl rfl
theorem tbSample : Statement (.tbSample) := .inl rfl
theorem tbRateJournal : Statement (.tbRateJournal) := .inl rfl
theorem hostRequest (write : Bool) (addr : BitVec 24) (be : W8) (wdata : W64) (par : Bool) : Statement (.hostRequest write addr be wdata par) := .inl rfl
theorem hostResponse : Statement (.hostResponse) := .inl rfl
theorem hostTimeout : Statement (.hostTimeout) := .inl rfl
theorem mpRequest (m : Fin 8) : Statement (.mpRequest m) := .inl rfl
theorem mpResponse (m : Fin 8) (tag : BitVec 11) (beats : List MpBeat) : Statement (.mpResponse m tag beats) := .inl rfl
theorem mpTimeout (m : Fin 8) (job : Nat) : Statement (.mpTimeout m job) := .inl rfl
theorem pmAllocRequest (p : Fin 8) : Statement (.pmAllocRequest p) := .inl rfl
theorem pmHandleBeat (p : Fin 8) (hnd : W32) (last empty parOk : Bool) : Statement (.pmHandleBeat p hnd last empty parOk) := .inl rfl
theorem pmFreeReturn (p : Fin 8) (ready : Bool) : Statement (.pmFreeReturn p ready) := .inl rfl
theorem boxRetryExpiry (p : Fin 8) : Statement (.boxRetryExpiry p) := .inl rfl
theorem laneRxWord (lane : Fin 64) (ctl : BitVec 2) (data : W64) : Statement (.laneRxWord lane ctl data) := .inl rfl
theorem lnRxLockChange (lane : Fin 64) (level : Bool) : Statement (.lnRxLockChange lane level) := .inl rfl
theorem framerEnter (link : Fin 64) : Statement (.framerEnter link) := .inl rfl
theorem txFrameStart (link : Fin 64) (ans : PktAns) (arrived : Nat) : Statement (.txFrameStart link ans arrived) := .inl rfl
theorem laneTxWord (lane : Fin 64) : Statement (.laneTxWord lane) := .inl rfl
theorem lgEnable (g : Fin 8) : Statement (.lgEnable g) := .inl rfl
theorem lgDisable (g : Fin 8) : Statement (.lgDisable g) := .inl rfl
theorem rebond (g : Fin 8) : Statement (.rebond g) := .inl rfl
theorem rebondStart (g : Fin 8) : Statement (.rebondStart g) := .inl rfl
theorem rebondDrainExpiry (g : Fin 8) : Statement (.rebondDrainExpiry g) := .inl rfl
theorem rebondQuietExpiry (g : Fin 8) (us : Nat) : Statement (.rebondQuietExpiry g us) := .inl rfl
theorem cntclr (g : Fin 8) : Statement (.cntclr g) := .inl rfl
theorem dpTxBeat (n : Fin 16) (edges : Nat) (ready : Bool) : Statement (.dpTxBeat n edges ready) := .inl rfl
theorem dpRxBeat (n : Fin 16) (data : List W8) (sop eop : Bool) (bytes : BitVec 7) (err : Bool) (edges : Nat) : Statement (.dpRxBeat n data sop eop bytes err edges) := .inl rfl
theorem dpRxEnter (n : Fin 16) : Statement (.dpRxEnter n) := .inl rfl
theorem dpStagePacket (n : Fin 16) (entry : MemAns) (ans : PktAns) : Statement (.dpStagePacket n entry ans) := .inl rfl
theorem replaySopPresent (n : Fin 16) (edges : Nat) : Statement (.replaySopPresent n edges) := .inl rfl
theorem dpHoldRaise (n : Fin 16) (edges : Nat) : Statement (.dpHoldRaise n edges) := .inl rfl
theorem dpHoldRelease (n : Fin 16) : Statement (.dpHoldRelease n) := .inl rfl
theorem dutClkRunningChange (n : Fin 16) (level : Bool) : Statement (.dutClkRunningChange n level) := .inl rfl
theorem drainSample (n : Fin 16) (edges : Nat) : Statement (.drainSample n edges) := .inl rfl
theorem dpEnable (n : Fin 16) : Statement (.dpEnable n) := .inl rfl
theorem dpDisable (n : Fin 16) : Statement (.dpDisable n) := .inl rfl
theorem dpCntclr (n : Fin 16) : Statement (.dpCntclr n) := .inl rfl
theorem ushEnter (g : Fin 2048) (handle : W32) (len : BitVec 17) (od : Fin 256) : Statement (.ushEnter g handle len od) := .inl rfl
theorem dispatch (od : Fin 256) : Statement (.dispatch od) := .inl rfl
theorem retirement (od : Fin 256) : Statement (.retirement od) := .inl rfl
theorem domainTimeout (od : Fin 256) : Statement (.domainTimeout od) := .inl rfl
theorem forceDrop (who : Requester) (od : Fin 256) (handle : W32) : Statement (.forceDrop who od handle) := .inl rfl
theorem boxEnable : Statement (.boxEnable) := .inl rfl
theorem boxDisable : Statement (.boxDisable) := .inl rfl
theorem boxDrainDone : Statement (.boxDrainDone) := .inl rfl
theorem boxPoolWrite (p : Fin 8) (data : W64) : Statement (.boxPoolWrite p data) := .inl rfl
theorem boxAlloc (who : Requester) (p : Fin 8) : Statement (.boxAlloc who p) := .inl rfl
theorem boxFree (who : Requester) (handle : W32) : Statement (.boxFree who handle) := .inl rfl
theorem dcEnable (c : Fin 64) : Statement (.dcEnable c) := .inl rfl
theorem dcDisable (c : Fin 64) : Statement (.dcDisable c) := .inl rfl
theorem pause (c : Fin 64) : Statement (.pause c) := .inl rfl
theorem pauseClear (c : Fin 64) : Statement (.pauseClear c) := .inl rfl
theorem dmaAbort (c : Fin 64) : Statement (.dmaAbort c) := .inl rfl
theorem arm (c : Fin 64) : Statement (.arm c) := .inl rfl
theorem doorbell (c : Fin 64) : Statement (.doorbell c) := .inl rfl
theorem dmaDescriptorFetch (c : Fin 64) (ans : MemAns) : Statement (.dmaDescriptorFetch c ans) := .inl rfl
theorem dmaCompletion (c : Fin 64) (writeBack : MemAns) : Statement (.dmaCompletion c writeBack) := .inl rfl
theorem dmaError (c : Fin 64) : Statement (.dmaError c) := .inl rfl
theorem dmaPaused (c : Fin 64) : Statement (.dmaPaused c) := .inl rfl
theorem dmaAbortDone (c : Fin 64) : Statement (.dmaAbortDone c) := .inl rfl
theorem auLineFill (u : Fin 9) (line : W48) : Statement (.auLineFill u line) := .inl rfl
theorem auLineWriteback (u : Fin 9) (line : W48) : Statement (.auLineWriteback u line) := .inl rfl
theorem go : Statement (.go) := .inl rfl
theorem logUnitWrite : Statement (.logUnitWrite) := .inl rfl
theorem journalCompaction : Statement (.journalCompaction) := .inl rfl
theorem mramUnitWrite (off : Nat) (data : List W8) (good : Bool) : Statement (.mramUnitWrite off data good) := .inl rfl
theorem identify : Statement (.identify) := .inl rfl
theorem status : Statement (.status) := .inl rfl
theorem configSet : Statement (.configSet) := .inl rfl
theorem configGet : Statement (.configGet) := .inl rfl
theorem calRead : Statement (.calRead) := .inl rfl
theorem calWrite (ans : MemAns) : Statement (.calWrite ans) := .inl rfl
theorem calExport (ans : MemAns) : Statement (.calExport ans) := .inl rfl
theorem calPins (n : Nat) (cals : List BankCal) : Statement (.calPins n cals) := .inl rfl
theorem logRead (ans : MemAns) : Statement (.logRead ans) := .inl rfl
theorem journalCompact (n : Nat) : Statement (.journalCompact n) := .inl rfl
theorem fwUpdate (n : Nat) (ans : ImgAns) : Statement (.fwUpdate n ans) := .inl rfl
theorem fwActivate : Statement (.fwActivate) := .inl rfl
theorem repertoryLoad (n : Nat) (ans : ImgAns) : Statement (.repertoryLoad n ans) := .inl rfl
theorem repertorySwap (n : Nat) (ans : ImgAns) : Statement (.repertorySwap n ans) := .inl rfl
theorem engineSwing (n : Nat) : Statement (.engineSwing n) := .inl rfl
theorem engineBist (n : Nat) (pass : Bool) : Statement (.engineBist n pass) := .inl rfl
theorem checkpoint (n : Nat) (ans : MemAns) : Statement (.checkpoint n ans) := .inl rfl
theorem restore (n : Nat) (ans : MemAns) : Statement (.restore n ans) := .inl rfl
theorem replayArm (tbl : Option ReplayTable) : Statement (.replayArm tbl) := .inl rfl
theorem suspend : Statement (.suspend) := .inl rfl
theorem resume : Statement (.resume) := .inl rfl
theorem cancel : Statement (.cancel) := .inl rfl
theorem opStatus : Statement (.opStatus) := .inl rfl
theorem suspendPoint (slot : Fin 8) : Statement (.suspendPoint slot) := .inl rfl
theorem longOperationTimeout (slot : Fin 8) : Statement (.longOperationTimeout slot) := .inl rfl
theorem unlock : Statement (.unlock) := .inl rfl
theorem unlockDone (chal : W64) : Statement (.unlockDone chal) := .inl rfl
theorem relock : Statement (.relock) := .inl rfl
theorem debugHalt (g : Fin 2048) : Statement (.debugHalt g) := .inl rfl
theorem debugResume (g : Fin 2048) : Statement (.debugResume g) := .inl rfl
theorem debugStep (g : Fin 2048) : Statement (.debugStep g) := .inl rfl
theorem seqDebugHalt (b : Fin 32) : Statement (.seqDebugHalt b) := .inl rfl
theorem seqDebugResume (b : Fin 32) : Statement (.seqDebugResume b) := .inl rfl
theorem seqDebugStep (b : Fin 32) : Statement (.seqDebugStep b) := .inl rfl
theorem blkid : Statement (.blkid) := .inl rfl
theorem dbgacc (write : Bool) (addr : BitVec 24) (data : W64) : Statement (.dbgacc write addr data) := .inl rfl
theorem keyprog (slot : Fin 4) (digest : BitVec 384) (reserved : BitVec 6) : Statement (.keyprog slot digest reserved) := .inl rfl
theorem keyprogDone (good : Bool) : Statement (.keyprogDone good) := .inl rfl
theorem bypass : Statement (.bypass) := .inl rfl
theorem wsBypass : Statement (.wsBypass) := .inl rfl
theorem wsExtest : Statement (.wsExtest) := .inl rfl
theorem wsIntestScan : Statement (.wsIntestScan) := .inl rfl
theorem wsPreload (cells : List Nat) : Statement (.wsPreload cells) := .inl rfl
theorem registerWrite (who : Requester) (addr : BitVec 27) (be : W8) (data : W64) : Statement (.registerWrite who addr be data) := .inl rfl
theorem vddAonLoss : Statement (.vddAonLoss) := .inl rfl
theorem vddMramLoss : Statement (.vddMramLoss) := .inl rfl
theorem waitingFifoRetry (p : Fin 8) : Statement (.waitingFifoRetry p) := .inl rfl
theorem wrstnAssert : Statement (.wrstnAssert) := .inl rfl

end Sys2Proof.Laws.OneIssuer
end

