-- ==== Sys2Proof/Laws/Words.lean ====
section
/-! SUPPORT. Laws of issuing and ending a word: which thread issues, what the fetch, the end of a word and a thread fault leave
(spec/04 R119, R120, R138, R150; spec/06 R210). -/

namespace Sys2Proof.Machine

/-! ### The log -/

/-- The log's share of a state. -/
theorem logEv_eq (x : State) (c : W16) (d : List Nat) : ∃ l, logEv x c d = { x with mg := { x.mg with log := l } } := by
  unfold logEv
  split
  · exact ⟨_, rfl⟩
  · exact ⟨_, rfl⟩

/-! ### The fetch -/

/-- Only the instruction cache of engine p can differ, and the log. -/
def icOnly (s t : State) (p : Nat) : Prop :=
  t = { s with en := { s.en with ic := t.en.ic }, mg := { s.mg with log := t.mg.log } } ∧ ∀ q, q ≠ p → gIc t q = gIc s q

theorem icOnly_refl (s : State) (p : Nat) : icOnly s s p := ⟨rfl, fun _ _ => rfl⟩

theorem icOnly_mIc (s : State) (p : Nat) (f : Icache → Icache) : icOnly s (mIc s p f) p :=
  ⟨rfl, fun _ hq => gIc_mIc_ne s f hq⟩

theorem icOnly_logEv {s t : State} {p : Nat} (c : W16) (d : List Nat) (h : icOnly s t p) : icOnly s (logEv t c d) p := by
  obtain ⟨l, hl⟩ := logEv_eq t c d
  obtain ⟨h1, h2⟩ := h
  rw [hl]
  refine ⟨?_, fun q hq => h2 q hq⟩
  rw [h1]

/-- A fetch changes nothing but the instruction cache of its engine, and the log. -/
theorem fetchLine_frame (s : State) (p l : Nat) : icOnly s (fetchLine s p l) p := by
  unfold fetchLine
  dsimp only
  split
  · exact icOnly_mIc s p _
  · split
    · split
      · exact icOnly_logEv _ _ (icOnly_mIc s p _)
      · exact icOnly_mIc s p _
    · exact icOnly_refl s p

theorem fetchTouch_frame (s : State) (k : Nat) : icOnly s (fetchTouch s k) (k / 32) := by
  unfold fetchTouch
  split
  · exact icOnly_refl s _
  · exact fetchLine_frame s _ _

@[simp] theorem gThr_fetchTouch (s : State) (k j : Nat) : gThr (fetchTouch s k) j = gThr s j := by
  rw [(fetchTouch_frame s k).1]
  rfl

@[simp] theorem gEng_fetchTouch (s : State) (k j : Nat) : gEng (fetchTouch s k) j = gEng s j := by
  rw [(fetchTouch_frame s k).1]
  rfl

/-- Granting the slot and fetching commute. -/
theorem logEv_mEng (s : State) (p : Nat) (f : Eng → Eng) (c : W16) (d : List Nat) :
    logEv (mEng s p f) c d = mEng (logEv s c d) p f := by
  unfold logEv
  rw [mEng_mg]
  split <;> rfl

theorem mIc_mEng (s : State) (p q : Nat) (f : Eng → Eng) (h : Icache → Icache) :
    mIc (mEng s p f) q h = mEng (mIc s q h) p f := rfl

theorem fetchLine_mEng (s : State) (p q l : Nat) (f : Eng → Eng) :
    fetchLine (mEng s p f) q l = mEng (fetchLine s q l) p f := by
  have h : gIc (mEng s p f) q = gIc s q := rfl
  unfold fetchLine
  dsimp only
  rw [h]
  split
  · rfl
  · split
    · split
      · rw [mIc_mEng, logEv_mEng]
      · rfl
    · rfl

theorem fetchTouch_mEng (s : State) (p k : Nat) (f : Eng → Eng) :
    fetchTouch (mEng s p f) k = mEng (fetchTouch s k) p f := by
  have h : gThr (mEng s p f) k = gThr s k := rfl
  unfold fetchTouch
  rw [h]
  split
  · rfl
  · exact fetchLine_mEng s p _ _ f

/-! ### Which thread issues -/

/-- What a ready thread is like (R120). -/
theorem ready_thread {s : State} {k : Nat} (h : ready s k = true) :
    (gThr s k).st = .run ∧ (gThr s k).held = none ∧ (gThr s k).park = none ∧ (gThr s k).entering = none ∧
      (gThr s k).readyAt ≤ s.ec ∧ (gEng s (k / 32)).prev ≠ some (k % 32) := by
  simp only [ready, wakeful, Bool.and_eq_true, decide_eq_true_eq, Option.isNone_iff_eq_none] at h
  obtain ⟨⟨⟨⟨⟨⟨⟨⟨h1, h2⟩, h3⟩, h4⟩, h5⟩, h6⟩, -⟩, -⟩, -⟩ := h
  exact ⟨h1, h2, h3, h4, h5, h6⟩

/-- The issuer of an engine has a free slot before it, and is ready (R119). -/
theorem issuer_ready {s : State} {p t : Nat} (h : issuer s p = some t) :
    (gEng s p).slot = none ∧ ready s (p * 32 + t) = true := by
  unfold issuer at h
  split at h
  · cases h
  · next hs =>
    refine ⟨by simpa using hs, ?_⟩
    split at h
    · next u hu =>
      cases h
      unfold owner at hu
      split at hu
      · split at hu
        · next hr => cases hu; exact hr
        · cases hu
      · cases hu
    · next hu =>
      have := List.find?_some h
      simp only [Bool.and_eq_true] at this
      exact this.2

/-- What a thread that can issue is like. -/
theorem canIssue_thread {s : State} {g : Nat} (h : canIssue s g = true) :
    (gThr s (thrKey s g)).st = .run ∧ (gThr s (thrKey s g)).held = none ∧ (gThr s (thrKey s g)).park = none ∧
      (gThr s (thrKey s g)).owe = 0 ∧ (gThr s (thrKey s g)).long = none ∧ (gThr s (thrKey s g)).entering = none := by
  simp only [canIssue, fetches, Bool.and_eq_true, decide_eq_true_eq, Bool.not_eq_true', owes, Bool.or_eq_false_iff,
    decide_eq_false_iff_not, Decidable.not_not, Option.isSome_eq_false_iff, Option.isNone_iff_eq_none] at h
  obtain ⟨⟨⟨-, h2⟩, ⟨h3, h4⟩, -⟩, -⟩ := h
  have hk : thrKey s g / 32 * 32 + thrKey s g % 32 = thrKey s g := by omega
  have hr := ready_thread (hk ▸ (issuer_ready h2).2)
  exact ⟨hr.1, hr.2.1, hr.2.2.1, h3, h4, hr.2.2.2.1⟩

/-! ### Issue -/

/-- A word at the PC whose thread can issue has its effect after the fetch. -/
theorem keIssue_can {s : State} {i : Instr} {g : Fin 2048} {f : State → State} (h : canIssue s g.val = true)
    (hn : nextInstr s g = some i) : keIssue i g f s = .next (f (issued s (thrKey s g.val))) := by simp [keIssue, h, hn]

/-- A word whose thread cannot issue has none. -/
theorem keIssue_cannot {s : State} {i : Instr} {g : Fin 2048} {f : State → State} (h : canIssue s g.val = false) :
    keIssue i g f s = .next s := by simp [keIssue, h]

/-- Nor has a command that is not the word at the PC. -/
theorem keIssue_other {s : State} {i : Instr} {g : Fin 2048} {f : State → State} (h : nextInstr s g ≠ some i) :
    keIssue i g f s = .next s := by simp [keIssue, h]

@[simp] theorem gThr_issued (s : State) (k : Nat) : gThr (issued s k) k = { gThr s k with ownFirst := false } := by
  unfold issued
  rw [gThr_mThr_same, gThr_fetchTouch]
  rfl

/-- Issuing a word changes its thread and what `slotFrame` says. -/
theorem thrFrame_issued (s : State) (k : Nat) : thrFrame s (issued s k) k := by
  obtain ⟨h1, h2⟩ := fetchTouch_frame s k
  have hi : issued s k = mThr (mEng (fetchTouch s k) (k / 32) fun e => { e with
      slot := some (k % 32), rr := if (owner s (k / 32)).isSome then e.rr else k % 32 }) k fun t => { t with
        ownFirst := false } := by
    simp only [issued, takeSlot, fetchTouch_mEng]
  unfold thrFrame slotFrame
  rw [hi]
  generalize fetchTouch s k = x at h1 h2
  generalize x.en.ic = c, x.mg.log = l at h1
  subst h1
  refine ⟨rfl, fun j hj => gThr_mThr_ne _ _ hj, fun q => ?_, rfl, fun q hq => h2 q hq⟩
  refine (gEng_mEng s (k / 32) q fun e => { e with
    slot := some (k % 32), rr := if (owner s (k / 32)).isSome then e.rr else k % 32 }).trans ?_
  by_cases hq : q = k / 32
  · subst hq; rfl
  · rw [if_neg hq, if_neg hq]

/-- A further change of the thread keeps the frame of its word. -/
theorem thrFrame_mThr {s x : State} {k : Nat} (f : Thread → Thread) (h : thrFrame s x k) : thrFrame s (mThr x k f) k := by
  obtain ⟨h1, h2, h3⟩ := h
  refine ⟨?_, fun j hj => (gThr_mThr_ne x f hj).trans (h2 j hj), h3⟩
  generalize x.en.thr = a, x.en.eng = b, x.en.ic = c, x.mg.log = l at h1
  subst h1
  rfl

/-! ### The end of a word -/

/-- A word that ends leaves its thread as `wordCost` says. -/
theorem ended_cost {t : Thread} (loads : List LReg) (r : Regs) (cost : Nat) (pc : W48) (hr : t.st = .run)
    (hh : t.held = none) (hl : t.long = none) :
    let t' := endStep (ended { t with ownFirst := false } loads r cost pc)
    t' = { t with
      r := { r with pc := pc }, owe := cost - 1, loaded := t'.loaded, succ := none, ownFirst := false, dbg := t'.dbg
      st := t'.st, waitK := t'.waitK } ∧
      (t.dbg.stepping = false → t'.st = .run ∧ t'.dbg = { t.dbg with bpPass := false }) := by
  simp only [endStep, ended, hr]
  split <;> simp_all

theorem keCtl_ok {s : State} {i : Instr} {g : Fin 2048} {f : Thread → Except W8 (Regs × Nat × W48)} {r : Regs} {cost : Nat}
    {pc : W48} (h : canIssue s g.val = true) (hn : nextInstr s g = some i)
    (hf : f { gThr s (thrKey s g.val) with ownFirst := false } = .ok (r, cost, pc)) :
    ∃ t, keCtl i g f s = .next t ∧ thrFrame s t (thrKey s g.val) ∧
      wordCost s t (thrKey s g.val) { r with pc := pc } cost := by
  obtain ⟨hr, hh, -, -, hl, -⟩ := canIssue_thread h
  refine ⟨_, by rw [keCtl, keIssue_can h hn], ?_, ?_⟩
  · simp only [gThr_issued, hf]
    exact thrFrame_mThr _ (thrFrame_issued s _)
  · simp only [gThr_issued, hf, wordCost, gThr_mThr_same]
    exact ended_cost [] r cost pc hr hh hl

/-- A word on registers completes with its writes, and the next word follows. -/
theorem keReg_ok {s : State} {i : Instr} {g : Fin 2048} {loads : List LReg} {cost : Nat} {f : Regs → KRes} {ws : List RWr}
    (h : canIssue s g.val = true) (hn : nextInstr s g = some i) (hf : f (regsOf s g) = .ok ws) :
    ∃ t, keReg i g loads cost f s = .next t ∧ thrFrame s t (thrKey s g.val) ∧
      wordCost s t (thrKey s g.val) { applyWrs (regsOf s g) ws with pc := (regsOf s g).pc + 4 } cost := by
  obtain ⟨hr, hh, -, -, hl, -⟩ := canIssue_thread h
  have hf' : f (gThr s (thrKey s g.val)).r = .ok ws := hf
  refine ⟨_, by rw [keReg, keIssue_can h hn], ?_, ?_⟩
  · simp only [gThr_issued, hf', retire]
    exact thrFrame_mThr _ (thrFrame_issued s _)
  · simp only [gThr_issued, hf', retire, wordCost, gThr_mThr_same]
    exact ended_cost loads _ cost _ hr hh hl

/-! ### Thread faults -/

theorem abandon_idle {s : State} {k : Nat} (hh : (gThr s k).held = none) : abandon s k = mThr s k idleThr := by
  simp [abandon, hh]

/-- The report of a fault changes its thread, the fault map, the log and the stage manager's report. -/
theorem faultReport_eq (s : State) (k : Nat) (code : W8) (pc : W48) : ∃ l m,
    faultReport s k code pc = { (mEng (mThr s k (faultThr code pc)) (k / 32)
        fun e => { e with fltmap := setBit e.fltmap (k % 32) }) with mg := { s.mg with log := l, sm := m } } := by
  unfold faultReport
  split
  · obtain ⟨l, h⟩ := logEv_eq (mSm (mEng (mThr s k (faultThr code pc)) (k / 32)
        fun e => { e with fltmap := setBit e.fltmap (k % 32) }) fun m => { m with engRpt := true }) 0x6002
        [gOf s k / 32, code.toNat, pc.toNat]
    exact ⟨l, _, h⟩
  · obtain ⟨l, h⟩ := logEv_eq (mEng (mThr s k (faultThr code pc)) (k / 32)
        fun e => { e with fltmap := setBit e.fltmap (k % 32) }) 0x6001 [gOf s k, code.toNat, pc.toNat]
    exact ⟨l, _, h⟩

/-- What a fault leaves, in a thread that holds no access. -/
theorem takeFault_idle {x : State} {k : Nat} (code : W8) (pc : W48) (hh : (gThr x k).held = none) :
    ∃ l m, takeFault x k code pc = { (mEng (mThr (mThr x k idleThr) k (faultThr code pc)) (k / 32)
        fun e => { e with fltmap := setBit e.fltmap (k % 32) }) with mg := { x.mg with log := l, sm := m } } := by
  unfold takeFault
  rw [abandon_idle hh]
  exact faultReport_eq (mThr x k idleThr) k code pc

/-- Outside the threads, the control pages and the instruction caches, only the log and the stage manager's report differ. -/
def trapFrame (s t : State) : Prop :=
  t = { s with
    en := { s.en with thr := t.en.thr, eng := t.en.eng, ic := t.en.ic }
    mg := { s.mg with log := t.mg.log, sm := t.mg.sm } }

theorem trapFrame_mThr {s x : State} (k : Nat) (f : Thread → Thread) (h : trapFrame s x) : trapFrame s (mThr x k f) := by
  unfold trapFrame at *
  generalize x.en.thr = a, x.en.eng = b, x.en.ic = c, x.mg.log = l, x.mg.sm = m at h
  subst h
  rfl

theorem trapFrame_mEng {s x : State} (p : Nat) (f : Eng → Eng) (h : trapFrame s x) : trapFrame s (mEng x p f) := by
  unfold trapFrame at *
  generalize x.en.thr = a, x.en.eng = b, x.en.ic = c, x.mg.log = l, x.mg.sm = m at h
  subst h
  rfl

theorem trapFrame_mg {s x : State} (y : State) (l : LogSt) (m : Sm) (hy : x.mg = y.mg) (h : trapFrame s x) :
    trapFrame s { x with mg := { y.mg with log := l, sm := m } } := by
  rw [← hy]
  unfold trapFrame at *
  generalize x.en.thr = a, x.en.eng = b, x.en.ic = c, x.mg.log = n, x.mg.sm = o at h
  subst h
  rfl

theorem trapFrame_of {s x : State} {k : Nat} (h : thrFrame s x k) : trapFrame s x := by
  obtain ⟨h, -⟩ := h
  unfold trapFrame
  generalize x.en.thr = a, x.en.eng = b, x.en.ic = c, x.mg.log = n at h
  subst h
  rfl

/-- A fault that the thread's own word takes as it issues. -/
theorem takeFault_issued {s : State} {k : Nat} (code : W8) (hh : (gThr s k).held = none) :
    trapDone s (takeFault (issued s k) k code (gThr s k).r.pc) k code := by
  have hf := thrFrame_issued s k
  have hk := gThr_issued s k
  generalize issued s k = x at hf hk
  generalize hpc : (gThr s k).r.pc = pc
  have hfr := trapFrame_of hf
  obtain ⟨-, h2, h3, -, -⟩ := hf
  obtain ⟨l, m, h⟩ := takeFault_idle (x := x) (k := k) code pc (by rw [hk]; exact hh)
  have he := h3 (k / 32)
  rw [if_pos rfl] at he
  have ht : gThr (mThr (mThr x k idleThr) k (faultThr code pc)) k =
      faultThr code pc (idleThr { gThr s k with ownFirst := false }) := by
    rw [gThr_mThr_same, gThr_mThr_same, hk]
  have hen : (takeFault x k code pc).en = (mEng (mThr (mThr x k idleThr) k (faultThr code pc)) (k / 32) fun e => { e with
      fltmap := setBit e.fltmap (k % 32) }).en := by rw [h]
  have hg : ∀ q, gEng (takeFault x k code pc) q =
      gEng (mEng x (k / 32) fun e => { e with fltmap := setBit e.fltmap (k % 32) }) q := fun q => by
    simp only [gEng, hen, mEng_en_eng, mThr_en_eng]
  have hj : ∀ j, gThr (takeFault x k code pc) j = gThr (mThr (mThr x k idleThr) k (faultThr code pc)) j := fun j => by
    simp only [gThr, hen, mEng_en_thr]
  refine ⟨?_, ?_, ?_, ?_, ?_, fun q hq => ?_, fun j hne => ?_, ?_⟩
  · rw [hj, ht]; rfl
  · rw [hj, ht]; rfl
  · rw [hj, ht, ← hpc]; rfl
  · rw [hg, gEng_mEng_same, he]
  · rw [hg, gEng_mEng_same, he]
  · rw [hg, gEng_mEng_ne _ _ hq, h3, if_neg hq]
  · rw [hj, gThr_mThr_ne _ _ hne, gThr_mThr_ne _ _ hne, h2 j hne]
  · have := trapFrame_mg (x := mEng (mThr (mThr x k idleThr) k (faultThr code pc)) (k / 32) fun e => { e with
      fltmap := setBit e.fltmap (k % 32) }) x l m (by rw [mEng_mg, mThr_mg, mThr_mg]) (trapFrame_mEng (k / 32) (fun e => { e with fltmap := setBit e.fltmap (k % 32) })
      (trapFrame_mThr k (faultThr code pc) (trapFrame_mThr k idleThr hfr)))
    rw [← h] at this
    exact this

/-- The fault of a word whose thread could issue it. -/
theorem keIssue_trap {s : State} {i : Instr} {g : Fin 2048} {f : State → State} {code : W8} (h : canIssue s g.val = true)
    (hn : nextInstr s g = some i) (hf : f (issued s (thrKey s g.val)) =
      takeFault (issued s (thrKey s g.val)) (thrKey s g.val) code (regsOf s g).pc) :
    ∃ t, keIssue i g f s = .next t ∧ trapDone s t (thrKey s g.val) code := by
  obtain ⟨-, hh, -⟩ := canIssue_thread h
  refine ⟨_, keIssue_can h hn, ?_⟩
  rw [hf]
  exact takeFault_issued code hh

theorem keReg_error {s : State} {i : Instr} {g : Fin 2048} {loads : List LReg} {cost : Nat} {f : Regs → KRes} {c : W8}
    (h : canIssue s g.val = true) (hn : nextInstr s g = some i) (hf : f (regsOf s g) = .error c) :
    ∃ t, keReg i g loads cost f s = .next t ∧ trapDone s t (thrKey s g.val) c := by
  have hf' : f (gThr s (thrKey s g.val)).r = .error c := hf
  unfold keReg
  apply keIssue_trap h hn
  simp only [gThr_issued, hf']
  rfl

theorem keCtl_error {s : State} {i : Instr} {g : Fin 2048} {f : Thread → Except W8 (Regs × Nat × W48)} {c : W8}
    (h : canIssue s g.val = true) (hn : nextInstr s g = some i)
    (hf : f { gThr s (thrKey s g.val) with ownFirst := false } = .error c) :
    ∃ t, keCtl i g f s = .next t ∧ trapDone s t (thrKey s g.val) c := by
  unfold keCtl
  apply keIssue_trap h hn
  simp only [gThr_issued, hf]
  rfl

end Sys2Proof.Machine
end

