-- ==== Sys2Proof/Tests/Slice0.lean ====
section
/-! SUPPORT. Tests: ill-formed terms that WellFormed refuses, and for every statement with hypotheses states and operands that
meet them, with what the command does there. Expected values are worked out by hand from the rules named. -/

namespace Sys2Proof.Tests

open Sys2Proof Sys2Proof.Machine

set_option exponentiation.threshold 1024
set_option maxRecDepth 4096

/-! ### Small states -/

/-- READY, logical engine 0 on physical engine 0, its T0 running. -/
def base : State :=
  { aon := { corePwrOk := true, porN := true, porDue := false, reason := 0, power := .ready }
    blk := { ready := true, portsOn := true }
    tb := { running := true, now := 1000 }
    en := { pe := [(0, { st := .on })], emap := [(0, 0)], thr := [(0, { st := .run })] }
    mg := { sm := { alive := true } } }

/-- The base state with this T0 of engine 0. -/
def withT (t : Thread) : State := { base with en := { base.en with thr := [(0, t)] } }

/-- T0 of engine 0 runs with these registers. -/
def regs (r : Regs) : State := withT { st := .run, r := r }

/-- The sequencer of bank 0 runs as this one. -/
def seq (x : Sq) : State := { base with bank := [(0, { sq := { x with st := .run } })] }

def withBank (b : Bank) : State := { base with bank := [(0, b)] }

def withPin (p : Pin) : State := { base with pin := [(0, p)] }

/-- exec answers a next state, and p holds of it. -/
def out (c : Instr) (s : State) (p : State → Bool) : Bool :=
  match exec c s with
  | .next t => p t
  | _ => false

/-- The word w, worked out from the encodings of R171–R199 or R288 and R289, stands at the PC of the thread or the sequencer whose
word the command is. -/
def put (w : Nat) (c : Instr) (s : State) : State :=
  match keOf c, kpOf c with
  | some g, _ => mThr s (thrKey s g.val) fun t => { t with succ := some (BitVec.ofNat 32 w) }
  | none, some b => mSq s b.val fun x => { x with pm := tset 0 x.pm x.pc.toNat (BitVec.ofNat 14 w) }
  | none, none => s

/-- The thread or the sequencer issues in the present ec, and the word at its PC is `c`. -/
def issues (c : Instr) (s : State) : Bool :=
  match keOf c, kpOf c with
  | some g, _ => canIssue s g.val && decide (nextInstr s g = some c)
  | none, some b => sqIssues s b.val && decide (kpDecode b (kpWord (gSq s b.val)) = c)
  | none, none => false

/-- The word w is `c`, it issues, and p holds of what it leaves. -/
def outW (w : Nat) (c : Instr) (s : State) (p : State → Bool) : Bool := issues c (put w c s) && out c (put w c s) p

/-- The word of thread 0 completes, and p holds of its registers. -/
def word (w : Nat) (c : Instr) (r : Regs) (p : Regs → Bool) : Bool := outW w c (regs r) fun t => p (regsOf t 0)

/-- Thread 0 issues the word, and it takes this fault. -/
def trap (w : Nat) (c : Instr) (s : State) (code : W8) : Bool :=
  outW w c s fun t => decide ((gThr t 0).st = .faulted ∧ (gThr t 0).fcode = code ∧ (gThr t 0).r = (gThr s 0).r)

/-- Thread 0 issues the word, which holds it, and its registers stand. -/
def holds (w : Nat) (c : Instr) (s : State) : Bool :=
  outW w c s fun t => decide ((gThr t 0).held.isSome = true ∧ (gThr t 0).r = (gThr s 0).r)

/-- The command changes nothing. -/
def still (c : Instr) (s : State) : Bool := out c s fun t => decide (t = s)

/-! ### WellFormed refuses (R136, R158, R171, R175–R197, R277, R285) -/

theorem test_illformed_words :
    ([.ldd 0 1 0 0 0, .std 0 3 0 0 0, .lda 0 8 0 0 0, .sta 0 9 0 0 0, .ldb 0 0 0 3 16, .ldbu 0 0 0 3 16, .ldh 0 0 0 3 16,
      .ldhu 0 0 0 3 16, .ldw 0 0 0 3 16, .stb 0 0 0 3 16, .sth 0 0 0 3 16, .stw 0 0 0 3 16, .sti 0 0 0 3 16,
      .shi 0 0 0 0x20, .tsti 0 4 0 0, .tsti 0 3 0 32, .amovi 0 0 3 0, .mts 0 24 0, .mfs 0 0 0x15, .mfac 0 0 0 3,
      .mfacs 0 0 0 64, .mtac 0 0 0 4, .acshr 0 0 64, .acshl 0 0 64, .clred 0 0 0 16, .br 0 15 0, .waite 0 0, .ldtb 0 1,
      .cue 0 1 0 0, .cue 0 0 0 8, .caprd 0 1 0 2, .caprd 0 2 0 3, .tmrRead 0 0 0 10, .tmrWrite 0 0 0 10, .chr 0 0 1 false,
      .take 0 1 false, .casd 0 0 1 0, .casd 0 0 0 1, .acq 0 0 1 0] : List Instr).all (fun i => !WellFormed i) = true := by
  decide

theorem test_illformed_others :
    ([.pair 0 (.sshli 0 32) .snop, .pair 0 .snop (.sshri 0 33), .pair 0 (.ssari 0 64) .snop, .kpShl 0 0 16, .kpShr 0 0 16,
      .kpTbv 0 0 16, .mpResponse 0 0 [], .mpResponse 0 0 [{ status := 0, parOk := true, data := [] }],
      .dpRxBeat 0 [] true true 0 false 0, .wsPreload [53117], .mramUnitWrite 1 (List.replicate 64 0) true,
      .mramUnitWrite 0 [] true] : List Instr).all (fun i => !WellFormed i) = true := by
  decide

theorem test_wellformed :
    ([.ldd 0 2 0 3 15, .shi 0 0 0 0x1F, .tsti 0 3 0 31, .mts 0 16 7, .caprd 0 2 0 4, .pair 0 (.sshli 0 31) .snop, .kpShl 0 0 15,
      .mramUnitWrite 64 (List.replicate 64 0) true] : List Instr).all (fun i => WellFormed i) = true := by
  decide

/-! ### Words on registers (spec/05) -/

def rr : Regs := { d := [(2, 0xFFFFFFFF), (3, 1), (4, 0x80000000), (5, 0x12345678)], fl := { c := true } }

/-- Test: ArithmeticLogicWords. R173, R174. -/
theorem test_arithmetic :
    word 0x02246000 (.add 0 1 2 3) rr (fun r => decide (rD r 1 = 0 ∧ r.fl = { z := true, c := true } ∧ r.pc = 4)) ∧
    word 0x02266100 (.addc 0 1 3 3) rr (fun r => decide (rD r 1 = 3 ∧ r.fl = {})) ∧
    word 0x02286200 (.sub 0 1 4 3) rr (fun r => decide (rD r 1 = 0x7FFFFFFF ∧ r.fl = { v := true })) ∧
    word 0x02266300 (.subc 0 1 3 3) rr (fun r => decide (rD r 1 = 0xFFFFFFFF ∧ r.fl = { n := true, c := true })) ∧
    word 0x02064F00 (.cmp 0 3 2) rr (fun r => decide (r.d = rr.d ∧ r.fl = { c := true })) ∧
    word 0x0427FFFF (.addi 0 1 3 0x1FFFF) rr (fun r => decide (rD r 1 = 0 ∧ r.fl = { z := true, c := true })) ∧
    word 0x0E060001 (.cmpi 0 3 1) rr (fun r => decide (r.d = rr.d ∧ r.fl = { z := true })) := by
  decide

theorem test_logic :
    word 0x0224A700 (.andn 0 1 2 5) rr (fun r => decide (rD r 1 = 0xEDCBA987 ∧ r.fl = { n := true })) ∧
    word 0x02244D00 (.mulhs 0 1 2 2) rr (fun r => decide (rD r 1 = 0 ∧ r.fl.z = true)) ∧
    word 0x02244E00 (.mulhu 0 1 2 2) rr (fun r => decide (rD r 1 = 0xFFFFFFFE)) ∧
    word 0x0224AC00 (.mul 0 1 2 5) rr (fun r => decide (rD r 1 = 0xEDCBA988)) ∧
    word 0x0A250000 (.xori 0 1 2 0x10000) rr (fun r => decide (rD r 1 = 0x0000FFFF ∧ r.fl = {})) ∧
    word 0x062A00FF (.andi 0 1 5 0xFF) rr (fun r => decide (rD r 1 = 0x78)) ∧
    word 0x0827FFFE (.ori 0 1 3 0x1FFFE) rr (fun r => decide (rD r 1 = 0xFFFFFFFF)) := by
  decide

/-- Test: CountShiftWords. -/
theorem test_count :
    word 0x02247000 (.min 0 1 2 3) rr (fun r => decide (rD r 1 = 0xFFFFFFFF)) ∧ word 0x02247200 (.minu 0 1 2 3) rr (fun r => decide (rD r 1 = 1)) ∧
    word 0x02287100 (.max 0 1 4 3) rr (fun r => decide (rD r 1 = 1)) ∧ word 0x02287300 (.maxu 0 1 4 3) rr (fun r => decide (rD r 1 = 0x80000000)) ∧
    word 0x02201400 (.clz 0 1 0) rr (fun r => decide (rD r 1 = 32)) ∧ word 0x022A1400 (.clz 0 1 5) rr (fun r => decide (rD r 1 = 3)) ∧
    word 0x022A1500 (.popc 0 1 5) rr (fun r => decide (rD r 1 = 13)) ∧ word 0x02261600 (.brev 0 1 3) rr (fun r => decide (rD r 1 = 0x80000000)) ∧
    word 0x022A1700 (.bswap 0 1 5) rr (fun r => decide (rD r 1 = 0x78563412)) ∧
    word 0x022A1800 (.sextb 0 1 5) rr (fun r => decide (rD r 1 = 0x78)) ∧ word 0x02241900 (.sexth 0 1 2) rr (fun r => decide (rD r 1 = 0xFFFFFFFF)) := by
  decide

theorem test_shift :
    word 0x022A0800 (.shl 0 1 5 0) rr (fun r => decide (rD r 1 = 0x12345678 ∧ r.fl = {})) ∧
    word 0x02286800 (.shl 0 1 4 3) rr (fun r => decide (rD r 1 = 0 ∧ r.fl = { z := true, c := true })) ∧
    word 0x022A4900 (.shr 0 1 5 2) rr (fun r => decide (rD r 1 = 0)) ∧
    word 0x02284A00 (.sar 0 1 4 2) rr (fun r => decide (rD r 1 = 0xFFFFFFFF ∧ r.fl = { n := true })) ∧
    word 0x02266B00 (.ror 0 1 3 3) rr (fun r => decide (rD r 1 = 0x80000000 ∧ r.fl = { n := true, c := true })) ∧
    trap 0x0C240020 (.shi 0 1 2 0x20) (regs rr) 0x01 ∧ word 0x0C2A0004 (.shi 0 1 5 0x00004) rr (fun r => decide (rD r 1 = 0x23456780 ∧ r.fl.c = true)) ∧
    word 0x0C2A8004 (.shi 0 1 5 0x08004) rr (fun r => decide (rD r 1 = 0x01234567)) ∧
    word 0x0C29001F (.shi 0 1 4 0x1001F) rr (fun r => decide (rD r 1 = 0xFFFFFFFF)) ∧
    word 0x0C2B8008 (.shi 0 1 5 0x18008) rr (fun r => decide (rD r 1 = 0x78123456)) := by
  decide

/-- Test: TestMoveWords. -/
theorem test_test_move :
    word 0x02247A00 (.selt 0 1 2 3) rr (fun r => decide (rD r 1 = 1)) ∧ word 0x02045B00 (.teq 0 2 2) rr (fun r => r.fl.t) ∧
    word 0x02047C00 (.tlt 0 2 3) rr (fun r => r.fl.t) ∧ word 0x02047D00 (.tltu 0 2 3) rr (fun r => !r.fl.t) ∧ word 0x02085E00 (.tbit 0 4 2) rr (fun r => r.fl.t) ∧
    word 0x1005FFFF (.tsti 0 0 2 0x1FFFF) rr (fun r => r.fl.t) ∧ word 0x10240000 (.tsti 0 1 2 0) rr (fun r => r.fl.t) ∧
    word 0x10440000 (.tsti 0 2 2 0) rr (fun r => !r.fl.t) ∧ word 0x1068001F (.tsti 0 3 4 31) rr (fun r => r.fl.t) ∧ trap 0x10680020 (.tsti 0 3 4 32) (regs rr) 0x01 ∧
    trap 0x10880000 (.tsti 0 4 4 0) (regs rr) 0x01 ∧ word 0x12208000 (.movi 0 1 false 0x8000) rr (fun r => decide (rD r 1 = 0xFFFF8000)) ∧
    word 0x12B0ABCD (.movi 0 5 true 0xABCD) rr (fun r => decide (rD r 5 = 0xABCD5678)) ∧ word 0x70500000 (.tset 0) rr (fun r => r.fl.t && r.fl.c) ∧
    word 0x70600000 (.tclr 0) { rr with fl := { t := true } } (fun r => !r.fl.t) ∧ word 0x70000000 (.nop 0) rr (fun r => decide (r = { rr with pc := 4 })) := by
  decide

/-- Test: DivideWords. R176. -/
theorem test_divide :
    let word (w : Nat) (c : Instr) (r : Regs) (p : Regs → Bool) : Bool := outW w c (regs r) fun t =>
      match (gThr t 0).long with
      | some l => decide (l.left = 17 ∧ regsOf t 0 = r) && p (applyWrs r l.writes)
      | none => false
    word 0x4A2A0000 (.div 0 1 5 0) rr (fun r => decide (rD r 1 = 0xFFFFFFFF ∧ r.fl = { n := true, v := true })) ∧
    word 0x4A2A0300 (.remu 0 1 5 0) rr (fun r => decide (rD r 1 = 0x12345678 ∧ r.fl.v = true)) ∧
    word 0x4A284000 (.div 0 1 4 2) rr (fun r => decide (rD r 1 = 0x80000000 ∧ r.fl.v = true)) ∧
    word 0x4A284200 (.rems 0 1 4 2) rr (fun r => decide (rD r 1 = 0 ∧ r.fl.v = true)) ∧
    word 0x4A284100 (.divu 0 1 4 2) rr (fun r => decide (rD r 1 = 0 ∧ r.fl = { z := true })) ∧
    word 0x4A246000 (.div 0 1 2 3) rr (fun r => decide (rD r 1 = 0xFFFFFFFF ∧ r.fl = { n := true })) ∧
    word 0x4A2CE200 (.rems 0 1 6 7) { rr with d := [(6, 0xFFFFFFF9), (7, 2)] } (fun r => decide (rD r 1 = 0xFFFFFFFF)) ∧
    word 0x4A2CE000 (.div 0 1 6 7) { rr with d := [(6, 0xFFFFFFF9), (7, 2)] } (fun r => decide (rD r 1 = 0xFFFFFFFD)) := by
  decide

def ra : Regs := { d := [(1, 0xFFFFFFFF), (2, 0x12345678)], a := [(1, 0x0060AABBCCDD), (2, 0x10)] }

/-- Test: AddressWords. R177. -/
theorem test_address :
    word 0x14D7FFFF (.aaddi 0 3 2 0x7FFFF) ra (fun r => decide (rA r 3 = 0xF)) ∧ word 0x16D08000 (.aadd 0 3 2 1) ra (fun r => decide (rA r 3 = 0xF)) ∧
    word 0x16D08800 (.asub 0 3 2 1) ra (fun r => decide (rA r 3 = 0x11)) ∧ word 0x16C81000 (.amov 0 3 1) ra (fun r => decide (rA r 3 = 0x0060AABBCCDD)) ∧
    word 0x16C91800 (.alo 0 3 1 2) ra (fun r => decide (rA r 3 = 0x006012345678)) ∧
    word 0x16C92000 (.ahi 0 3 1 2) ra (fun r => decide (rA r 3 = 0x5678AABBCCDD)) ∧
    word 0x1609A800 (.atod 0 1 3) ra (fun r => decide (rD r 3 = 0xAABBCCDD)) ∧ word 0x1609B000 (.atodh 0 1 3) ra (fun r => decide (rD r 3 = 0x60)) ∧
    word 0x16483800 (.taeq 0 1 1) ra (fun r => r.fl.t) ∧ word 0x16884000 (.taltu 0 2 1) ra (fun r => r.fl.t) ∧
    word 0x18400007 (.amovi 0 1 0 7) ra (fun r => decide (rA r 1 = 7)) ∧ word 0x18500007 (.amovi 0 1 1 7) ra (fun r => decide (rA r 1 = 0x00600007CCDD)) ∧
    word 0x18600007 (.amovi 0 1 2 7) ra (fun r => decide (rA r 1 = 0x0007AABBCCDD)) ∧ trap 0x18700007 (.amovi 0 1 3 7) (regs ra) 0x01 := by
  decide

/-- Test: SpecialRegisterWords. R157, R158, R191. -/
theorem test_special :
    trap 0x1B808000 (.mts 0 24 8) (regs ra) 0x01 ∧ trap 0x1C015000 (.mfs 0 0 0x15) (regs ra) 0x01 ∧ trap 0x1A000000 (.mts 0 0 0) (regs ra) 0x01 ∧
    trap 0x1A013000 (.mts 0 0 0x13) (regs ra) 0x07 ∧ trap 0x1A114000 (.mts 0 1 0x14) (regs ra) 0x07 ∧
    word 0x1B107000 (.mts 0 17 7) ra (fun r => decide (rMb r 7 = 0x0060AABBCCDD)) ∧ word 0x1D200000 (.mfs 0 18 0) ra (fun r => decide (rA r 2 = 0)) ∧
    word 0x1A10F000 (.mts 0 1 15) ra (fun r => decide (rMl r 7 = 0xFFFFFF)) ∧ word 0x1C108000 (.mfs 0 1 8) ra (fun r => decide (rD r 1 = 0)) ∧
    word 0x1A210000 (.mts 0 2 0x10) ra (fun r => decide (r.wake = 0x12345678)) ∧ word 0x1A211000 (.mts 0 2 0x11) ra (fun r => decide (r.wake = 0x1234567800000000)) ∧
    word 0x1A112000 (.mts 0 1 0x12) ra (fun r => decide (r.fl = { z := true, n := true, c := true, v := true, t := true })) ∧
    word 0x1C312000 (.mfs 0 3 0x12) rr (fun r => decide (rD r 3 = 4)) ∧ word 0x1C313000 (.mfs 0 3 0x13) { ra with rsd := 8 } (fun r => decide (rD r 3 = 8)) ∧
    word 0x1C114000 (.mfs 0 1 0x14) ra (fun r => decide (rD r 1 = 0)) ∧ trap 0x62200000 (.ldtb 0 1) (regs ra) 0x01 ∧
    word 0x63C00000 (.ldtb 0 14) ra (fun r => decide (rD r 14 = 1000 ∧ rD r 15 = 0)) := by
  decide

def rac : Regs := { d := [(1, 0xFFFFFFFF), (2, 2)], ac := [(0, 0x00010000000200000003), (1, 1)] }

/-- Test: AccumulatorWords. R155, R182–R184. -/
theorem test_accumulator :
    word 0x44025800 (.mac 0 0 1 2 3 false) rac (fun r => decide (rAc r 0 = 0x00010000000200000001)) ∧
    word 0x45024400 (.mac 0 1 1 2 0 true) rac (fun r => decide (rAc r 1 = BitVec.ofInt 80 (1 - 2 * 0xFFFFFFFF))) ∧
    word 0x46000000 (.clrac 0 0) rac (fun r => decide (rAc r 0 = 0)) ∧ word 0x46130002 (.mfac 0 0 3 2) rac (fun r => decide (rD r 3 = 1)) ∧
    trap 0x46130003 (.mfac 0 0 3 3) (regs rac) 0x01 ∧
    word 0x4623003F (.mfacs 0 0 3 63) rac (fun r => decide (rD r 3 = 2 ∧ r.fl.v = false)) ∧
    word 0x46230000 (.mfacs 0 0 3 0) rac (fun r => decide (rD r 3 = 0x7FFFFFFF ∧ r.fl.v = true)) ∧ trap 0x46230040 (.mfacs 0 0 3 64) (regs rac) 0x01 ∧
    word 0x46310000 (.mtac 0 0 1 0) rac (fun r => decide (rAc r 0 = 0x000100000002FFFFFFFF)) ∧
    word 0x46310001 (.mtac 0 0 1 1) rac (fun r => decide (rAc r 0 = 0x0001FFFFFFFF00000003)) ∧
    word 0x46310002 (.mtac 0 0 1 2) rac (fun r => decide (rAc r 0 = 0xFFFF0000000200000003)) ∧
    word 0x46310003 (.mtac 0 0 1 3) rac (fun r => decide (rAc r 0 = 0xFFFFFFFFFFFFFFFFFFFF)) ∧ trap 0x46310004 (.mtac 0 0 1 4) (regs rac) 0x01 ∧
    word 0x46400020 (.acshr 0 0 32) rac (fun r => decide (rAc r 0 = 0x100000002)) ∧
    word 0x4750003F (.acshl 0 1 63) rac (fun r => decide (rAc r 1 = 0x8000000000000000)) ∧ trap 0x46400040 (.acshr 0 0 64) (regs rac) 0x01 ∧
    word 0x4763000F (.clred 0 1 3 15) rac (fun r => decide (rD r 3 = 1)) ∧ trap 0x46630010 (.clred 0 0 3 16) (regs rac) 0x01 ∧
    word 0x46700000 (.acadd 0 0) rac (fun r => decide (rAc r 0 = 0x00010000000200000004)) ∧
    word 0x46800000 (.acxor 0 0) rac (fun r => decide (rAc r 0 = 0x00010000000200000002)) := by
  decide

def rb : Regs := { d := [(1, 1)], a := [(1, 0x1000), (2, 0x1002)], pc := 0x100, rs := [(0, 0x44)], rsp := 1, rsd := 1 }
def rf : Regs := { rb with rsd := 8 }

/-- Test: ControlTransferWords. R186–R189. -/
theorem test_control :
    word 0x503FFFFF (.br 0 1 0x1FFFFF) rb (fun r => decide (r.pc = 0xFC)) ∧ word 0x50000001 (.br 0 0 1) rb (fun r => decide (r.pc = 0x104)) ∧
    trap 0x51E00000 (.br 0 15 0) (regs rb) 0x01 ∧ word 0x56200004 (.dbnz 0 1 4) rb (fun r => decide (r.pc = 0x104 ∧ rD r 1 = 0)) ∧
    word 0x56400004 (.dbnz 0 2 4) rb (fun r => decide (r.pc = 0x110 ∧ rD r 2 = 0xFFFFFFFF)) ∧
    word 0x52000002 (.call 0 2) rb (fun r => decide (r.pc = 0x108 ∧ tget 0 r.rs 1 = 0x104 ∧ r.rsp = 2 ∧ r.rsd = 2)) ∧
    trap 0x52000002 (.call 0 2) (withT { st := .run, r := rf, rstrap := true }) 0x08 ∧
    word 0x54400000 (.jr 0 1) rb (fun r => decide (r.pc = 0x1000)) ∧ trap 0x54800000 (.jr 0 2) (regs rb) 0x04 ∧ trap 0x54900000 (.callr 0 2) (regs rb) 0x04 ∧
    word 0x54500000 (.callr 0 1) rf (fun r => decide (r.pc = 0x1000 ∧ r.rsd = 8 ∧ r.rsp = 2)) ∧
    trap 0x54500000 (.callr 0 1) (withT { st := .run, r := rf, rstrap := true }) 0x08 ∧ trap 0x54200000 (.ret 0) (regs rr) 0x09 ∧
    word 0x54200000 (.ret 0) rb (fun r => decide (r.pc = 0x44 ∧ r.rsd = 0 ∧ r.rsp = 0)) ∧ trap 0x54300000 (.rete 0) (regs rb) 0x01 ∧
    outW 0x54300000 (.rete 0) (withT { st := .run, r := rb, save := some { pc := 8, fl := { t := true }, succ := none } }) (fun t =>
      decide ((regsOf t 0).pc = 8 ∧ (regsOf t 0).fl.t = true ∧ (gThr t 0).save = none)) := by
  decide

def po (n : Nat) : List Posted := List.replicate n { pc := 0, job := none, fault := none, sti := none }

/-- Test: WaitAndSystemWords. -/
theorem test_waits :
    outW 0x60000000 (.waitt 0) (regs { wake := 1000 }) (fun t => decide ((gThr t 0).st = .wait ∧ (gThr t 0).waitK = some .waitt)) ∧
    outW 0x60000000 (.waitt 0) (regs { wake := 999 }) (fun t => (gThr t 0).late && decide ((regsOf t 0).pc = 4)) ∧
    trap 0x60800000 (.waite 0 0) base 0x01 ∧
    outW 0x60800002 (.waite 0 2) base (fun t => decide ((gThr t 0).waitK = some (.waite 2))) ∧
    outW 0x60800002 (.waite 0 2) (withT { st := .run, pend := 2, save := some { pc := 0, fl := {}, succ := none } }) (fun t =>
      decide ((gThr t 0).entering = some 1 ∧ (gThr t 0).st = .run ∧ (regsOf t 0).pc = 0)) ∧
    outW 0x60800002 (.waite 0 2) (withT { st := .run, pend := 2, wdCount := 7, r := { pc := 0x20 } }) (fun t =>
      decide ((gThr t 0).entering = some 1 ∧ (gThr t 0).wdCount = 7 ∧ (gThr t 0).waitK = some (.waite 2))) ∧
    outW 0x70100000 (.synci 0) (withT { st := .run, posted := po 1 }) (fun t => decide ((regsOf t 0).pc = 4)) ∧
    holds 0x70100000 (.synci 0) (withT { st := .run, posted := [{ pc := 0, job := none, fault := none, sti := some (0, 0) }] }) ∧
    word 0x70300000 (.fence 0) {} (fun r => decide (r.pc = 4)) ∧ holds 0x70300000 (.fence 0) (withT { st := .run, posted := po 1 }) := by
  decide

def opened (s : State) (scope : BitVec 3) : State := { s with mg := { s.mg with lock := { unlocked := true, scope := scope } } }

theorem test_system :
    outW 0x70200005 (.cpt 0 5) (withT { st := .run, wdCount := 9 }) (fun t => decide ((gThr t 0).wdCount = 0 ∧ (regsOf t 0).pc = 4)) ∧
    outW 0x70200005 (.cpt 0 5) (withT { st := .run, swap := true }) (fun t =>
      decide ((gThr t 0).st = .wait ∧ (gThr t 0).curtain = true ∧ (gThr t 0).cptAt = 5)) ∧
    holds 0x70200005 (.cpt 0 5) (withT { st := .run, swap := true, swapNums := some [5], posted := po 1 }) ∧
    outW 0x70200005 (.cpt 0 5) (withT { st := .run, swap := true, swapNums := some [6] }) (fun t => !(gThr t 0).curtain) ∧
    outW 0x70400007 (.bkpt 0 7) (opened (withT { st := .run, dbg := { bken := true } }) 1) (fun t =>
      decide ((gThr t 0).st = .halt ∧ (gThr t 0).dbg.reason = 4 ∧ (gThr t 0).dbg.bknum = 7)) ∧
    word 0x70400007 (.bkpt 0 7) {} (fun r => decide (r.pc = 4)) ∧ trap 0x00000000 (.illegalOpcode 0) base 0x01 := by
  decide

/-! ### Memory words -/

/-- A2 points at this address. -/
def at2 (a : W48) : Regs := { d := [(1, 0x11223344), (2, 0xAABBCCDD), (3, 0x55667788)], a := [(2, a)] }

def withLm (s : State) (m : Mem) : State := { s with ram := { s.ram with lm := m } }

def bytesAt : Mem := [(8, 0x80), (9, 0xFF), (10, 1), (15, 0x90)]

/-- Test: LoadWords. R162–R168, R178. -/
theorem test_loads :
    let s := withLm (regs (at2 8)) bytesAt
    let at1 (a : W48) (w : Nat) (c : Instr) : Bool := outW w c (regs (at2 a)) fun t => decide ((gThr t 0).held.isSome = true ∧ regsOf t 0 = at2 a)
    outW 0x20280000 (.ldb 0 1 2 0 0) s (fun t => decide (rD (regsOf t 0) 1 = 0xFFFFFF80)) ∧
    outW 0x22280000 (.ldbu 0 1 2 0 0) s (fun t => decide (rD (regsOf t 0) 1 = 0x80)) ∧
    outW 0x24280000 (.ldh 0 1 2 0 0) s (fun t => decide (rD (regsOf t 0) 1 = 0xFFFFFF80)) ∧
    outW 0x26290004 (.ldhu 0 1 2 1 4) s (fun t => decide (rD (regsOf t 0) 1 = 0xFF80 ∧ rA (regsOf t 0) 2 = 12)) ∧
    outW 0x28280000 (.ldw 0 1 2 0 0) s (fun t => decide (rD (regsOf t 0) 1 = 0x0001FF80 ∧ (regsOf t 0).pc = 4)) ∧
    outW 0x2A880000 (.ldd 0 4 2 0 0) s (fun t => decide (rD (regsOf t 0) 4 = 0x0001FF80 ∧ rD (regsOf t 0) 5 = 0x90000000)) ∧
    outW 0x2C680000 (.lda 0 3 2 0 0) s (fun t => decide (rA (regsOf t 0) 3 = 0x00000001FF80)) ∧
    at1 0x10000000 0x28280000 (.ldw 0 1 2 0 0) ∧ at1 0x110FFFFC 0x28280000 (.ldw 0 1 2 0 0) ∧ at1 0x21FFFFF8 0x2A880000 (.ldd 0 4 2 0 0) ∧
    at1 0x4000000000 0x20280000 (.ldb 0 1 2 0 0) ∧ at1 0x7FFFFFFFFF 0x22280000 (.ldbu 0 1 2 0 0) := by
  decide

theorem test_load_control :
    holds 0x28280000 (.ldw 0 1 2 0 0) (regs (at2 0x30000008)) ∧ ctlAllowed (regs (at2 0x30000008)) 0 8 false = true ∧
    outW 0x28280000 (.ldw 0 1 2 0 0) (regs (at2 0x4000000000)) (fun t => decide ((gThr t 0).held =
      some { op := .loadExt 1 0x4000000000 4 (.dZx 1), writes := [] } ∧ t.ms.nextJob = 2)) := by
  decide

/-- Test: StoreWords. -/
theorem test_stores :
    let s (a : W48) := regs (at2 a)
    outW 0x30280000 (.stb 0 1 2 0 0) (s 0x3FFFF) (fun t => decide (t.ram.lm = [(0x3FFFF, 0x44)] ∧ (regsOf t 0).pc = 4)) ∧
    outW 0x32280000 (.sth 0 1 2 0 0) (s 0) (fun t => decide (t.ram.lm = [(0, 0x44), (1, 0x33)])) ∧
    outW 0x3429FFFC (.stw 0 1 2 1 0xFFFC) (s 8) (fun t => decide (t.ram.lm = [(8, 0x44), (9, 0x33), (10, 0x22), (11, 0x11)] ∧
      rA (regsOf t 0) 2 = 4)) ∧
    outW 0x36480000 (.std 0 2 2 0 0) (s 0) (fun t => decide (mread t.ram.lm 0 8 = [0xDD, 0xCC, 0xBB, 0xAA, 0x88, 0x77, 0x66, 0x55])) ∧
    outW 0x38480000 (.sta 0 2 2 0 0) (s 0x100) (fun t => decide (t.ram.lm = [(0x101, 1)])) ∧
    outW 0x34280000 (.stw 0 1 2 0 0) (s 0x10000000) (fun t => decide (mget t.ram.lm 0 = 0x44 ∧ (gThr t 0).posted.length = 1)) ∧
    outW 0x34280000 (.stw 0 1 2 0 0) (s 0x110FFFFC) (fun t => decide (t.ram.lm = [] ∧ (gThr t 0).posted.map Posted.fault = [some 5])) ∧
    outW 0x34280000 (.stw 0 1 2 0 0) (s 0x20000000) (fun t => decide (mget t.ram.wings 0 = 0x44 ∧ t.ram.lm = [])) ∧
    outW 0x34280000 (.stw 0 1 2 0 0) (s 0x4000000000) (fun t => decide ((gThr t 0).posted.map Posted.job = [some 1] ∧ t.ram = base.ram)) ∧
    holds 0x34280000 (.stw 0 1 2 0 0) (withT { st := .run, r := at2 0x20000000, posted := po 8 }) ∧
    holds 0x34280000 (.stw 0 1 2 0 0) (withT { st := .run, r := at2 0x7FFFFFFFFC, posted := po 8 }) ∧
    outW 0x34280000 (.stw 0 1 2 0 0) (withT { st := .run, r := at2 0x20000000, posted := po 7 }) (fun t =>
      decide ((gThr t 0).posted.length = 8 ∧ (gThr t 0).held = none)) ∧
    holds 0x34280000 (.stw 0 1 2 0 0) (regs (at2 0x30000008)) := by
  decide

/-- Test: MemoryAccessFaults. R162, R171, R178, R202. -/
theorem test_memory_faults :
    trap 0x282B0010 (.ldw 0 1 2 3 16) (regs (at2 0)) 0x01 ∧ trap 0x2A280000 (.ldd 0 1 2 0 0) (regs (at2 0)) 0x01 ∧ trap 0x2D080000 (.lda 0 8 2 0 0) (regs (at2 0)) 0x01 ∧
    trap 0x28280000 (.ldw 0 1 2 0 0) (regs (at2 2)) 0x04 ∧
    trap 0x28280000 (.ldw 0 1 2 0 0) (regs (at2 0x40000)) 0x05 ∧ trap 0x28280000 (.ldw 0 1 2 0 0) (regs (at2 0x11100000)) 0x05 ∧
    trap 0x28280000 (.ldw 0 1 2 0 0) (regs (at2 0x22000000)) 0x05 ∧ trap 0x28280000 (.ldw 0 1 2 0 0) (regs (at2 0x38000000)) 0x05 ∧
    trap 0x30280000 (.stb 0 1 2 0 0) (regs (at2 0x8000000000)) 0x05 ∧ trap 0x24280000 (.ldh 0 1 2 0 0) (regs (at2 0x30000000)) 0x05 ∧
    trap 0x28280000 (.ldw 0 1 2 0 0) { regs (at2 0) with ram := { lmBad := [0] } } 0x06 := by
  decide

/-- The line of the present word is pinned in the cache of engine 0. -/
def pinnedIc (s : State) : State :=
  { s with en := { s.en with ic := [(0, { sets := [(0, [{ line := 0, pinned := true, words := [(1, 0x70000000)], way := 0, ecc := 0 }])] })] } }

/-- T1 of engine 0 runs with these registers; it is no supervisor. -/
def t1 (r : Regs) : State := { base with en := { base.en with thr := [(1, { st := .run, r := r })] } }

theorem test_privilege : ctlAllowed (t1 (at2 0x30000008)) 1 8 true = false ∧
    outW 0x34280000 (.stw 1 1 2 0 0) (t1 (at2 0x30000008)) (fun t => decide ((gThr t 1).fcode = 0x07)) ∧
    outW 0x3A280000 (.sti 1 1 2 0 0) (pinnedIc (t1 (at2 0x40))) (fun t => decide ((gThr t 1).fcode = 0x07)) := by
  decide

/-- Test: StoreInstructionWord. R143, R161, R169, R202. -/
theorem test_sti :
    issues (.sti 0 1 2 0 0) (put 0x3A280000 (.sti 0 1 2 0 0) (regs (at2 0x40))) = false ∧ trap 0x3A2B0010 (.sti 0 1 2 3 16) (pinnedIc (regs (at2 0x40))) 0x01 ∧
    trap 0x3A280000 (.sti 0 1 2 0 0) (pinnedIc (regs (at2 0x42))) 0x04 ∧ trap 0x3A280000 (.sti 0 1 2 0 0) (pinnedIc (regs (at2 0x1000000))) 0x05 ∧
    trap 0x3A280000 (.sti 0 1 2 0 0) { pinnedIc (regs (at2 0x40)) with ram := { rsWp := [(0, 1)] } } 0x10 ∧
    outW 0x3A280000 (.sti 0 1 2 0 0) (pinnedIc (regs (at2 0x3C))) (fun t => decide ((gThr t 0).posted =
      [{ pc := 0, job := none, fault := none, sti := some (0x3C, 0x11223344) }] ∧ t.ram = base.ram ∧
        (gThr t 0).succ = some 0x70000000 ∧
        ((tget [] (gIc t 0).sets 0).map fun l => tget 0 l.words 15) = [0x11223344])) ∧
    holds 0x3A280000 (.sti 0 1 2 0 0) (pinnedIc (withT { st := .run, r := at2 0x40, posted := po 8 })) := by
  decide

def rx (x y : W48) : Regs := { a := [(1, x), (2, y)], d := [(4, 2)], ac := [(0, 5)] }
def lmX : Mem := [(0x10, 3), (0x14, 4), (0x20010, 7), (0x20014, 1)]

/-- Test: MultiplyMemoryWords. R180, R181, R185. -/
theorem test_macx :
    let s (x y : W48) := withLm (regs (rx x y)) lmX
    trap 0x40294000 (.macx 0 0 1 2 1 1 0 false) (s 0x12 0x20010) 0x04 ∧ trap 0x42294000 (.clmacx 0 0 1 2 1 1) (s 0x20010 0x10) 0x03 ∧
    trap 0x40254000 (.macx 0 0 1 1 1 1 0 false) (s 0x10 0x20010) 0x03 ∧
    trap 0x40294000 (.macx 0 0 1 2 1 1 0 false) { s 0x10 0x20010 with ram := { lmBad := [2] } } 0x06 ∧
    outW 0x40297000 (.macx 0 0 1 2 1 1 3 false) (s 0x10 0x20010) (fun t => decide (rAc (regsOf t 0) 0 = 26 ∧ rA (regsOf t 0) 1 = 0x14 ∧
      rA (regsOf t 0) 2 = 0x20014 ∧ (regsOf t 0).pc = 4)) ∧
    outW 0x42280000 (.clmacx 0 0 1 2 0 0) (s 0x10 0x20010) (fun t => decide (rAc (regsOf t 0) 0 = 0xC)) ∧
    outW 0x48295000 (.bcrc 0 0 1 2 1 1 4) (s 0x10 0x20010) (fun t => decide (rAc (regsOf t 0) 0 = 5 ∧ (regsOf t 0).pc = 0 ∧
      rAc (regsOf (paySlot t 0) 0) 0 = 0x8 ∧ rA (regsOf (paySlot t 0) 0) 1 = 0x18 ∧ rD (regsOf (paySlot t 0) 0) 4 = 2)) ∧
    outW 0x48295400 (.bcrc 0 0 1 2 1 1 5) (s 0x12 0x20010) (fun t => decide (regsOf t 0 = { rx 0x12 0x20010 with pc := 4 })) ∧
    trap 0x48255400 (.bcrc 0 0 1 1 1 1 5) (s 0x10 0x20010) 0x03 ∧ outW 0x48295000 (.bcrc 0 0 1 2 1 1 4) (s 0x1FFFC 0x20010) (fun t =>
      decide ((gThr (paySlot t 0) 0).fcode = 0x03 ∧ regsOf (paySlot t 0) 0 = rx 0x1FFFC 0x20010)) := by
  decide

def rp : Regs := { d := [(1, 7), (2, 0xFFFFFFFF)], a := [(1, 0x10), (2, 0x20010)], fl := { t := true } }

/-- Test: PairWords. R136, R198–R201. -/
theorem test_pair :
    let one (w : Nat) (o : ShortOp) (p : Regs → Bool) : Bool := outW w (.pair 0 o .snop) (withLm (regs rp) lmX) fun t => p (regsOf t 0)
    word 0x84943220 (.pair 0 (.sadd 1 1 2) (.smov 2 1)) rp (fun r => decide (rD r 1 = 6 ∧ rD r 2 = 7 ∧ r.pc = 4)) ∧
    trap 0x84943140 (.pair 0 (.sadd 1 1 2) (.smov 1 2)) (regs rp) 0x02 ∧ trap 0xA8145028 (.pair 0 (.scmp 1 2) (.scmp 1 2)) (regs rp) 0x02 ∧
    word 0xA8145824 (.pair 0 (.scmp 1 2) (.steq 1 1)) rp (fun r => decide (r.fl = { c := true, t := true })) ∧
    trap 0xBCA00000 (.pair 0 (.sshli 1 32) .snop) (regs rp) 0x01 ∧ one 0x80000000 .snop (fun r => decide (r = { rp with pc := 4 })) ∧
    one 0x89940000 (.ssub 3 1 2) (fun r => decide (rD r 3 = 8)) ∧ one 0x8D940000 (.sand 3 1 2) (fun r => decide (rD r 3 = 7)) ∧
    one 0x91940000 (.sor 3 1 2) (fun r => decide (rD r 3 = 0xFFFFFFFF)) ∧ one 0x95940000 (.sxor 3 1 2) (fun r => decide (rD r 3 = 0xFFFFFFF8)) ∧
    one 0x9DA00000 (.snot 3 2) (fun r => decide (rD r 3 = 0)) ∧ one 0xA1900000 (.sneg 3 1) (fun r => decide (rD r 3 = 0xFFFFFFF9)) ∧
    one 0xA5940000 (.sselt 3 1 2) (fun r => decide (rD r 3 = 7)) ∧ one 0xB0220000 (.stlt 2 1) (fun r => r.fl.t) ∧
    one 0xB4FF0000 (.saddi 1 0x7F) (fun r => decide (rD r 1 = 6)) ∧ one 0xB8C00000 (.smovi 1 0x40) (fun r => decide (rD r 1 = 0xFFFFFFC0)) ∧
    one 0xBC9F0000 (.sshli 1 31) (fun r => decide (rD r 1 = 0x80000000)) ∧ one 0xC11F0000 (.sshri 2 31) (fun r => decide (rD r 2 = 1)) ∧
    one 0xC51F0000 (.ssari 2 31) (fun r => decide (rD r 2 = 0xFFFFFFFF)) ∧ one 0xE1200000 (.saadd 1 2) (fun r => decide (rA r 1 = 0xF)) ∧
    one 0xE57F0000 (.saaddi 1 0x7F) (fun r => decide (rA r 1 = 0xF)) := by
  decide

theorem test_pair_memory :
    let s := withLm (regs rp) lmX
    outW 0xC9A89480 (.pair 0 (.sldw 3 1 1) (.sldw 4 2 0)) s (fun t => decide (rD (regsOf t 0) 3 = 3 ∧ rD (regsOf t 0) 4 = 7 ∧
      rA (regsOf t 0) 1 = 0x14)) ∧
    outW 0xCDA00000 (.pair 0 (.sldhu 3 1 0) .snop) s (fun t => decide (rD (regsOf t 0) 3 = 3)) ∧
    outW 0xD1C00000 (.pair 0 (.sldbu 3 2 0) .snop) s (fun t => decide (rD (regsOf t 0) 3 = 7)) ∧
    outW 0xD5200000 (.pair 0 (.sstw 2 1 0) .snop) s (fun t => decide (mread t.ram.lm 0x10 5 = [0xFF, 0xFF, 0xFF, 0xFF, 4])) ∧
    outW 0xD9200000 (.pair 0 (.ssth 2 1 0) .snop) s (fun t => decide (mread t.ram.lm 0x10 4 = [0xFF, 0xFF, 0, 0])) ∧
    outW 0xDD200000 (.pair 0 (.sstb 2 1 0) .snop) s (fun t => decide (mread t.ram.lm 0x10 2 = [0xFF, 0])) ∧
    outW 0xE8C80000 (.pair 0 (.smacx 0 1 2 1 0) .snop) s (fun t => decide (rAc (regsOf t 0) 0 = 21 ∧ rA (regsOf t 0) 2 = 0x20014)) ∧
    outW 0xEEC00B24 (.pair 0 (.sclmacx 1 1 2 0) (.sadd 3 1 1)) s (fun t => decide (rAc (regsOf t 0) 1 = 9 ∧ rD (regsOf t 0) 3 = 14)) ∧
    trap 0xE8C89340 (.pair 0 (.smacx 0 1 2 1 0) (.sldw 3 1 0)) s 0x03 := by
  decide

def rat (a : W48) : Regs := { a := [(1, a)], d := [(2, 5), (3, 6), (4, 7), (5, 8)] }

/-- Test: AtomicWords. R196, R202, R386. -/
theorem test_atomics :
    trap 0x6E49A000 (.casd 0 1 3 4) (regs (rat 0x20000000)) 0x01 ∧ trap 0x6E892800 (.acq 0 1 2 5) (regs (rat 0x20000000)) 0x01 ∧
    trap 0x6E092000 (.casw 0 1 2 4) (regs (rat 0x20000002)) 0x04 ∧ trap 0x6EC80000 (.rel 0 1) (regs (rat 0x20000004)) 0x04 ∧
    trap 0x6E092000 (.casw 0 1 2 4) (regs (rat 0x10)) 0x05 ∧ trap 0x6F080000 (.lwatch 0 1) (regs (rat 0x8000000000)) 0x05 ∧
    holds 0x6E092000 (.casw 0 1 2 4) (withT { st := .run, r := rat 0x20000000, posted := po 1 }) ∧
    holds 0x6EC80000 (.rel 0 1) (withT { st := .run, r := rat 0x21FFFFF8, posted := po 1 }) ∧
    outW 0x6E492000 (.casd 0 1 2 4) (regs (rat 0x4000000000)) (fun t => decide ((gThr t 0).held =
      some { op := .atom 1 0x4000000000 0x0000000600000005 0x0000000800000007 2 1, writes := [] } ∧ t.ms.nextJob ≠ 1)) ∧
    holds 0x6F480000 (.lunwatch 0 1) (withT { st := .run, r := rat 0x20000000, posted := po 1 }) := by
  decide

/-- Endpoint 0 of thread 0 in this state, its D1 naming endpoint 4 of thread 1. -/
def withCe (c : Ce) : State := { regs { d := [(1, 4)] } with en := { (regs { d := [(1, 4)] }).en with ce := [(0, c)] } }

/-- Test: CallboardSendWords. R194, R229. -/
theorem test_send :
    let ep (w : Nat) (c : Instr) (x : Ce) (p : State → Ce → Bool) : Bool := outW w c (withCe x) fun t => p t (gCe t 0)
    ep 0x6A018000 (.chopen 0 0 1 true) {} (fun t x => decide (x.txst = .opening ∧ (regsOf t 0).fl.t = true ∧ t.en.cb.fly =
      [{ kind := .opn, src := 0, dst := 4, route := 1, ec := 0 }])) ∧
    ep 0x6A028000 (.chopen 0 0 2 true) {} (fun _ x => decide (x.txst = .opening)) ∧
    (outW 0x6A010000 (.chopen 0 0 1 false) (regs { d := [(1, 8192)] }) fun t => decide ((gCe t 0).txst = .aborted ∧ (gCe t 0).cause = 3)) ∧
    trap 0x6A010000 (.chopen 0 0 1 false) (withCe { txst := .opn }) 0x11 ∧ holds 0x6A010000 (.chopen 0 0 1 false) (withCe { txst := .closing }) ∧
    ep 0x6A410000 (.chw 0 0 1 false) { txst := .opn, cred := 1, txPeer := 4, route := 3 } (fun t x => decide (x.cred = 0 ∧
      t.en.cb.fly = [{ kind := .word (.data 4), src := 0, dst := 4, route := 3, ec := 0 }])) ∧
    ep 0x6A800000 (.chclose 0 0 false) { txst := .opn, cred := 2, txPeer := 4 } (fun _ x => decide (x.txst = .closing ∧ x.cred = 1)) ∧
    holds 0x6A410000 (.chw 0 0 1 false) (withCe { txst := .opening }) ∧ holds 0x6A800000 (.chclose 0 0 false) (withCe { txst := .opn }) ∧
    ep 0x6A418000 (.chw 0 0 1 true) { txst := .opn } (fun t _ => !(regsOf t 0).fl.t) ∧ trap 0x6A410000 (.chw 0 0 1 false) (withCe {}) 0x11 ∧
    trap 0x6A800000 (.chclose 0 0 false) (withCe { txst := .closing }) 0x11 ∧
    ep 0x6A410000 (.chw 0 0 1 false) { txst := .aborted } (fun t x => decide (x.txst = .idle ∧ (gThr t 0).fcode = 0x0B)) := by
  decide

/-- Test: CallboardReceiveWords. R194, R230. -/
theorem test_receive :
    let rx (b : List CbWord) : Ce := { rxBusy := true, rxBuf := b, rxPeer := 4, rxRoute := 2 }
    let got (c : Ce) (x k : W32) (p : State → Bool) : Bool := outW 0x6AC28000 (.chr 0 0 2 true) (withCe c) fun t =>
      p t && decide (rD (regsOf t 0) 2 = x ∧ rD (regsOf t 0) 3 = k ∧ (regsOf t 0).fl.t = true)
    trap 0x6AC10000 (.chr 0 0 1 false) (withCe {}) 0x01 ∧ got (rx [.opn 4]) 4 1 (fun t => decide (t.en.cb.fly.map CbMsg.kind = [.credit])) ∧
    got (rx [.data 9, .close]) 9 0 (fun t => decide ((gCe t 0).rxBuf = [.close])) ∧
    got (rx [.close]) 0 2 (fun t => !(gCe t 0).rxBusy && decide (t.en.cb.fly.map CbMsg.kind = [.closeNews])) ∧
    got { rx [] with rxAbt := some 2 } 2 3 (fun t => decide (t.en.cb.fly = [])) ∧
    outW 0x6AC28000 (.chr 0 0 2 true) (withCe {}) (fun t => !(regsOf t 0).fl.t) ∧ holds 0x6AC20000 (.chr 0 0 2 false) (withCe {}) ∧
    outW 0x6B000000 (.chabort 0 0 false) (withCe { rx [.data 1] with txst := .opn, txPeer := 8, route := 5 }) (fun t =>
      decide ((gCe t 0).txst = .idle ∧ (gCe t 0).rxBuf = [] ∧ t.en.cb.fly =
        [{ kind := .abortRx 1, src := 0, dst := 8, route := 5, ec := 0 }, { kind := .abortTx 1, src := 0, dst := 4, route := 2, ec := 0 }])) := by
  decide

/-! ### Packets, pins, timers -/

def pkt (st : PSt) : Pkt :=
  { handle := 0x100, len := 64, pool := 0, od := 3, chain := false, src := 2, recirc := false, seq := 0, info := 0, chidx := 0
    tb := 0, st := st }

/-- One packet in window entry 5, the head of domain 3. -/
def withPkt (s : State) (st : PSt) : State :=
  { s with tr := { s.tr with ush := { win := [(5, some (pkt st))], dom := [(3, { q := [5], engines := 1 })] } } }

def rk (w : W32) : Regs := { d := [(1, 0x100), (2, w), (3, 40)] }

/-- Test: PacketWords. R195, R347, R348. -/
theorem test_packets :
    let queued : State := { base with en := { base.en with eng := [(0, { dq := [5] })] } }
    trap 0x6C040000 (.take 0 1 false) base 0x01 ∧ outW 0x6C102000 (.take 0 4 true) base (fun t => !(regsOf t 0).fl.t && decide ((regsOf t 0).pc = 4)) ∧
    outW 0x6C100000 (.take 0 4 false) base (fun t => decide ((gEng t 0).takers = [0] ∧ (gThr t 0).held.isSome = true)) ∧
    outW 0x6C100000 (.take 0 4 false) queued (fun t => decide ((gEng t 0).dq = [] ∧ (gThr t 0).held =
      some { op := .take 4 false (some 5), writes := [] })) ∧
    holds 0x6C448000 (.release 0 1 2) (withT { st := .run, r := rk 0, posted := po 8 }) ∧
    outW 0x6C448000 (.release 0 1 2) (withPkt (regs (rk 0)) (.held 0)) (fun t => decide ((gWin t 5).map Pkt.st =
      some (.released { word := 0, newLen := none }) ∧ (gThr t 0).posted.map Posted.fault = [none])) ∧
    outW 0x6C448000 (.release 0 1 2) (withPkt (regs (rk 0)) (.held 1)) (fun t => decide ((gThr t 0).posted.map Posted.fault = [some 0x0D])) ∧
    outW 0x6C448000 (.release 0 1 2) (withPkt (regs (rk 4)) (.held 0)) (fun t => decide ((gThr t 0).posted.map Posted.fault = [some 0x13])) ∧
    dispBad 4 (some 40) = true ∧ dispBad 0 (some 40) = false ∧
    dispBadFor (withPkt base (.held 0)) (pkt (.held 0)) 0 (some 40) = false ∧
    heldEntry (withPkt base (.held 0)) 0 0x100 = some (5, pkt (.held 0)) := by
  decide

def rc : Regs := { d := [(2, 2000), (4, 0), (6, 1)] }
def withPins (s : State) (p : Pin) (b : Bank) : State := { s with pin := [(0, p)], bank := [(0, b)] }
def cues (n : Nat) : List Cue := List.replicate n { t := 2000, min := 0, act := 1, ec := 0 }

/-- Test: PinAndTimerWords. R192, R271–R275. -/
theorem test_cue :
    let s (p : Pin) (b : Bank) := withPins (regs rc) p b
    trap 0x64280000 (.cue 0 1 4 0) (regs rc) 0x01 ∧ trap 0x64490000 (.cue 0 2 4 8) (regs rc) 0x01 ∧
    outW 0x64482000 (.cue 0 2 4 1) (s {} { paused := true }) (fun t => decide ((gPin t 0).cueDrop = 1 ∧ (gPin t 0).cueQ = [])) ∧
    trap 0x64082000 (.cue 0 0 4 1) (s {} { lateTrap := true }) 0x0F ∧
    trap 0x64482000 (.cue 0 2 4 1) (s { cueQ := cues 16 } { fullTrap := true }) 0x12 ∧
    outW 0x64482000 (.cue 0 2 4 1) (s { cueQ := cues 16 } {}) (fun t => (gPin t 0).full && decide ((gPin t 0).cueQ.length = 16)) ∧
    outW 0x64484000 (.cue 0 2 4 2) (s { cueQ := cues 15 } {}) (fun t => decide ((gPin t 0).cueQ =
      cues 15 ++ [{ t := 2000, min := 1016, act := 2, ec := 0 }])) := by
  decide

theorem test_caprd_timer :
    let c : Cap := { t := 0x0000000500000006, edge := 2, gap := true, vis := 0 }
    trap 0x66290000 (.caprd 0 1 4 8) (regs rc) 0x01 ∧ trap 0x66486000 (.caprd 0 2 4 3) (regs rc) 0x01 ∧
    outW 0x66490000 (.caprd 0 2 4 8) (regs rc) (fun t => !(regsOf t 0).fl.t) ∧
    outW 0x66490000 (.caprd 0 2 4 8) (withPins (regs rc) { capQ := [c] } {}) (fun t => decide (rD (regsOf t 0) 2 = 6 ∧ rD (regsOf t 0) 3 = 5 ∧
      rD (regsOf t 0) 8 = 6 ∧ (gPin t 0).capQ = [])) ∧
    trap 0x68228000 (.tmrRead 0 1 0 10) base 0x01 ∧ trap 0x6833C000 (.tmrWrite 0 1 0 15) base 0x01 ∧
    outW 0x685E4000 (.tmrWrite 0 2 3 9) (regs rc) (fun t => decide ((gTmr t 0 3).capPin = 0xD0)) ∧
    outW 0x684C0000 (.tmrRead 0 2 3 0) (regs rc) (fun t => decide (rD (regsOf t 0) 2 = 0)) ∧
    outW 0x68548000 (.tmrWrite 0 2 1 2) (regs rc) (fun t => decide ((gTmr t 0 1).c = 2000)) := by
  decide

/-! ### Words of a sequencer (spec/08) -/

/-- The sequencer word completes, and p holds of the sequencer. -/
def kp (w : Nat) (c : Instr) (x : Sq) (p : Sq → Bool) : Bool := outW w c (seq x) fun t => p (gSq t 0)

def kpTraps (w : Nat) (c : Instr) (x : Sq) (cause : W8) : Bool := kp w c x fun y => decide (y.st = .trapped ∧ y.tcause = cause ∧ y.pc = x.pc)

def sv : Sq := { v := [(0, 0x1234), (1, 0xFFFF), (2, 1)], pc := 0xFFF, lc := 1, stack := [5] }

/-- Test: SequencerControlRegisterWords. R290–R292. -/
theorem test_kp_control :
    kp 0x0100 (.kpNop 0) sv (fun y => decide (y.pc = 0 ∧ y.st = .run)) ∧ kp 0x0200 (.kpEnd 0) sv (fun y => y.done && decide (y.st = .stopped)) ∧
    kpTraps 0x0309 (.kpTrap 0 9) sv 0x04 ∧ kp 0x04FF (.kpBr 0 0xFF) sv (fun y => decide (y.pc = 0xFFE)) ∧
    kp 0x0502 (.kpCall 0 2) sv (fun y => decide (y.pc = 1 ∧ y.stack = [0, 5])) ∧
    kpTraps 0x0502 (.kpCall 0 2) { sv with stack := [1, 2, 3, 4] } 0x02 ∧ kp 0x0800 (.kpCallv 0 0) sv (fun y => decide (y.pc = 0x234)) ∧
    kp 0x0700 (.kpJv 0 0) sv (fun y => decide (y.pc = 0x234)) ∧ kpTraps 0x0600 (.kpRet 0) { sv with stack := [] } 0x03 ∧
    kp 0x0600 (.kpRet 0) sv (fun y => decide (y.pc = 5 ∧ y.stack = [])) ∧ kp 0x0904 (.kpBz 0 4) { sv with z := true } (fun y => decide (y.pc = 3)) ∧
    kp 0x0A04 (.kpBnz 0 4) { sv with z := true } (fun y => decide (y.pc = 0)) ∧ kp 0x0B04 (.kpBc 0 4) sv (fun y => decide (y.pc = 0)) ∧
    kp 0x0C04 (.kpBnc 0 4) sv (fun y => decide (y.pc = 3)) ∧ kp 0x0D04 (.kpBt 0 4) sv (fun y => decide (y.pc = 0)) ∧
    kp 0x0E04 (.kpBf 0 4) sv (fun y => decide (y.pc = 3)) ∧ kp 0x0F04 (.kpDjnz 0 4) sv (fun y => decide (y.pc = 0 ∧ y.lc = 0)) ∧
    kp 0x0F04 (.kpDjnz 0 4) { sv with lc := 0 } (fun y => decide (y.pc = 3 ∧ y.lc = 0xFFFF)) := by
  decide

theorem test_kp_registers :
    kp 0x1128 (.kpAdd 0 1 2) sv (fun y => decide (kv y 1 = 0 ∧ y.z = true ∧ y.c = true)) ∧
    kp 0x1244 (.kpSub 0 2 1) sv (fun y => decide (kv y 2 = 2 ∧ y.c = true)) ∧ kp 0x1308 (.kpAnd 0 0 2) sv (fun y => decide (kv y 0 = 0 ∧ y.z = true)) ∧
    kp 0x1728 (.kpCmp 0 1 2) sv (fun y => decide (y.v = sv.v ∧ y.c = false)) ∧ kp 0x185F (.kpAddi 0 2 0x1F) sv (fun y => decide (kv y 2 = 0)) ∧
    kp 0x1950 (.kpLdi 0 2 0x10) sv (fun y => decide (kv y 2 = 0xFFF0)) ∧ kp 0x1AAB (.kpLdb0 0 0xAB) sv (fun y => decide (kv y 0 = 0xAB)) ∧
    kp 0x1BAB (.kpLdh0 0 0xAB) sv (fun y => decide (kv y 0 = 0xAB34)) ∧ kp 0x1C2F (.kpShl 0 1 15) sv (fun y => decide (kv y 1 = 0x8000 ∧ y.c = true)) ∧
    kp 0x1D41 (.kpShr 0 2 1) sv (fun y => decide (kv y 2 = 0 ∧ y.c = true)) ∧ kpTraps 0x1C30 (.kpShl 0 1 16) sv 0x01 ∧ kpTraps 0x1F3F (.kpTbv 0 1 31) sv 0x01 ∧
    kp 0x1F2F (.kpTbv 0 1 15) sv (fun y => y.t) ∧ kp 0x1E20 (.kpRlt 0 1) { sv with t := true } (fun y => decide (kv y 1 = 0xFFFF ∧ y.c = true)) ∧
    kp 0x2144 (.kpSt 0 2 1) sv (fun y => decide (y.dm = [(511, 1)])) ∧ kp 0x2064 (.kpLd 0 3 1) { sv with dm := [(511, 9)] } (fun y => decide (kv y 3 = 9)) ∧
    kp 0x2304 (.kpTolc 0 1) sv (fun y => decide (y.lc = 0xFFFF)) ∧ kp 0x2207 (.kpLdlc 0 7) sv (fun y => decide (y.lc = 7)) ∧
    kp 0x2460 (.kpFrlc 0 3) sv (fun y => decide (kv y 3 = 1)) ∧ kp 0x1664 (.kpNot 0 3 1) sv (fun y => decide (kv y 3 = 0 ∧ y.z = true)) := by
  decide

/-- Test: SequencerPinWords. -/
theorem test_kp_pins :
    let s (x : Sq) (p : Pin) : State := { seq x with pin := [(1, p)] }
    kp 0x2800 (.kpEpnow 0) sv (fun y => decide (y.ep = 1000)) ∧ kp 0x2904 (.kpEpadd 0 1) sv (fun y => decide (y.ep = 0xFFFF)) ∧
    kp 0x2A02 (.kpEpaddi 0 2) sv (fun y => decide (y.ep = 32)) ∧ kp 0x2F00 (.kpEpcr 0) { sv with crT := 7 } (fun y => decide (y.ep = 7)) ∧
    outW 0x3060 (.kpInp 0 3) (s sv { sync := true }) (fun t => decide (kv (gSq t 0) 3 = 2)) ∧
    outW 0x3120 (.kpTpin 0 1) (s sv { sync := true }) (fun t => (gSq t 0).t) ∧
    kp 0x3360 (.kpCrd 0 3) { sv with crT := 5, ep := 6 } (fun y => decide (kv y 3 = 0 ∧ y.z = true ∧ y.c = true)) ∧
    kp 0x3360 (.kpCrd 0 3) { sv with crT := 0x20000, ep := 6 } (fun y => decide (kv y 3 = 0xFFFF ∧ y.c = true)) ∧
    kp 0x3460 (.kpCre 0 3) { sv with crE := 5 } (fun y => decide (kv y 3 = 5)) ∧
    outW 0x2B30 (.kpCue 0 1 4) (s { sv with ep := 2000 } {}) (fun t => decide ((gBank t 0).due.map DueCue.cue = [{ t := 2000, min := 1032, act := 4, ec := 1 }])) ∧
    outW 0x2C20 (.kpCuec 0 1) (s { sv with c := true } {}) (fun t => decide (((gBank t 0).due.map fun d => (d.pin, d.cue.act)) = [(1, 6)])) ∧
    outW 0x2E20 (.kpMarknow 0 1) (s sv {}) (fun t => decide ((gBank t 0).due.map DueCue.cue = [{ t := 1032, min := 1032, act := 7, ec := 1 }])) ∧
    outW 0x2D0D (.kpCueimg 0 3 true) (s { sv with v := [(3, 0x0302)] } {}) (fun t => decide (((gBank t 0).due.map fun d => (d.pin, d.cue.act)) =
      [(0, 5), (1, 6)])) ∧
    outW 0x3220 (.kpCapr 0 1) (s sv {}) (fun t => !(gSq t 0).t) ∧
    outW 0x3220 (.kpCapr 0 1) (s sv { capQ := [{ t := 9, edge := 1, gap := true, vis := 0 }] }) (fun t => (gSq t 0).t &&
      decide ((gSq t 0).crT = 9 ∧ (gSq t 0).crE = 5 ∧ (gPin t 1).capQ = [])) ∧
    outW 0x3570 (.kpMbr 0 3 2) { base with bank := [(0, { sq := { sv with st := .run }, mbx := { mbin := [(2, 8)], inFull := 4 } })] } (fun t =>
      decide (kv (gSq t 0) 3 = 8 ∧ (gSq t 0).t = true ∧ (gBank t 0).mbx.inFull = 0)) ∧
    outW 0x3630 (.kpMbw 0 1 2) { base with bank := [(0, { sq := { sv with st := .run }, mbx := { outFull := 4 } })] } (fun t =>
      decide (tget 0 (gBank t 0).mbx.mbout 2 = 0xFFFF ∧ (gBank t 0).mbx.outOvw = 4)) := by
  decide

def waitSq (w : SqWait) : Bank := { sq := { st := .wait, wait := some w } }

/-- Test: SequencerWaitWords. R293, R297. -/
theorem test_kp_waits :
    kp 0x3900 (.kpWaitn 0 0) sv (fun y => decide (y.wait = some (.count 0) ∧ y.pc = 0xFFF)) ∧ kp 0x39FF (.kpWaitn 0 255) sv (fun y => decide (y.wait = some (.count 255))) ∧
    kp 0x3A0C (.kpWaitv 0 3) sv (fun y => decide (y.wait = some (.count 0))) ∧ kp 0x3A04 (.kpWaitv 0 1) sv (fun y => decide (y.wait = some (.count 65535))) ∧
    kp 0x3BE0 (.kpWcap 0 7) sv (fun y => decide (y.wait = some (.cap 7))) ∧ kp 0x3C18 (.kpWmb 0 3) sv (fun y => decide (y.wait = some (.mb 3) ∧ y.st = .run)) ∧
    kp 0x3DE0 (.kpWroom 0 7) sv (fun y => decide (y.wait = some (.room 7))) ∧
    outW 0x3D00 (.kpWroom 0 0) { seq sv with pin := [(0, { cueQ := cues 16 })] } (fun t => decide ((gSq t 0).wait = some (.room 0))) ∧
    kp 0x3800 (.kpWaitep 0) { sv with ep := 999 } (fun y => y.late && decide (y.st = .run)) ∧
    kp 0x3800 (.kpWaitep 0) { sv with ep := 1032 } (fun y => !y.late && decide (y.st = .run)) ∧
    kp 0x3800 (.kpWaitep 0) { sv with ep := 1033 } (fun y => decide (y.wait = some .ep)) ∧
    kpTraps 0x2504 (.kpPush 0 1) sv 0x05 ∧ kpTraps 0x2620 (.kpPull 0 1) sv 0x05 ∧
    outW 0x2504 (.kpPush 0 1) (withBank { sq := { sv with st := .run }, sout := { en := true } }) (fun t => decide ((gBank t 0).sout.fifo = [0xFFFF])) ∧
    outW 0x2504 (.kpPush 0 1) (withBank { sq := { sv with st := .run }, sout := { en := true, fifo := List.replicate 64 0 } }) (fun t =>
      decide ((gSq t 0).wait = some (.push 0xFFFF))) ∧
    outW 0x2620 (.kpPull 0 1) (withBank { sq := { sv with st := .run }, sin := { en := true } }) (fun t => decide ((gSq t 0).wait = some (.pull 1))) ∧
    outW 0x2620 (.kpPull 0 1) (withBank { sq := { sv with st := .run }, sin := { en := true, fifo := [3, 4] } }) (fun t =>
      decide (kv (gSq t 0) 1 = 3 ∧ (gBank t 0).sin.fifo = [4])) := by
  decide

theorem test_kp_wait_ends :
    let ends (b : Bank) : Bool := out (.kpWaitEnd 0) (withBank b) fun t => decide ((gSq t 0).st = .run ∧ (gSq t 0).pc = 1)
    ends (waitSq (.count 0)) ∧ still (.kpWaitEnd 0) (withBank (waitSq (.count 1))) ∧ ends (waitSq .ep) ∧
    still (.kpWaitEnd 0) (withBank (waitSq (.cap 3))) ∧ ends { waitSq (.mb 3) with mbx := { inFull := 8 } } ∧ ends (waitSq (.room 0)) ∧
    ends { waitSq (.push 9) with sout := { en := true, fifo := List.replicate 63 0 } } ∧
    ends { waitSq (.pull 7) with sin := { en := true, fifo := [1] } } ∧
    out (.kpWaitEnd 0) { withBank (waitSq (.cap 3)) with pin := [(3, { capQ := [{ t := 9, edge := 1, gap := true, vis := 0 }] })] } (fun t =>
      decide ((gSq t 0).st = .run)) ∧
    (let w (st : SqSt) (n : Nat) : Sq := gSq (sqWaiting (withBank { waitSq (.count n) with sq := { (waitSq (.count n)).sq with st := st } }) 0) 0
     (w .run 1).st = .wait ∧ (w .run 1).wait = some (.count 1) ∧ (w .wait 1).wait = some (.count 0) ∧ (w .run 0).st = .run) := by
  decide

/-- Test: SequencerCommands. R285–R287, R296–R298. -/
theorem test_kp_commands :
    let sb (st : SqSt) : State := withBank { sq := { st := st, entry := 9, stack := [1] } }
    out (.seqStart 0) (sb .stopped) (fun t => decide ((gSq t 0).st = .run ∧ (gSq t 0).pc = 9 ∧ (gSq t 0).stack = [])) ∧
    still (.seqStart 0) (sb .wait) ∧ out (.seqStop 0) (sb .wait) (fun t => decide ((gSq t 0).req = [.stop] ∧ (gSq (sqPc t 0) 0).st = .stopped)) ∧
    still (.seqStop 0) (sb .trapped) ∧
    out (.programMemoryWrite 0 0xFFF 0xFFFF) (sb .trapped) (fun t => decide ((gSq t 0).pm = [(0xFFF, 0x3FFF)])) ∧
    out (.programMemoryWrite 0 0xFFF 0xFFFF) (sb .run) (fun t => (gSq t 0).pmwErr && decide ((gSq t 0).pm = [])) ∧
    out (.dmWrite 0 511 7) (sb .run) (fun t => decide ((gSq t 0).dm = [(511, 7)])) ∧
    out (.seqMbinWrite 0 0xC0 0xABCD000000000000) (sb .run) (fun t => decide ((gBank t 0).mbx.mbin = [(3, 0xABCD)] ∧
      (gBank t 0).mbx.inFull = 8)) ∧
    out (.seqTrap 0 .parity) (sb .run) (fun t => decide ((gSq t 0).tcause = 6)) ∧
    out (.streamInFetch 0 .dataErr) (withBank { sin := { en := true, base := 0x20000000, wr := 257 } }) (fun t =>
      (gSq t 0).strErr && !(gBank t 0).sin.en) ∧
    out (.streamInFetch 0 .dataErr) { withBank { sin := { en := true, base := 0x20000000, wr := 256, size := 3 } } with
      ram := { wings := [(0, 5), (2, 6)] } } (fun t => decide ((gBank t 0).sin.fifo.take 2 = [5, 6])) ∧
    out (.streamOutFlush 0 .dataErr) (withBank { sout := { en := true, base := 0x20000000, size := 2, fifo := List.replicate 32 3, since := List.replicate 32 0 } })
      (fun t => decide (mget t.ram.wings 62 = 3 ∧ (gBank t 0).sout.wr = 32)) := by
  decide

/-! ### Engines: bill, fetch, accesses, events (spec/04 to spec/06, spec/13) -/

def withEng (e : Eng) : State := { base with en := { base.en with eng := [(0, e)] } }

/-- Test: BillAndThreadCommands. R122, R123; boundaries: position 62 and 63; the pairs 0, 1 and 63, 0. -/
theorem test_bill :
    let at' (s : State) (ec : Nat) : State := { s with ec := ec }
    let shd (l : List (Nat × Option W8)) : State := withEng { commit := some 0, shd := l }
    let refused (l : List (Nat × Option W8)) (why : BitVec 2) : Bool := out (.billSwitch 0) (shd l) fun t =>
      decide (gEng t 0 = { shd := l, reject := true, rejWhy := why } ∧ t.mg.log.early = [(0x6010, [0, why.toNat])])
    engUp base 0 = true ∧ out (.commit 0) (at' base 62) (fun t => decide ((gEng t 0).commit = some 1)) ∧
    out (.commit 0) (at' base 63) (fun t => decide ((gEng t 0).commit = some 2)) ∧ out (.commit 0) (withEng { commit := some 0 }) (fun t => decide ((gEng t 0).commit = some 0)) ∧
    refused [(1, some 0)] 1 ∧ refused [(63, some 0)] 1 ∧ refused [(0, some 0x80), (32, some 0x80)] 2 ∧
    refused [(0, some 1), (32, some 0x80)] 1 ∧
    out (.billSwitch 0) (shd [(32, some 0x80)]) (fun t => decide ((gEng t 0).live = [(32, some 0x80)] ∧ (gEng t 0).commit = none)) ∧
    out (.billSwitch 0) (withEng { commit := some 0, commitEc := true, shd := [(1, some 0)], shdWas := some ([(32, some 0x80)], 5) }) (fun t =>
      decide ((gEng t 0).live = [(32, some 0x80)] ∧ (gEng t 0).modeLive = 5 ∧ (gEng t 0).commit = some 1)) ∧
    still (.billSwitch 0) (at' (shd []) 1) := by
  decide

/-- T0 is ELASTIC. -/
def elastic (s : State) : State := { s with en := { s.en with eng := [(0, { modeLive := 0 })] } }

theorem test_events :
    let ev (t : Thread) : State := elastic (withT { t with vbase := 0x1000 })
    still (.eventEntry 0) base ∧ recognized (ev { st := .run, evEn := 6, pend := 6 }) 0 = some 1 ∧
    out (.eventEntry 0) (ev { st := .run, entering := some 1, evEn := 6, pend := 6, r := { pc := 0x20 } }) (fun t => decide ((regsOf t 0).pc = 0x1010 ∧
      (gThr t 0).save = some { pc := 0x20, fl := {}, succ := none } ∧ (gThr t 0).pend = 4 ∧ (gThr t 0).readyAt = 3)) ∧
    out (.eventEntry 0) (ev { st := .wait, entering := some 2, waitK := some (.waite 4), pend := 4, r := { pc := 0x20 } }) (fun t =>
      decide ((regsOf t 0).pc = 0x1020 ∧ ((gThr t 0).save.map SaveSt.pc) = some 0x24)) ∧
    out (.eventEntry 0) (ev { st := .wait, entering := some 2, waitK := some (.waite 4), pend := 4, save := some { pc := 0, fl := {}, succ := none } }) (fun t =>
      decide ((gThr t 0).st = .run ∧ (regsOf t 0).pc = 4 ∧ (gThr t 0).pend = 4)) ∧
    out (.threadWake 0) (withT { st := .wait, waitK := some .waitt, r := { wake := 1000 } }) (fun t => decide ((gThr t 0).st = .run)) ∧
    still (.threadWake 0) (withT { st := .wait, waitK := some .waitt, r := { wake := 1001 } }) ∧
    out (.threadWatchdog 0) (withT { st := .run, wdLimit := 3, wdCount := 3 }) (fun t => decide ((gThr t 0).fcode = 0x0E ∧
      (gEng t 0).fltmap = 1)) ∧
    still (.threadWatchdog 0) (withT { st := .run, wdLimit := 3, wdCount := 2 }) ∧ still (.threadWatchdog 0) (withT { st := .run }) := by
  decide

theorem test_restart :
    let fl : Thread := { st := .faulted, fcode := 3, wdCount := 2, save := some { pc := 0, fl := {}, succ := none } }
    out (.restart .host 0 true) (withT fl) (fun t => decide (gThr t 0 = { st := .run })) ∧
    out (.restart .host 0 false) (withT { fl with pendFault := some (6, 0x40) }) (fun t => decide ((gThr t 0).fcode = 6 ∧
      (regsOf t 0).pc = 0x40 ∧ (gThr t 0).pendFault = none)) ∧
    still (.restart .host 0 true) base ∧ mayRestart base (.thread 33) 0 = false ∧ still (.restart (.thread 33) 0 true) (withT fl) ∧
    out (.thrEvWrite .host 0 0x00003F8100000006) base (fun t => decide ((gThr t 0).evEn = 6 ∧ (gThr t 0).evPin = 0x81 ∧
      (gThr t 0).evDma = 0x3F)) ∧
    mayWritePage base (.thread 1) = false ∧ still (.thrEvWrite (.thread 1) 0 6) base := by
  decide

def fillOf (l : Nat) (w : List Nat) : Fill := { line := l, waiters := w, pin := false, job := none, due := 0 }
def withIc (ic : Icache) (pc : W48) : State :=
  { elastic (withT { st := .run, r := { pc := pc } }) with en := { (elastic (withT { st := .run, r := { pc := pc } })).en with ic := [(0, ic)] } }

/-- Test: FetchCommands. R139–R141, R143, R160; boundaries: three and four fills; the last and the first line of each space. -/
theorem test_fetch :
    let parks (s : State) (l : Nat) (p : Icache → Bool) : Bool := !canIssue s 0 && out (.fetchMiss 0) s fun t =>
      decide ((gThr t 0).park = some l) && p (gIc t 0)
    let many : List Fill := [fillOf 7 [], fillOf 8 [], fillOf 9 []]
    let takes (s : State) (c : W8) : Bool := out (.fetchMiss 0) s fun t => decide ((gThr t 0).st = .faulted ∧ (gThr t 0).fcode = c)
    takes base 0x0A ∧ takes (mThr base 0 fun t => { t with r := { pc := 0x1000000 } }) 0x05 ∧
    takes (withIc {} 0x1000000) 0x05 ∧ takes (withIc {} 0x3FFFFFFFC0) 0x05 ∧
    parks (withIc {} 0xFFFFC0) 0x3FFFF (fun c => decide (c.fills = [{ fillOf 0x3FFFF [0] with due := 24 }])) ∧
    parks (withIc {} 0x4000000000) 0x100000000 (fun c => decide (c.fills.map Fill.job = [some 1])) ∧
    parks (withIc { fills := many } 0x40) 1 (fun c => decide (c.fills = many ++ [{ fillOf 1 [0] with due := 24 }])) ∧
    parks (withIc { fills := many ++ [fillOf 1 [3]] } 0x40) 1 (fun c => decide (c.fills = many ++ [fillOf 1 [3, 0]])) ∧
    parks (withIc { fills := many ++ [fillOf 2 [3]] } 0x40) 1 (fun c => decide (c.fillWait = [{ line := 1, waiters := [0], pin := false, src := srcId 1 0 }])) ∧
    still (.fetchMiss 0) (withIc { lb := [{ line := 1, pinned := false, words := [], way := 0, ecc := 0 }] } 0x40) := by
  decide

theorem test_fills :
    let s (f : Fill) : State := { withIc { fills := [f] } 0x40 with
      en := { (withIc { fills := [f] } 0x40).en with thr := [(0, { st := .run, park := some 1, r := { pc := 0x40 } })] } }
    let ext (st : MpSt) : State := { s { fillOf 1 [0] with job := some 9 } with
      ms := { fin := [{ job := 9, off := 0, n := 64, st := st, data := List.replicate 64 0 }] } }
    out (.fillDone 0 1) (s (fillOf 1 [0])) (fun t => decide ((lineIn t 0 1).isSome = true ∧ (gThr t 0).park = none ∧ (gThr t 0).readyAt = 1)) ∧
    out (.fillDone 0 1) { s (fillOf 1 [0]) with ram := { repBad := [15] } } (fun t => decide ((gThr t 0).fcode = 6)) ∧
    jobDone (ext .okay) 9 = true ∧ out (.fillDone 0 1) (ext .okay) (fun t => (lineIn t 0 1).isSome) ∧
    out (.fillDone 0 1) (ext .dataErr) (fun t => decide ((gThr t 0).fcode = 6)) ∧
    out (.fillDone 0 1) (ext .timeout) (fun t => decide ((gThr t 0).fcode = 5)) ∧
    out (.stiCacheUpdate 0) (withT { st := .run, posted := [{ pc := 0, job := none, fault := none, sti := some (0x3C, 0x11223344) }] }) (fun t =>
      decide (t.ram.rep = [(0x3C, 0x44), (0x3D, 0x33), (0x3E, 0x22), (0x3F, 0x11)] ∧ (gThr t 0).posted.map Posted.sti = [none])) := by
  decide

def heldBy (op : HeldOp) (wr : List RWr) : State := withT { st := .run, held := some { op := op, writes := wr } }
/-- T0's access is the oldest of its engine's control-space accesses (R48). -/
def first (s : State) : State := mEng s 0 fun e => { e with ctlQ := [0] }

def finMs (st : MpSt) (data : List W8) : MemSys := { fin := [{ job := 9, off := 0, n := data.length, st := st, data := data }] }

/-- Test: HeldAccessResponses. R164, R166, R178, R391. -/
theorem test_held :
    let ld (a : W48) : State := heldBy (.load a 4 (.dZx 1)) [.a 2 8]
    let ends (s : State) (p : Regs → Bool) : Bool := out (.heldAccessResponse 0) s fun t => decide ((gThr t 0).held = none) && p (regsOf t 0)
    let ext (st : MpSt) : State := { heldBy (.loadExt 9 0x4000000000 4 (.dSx 1)) [] with ms := finMs st [1, 2, 3, 4] }
    let code (s : State) (c : W8) : Bool := out (.heldAccessResponse 0) s fun t => decide ((gThr t 0).fcode = c)
    ends (withLm (ld 0x10000004) [(4, 5)]) (fun r => decide (rD r 1 = 5 ∧ rA r 2 = 8 ∧ r.pc = 4)) ∧
    code { ld 0x10000004 with ram := { lmBad := [0] } } 6 ∧ code (ld 0x110FFFFC) 5 ∧
    ends { ld 0x20000000 with ram := { wings := [(0, 7)] } } (fun r => decide (rD r 1 = 7)) ∧
    code { ld 0x20000000 with ram := { wingsBad := [0] } } 6 ∧ ends (ext .okay) (fun r => decide (rD r 1 = 0x04030201)) ∧
    code (ext .dataErr) 6 ∧ code (ext .timeout) 5 ∧ still (.heldAccessResponse 0) (heldBy (.loadExt 9 0 4 (.dSx 1)) []) ∧
    still (.heldAccessResponse 0) base ∧ ctlTurn { heldBy (.ctlLoad 0x100 4 (.dZx 1) none) [] with hp := {} } 0 = false ∧
    (let u : State := { first (heldBy (.ctlLoad 0x100 4 (.dZx 1) none) []) with hp := { parEn := true } }
     regRead u 0 0x100 0x0F = (1, u) ∧ ends u (fun r => decide (rD r 1 = 1))) := by
  decide

theorem test_held_units :
    let code (s : State) (c : W8) : Bool := out (.heldAccessResponse 0) s fun t => decide ((gThr t 0).fcode = c)
    let at' (f : Option W8) : State := { heldBy (.atom 0 0x20000000 5 7 2 9) [] with mv := { auFin := [{ job := 9, old := 5, t := true, fault := f }] } }
    let tk : State := withPkt (heldBy (.take 4 true (some 5)) []) .window
    let ce (op : HeldOp) (c : Ce) : State := { heldBy op [] with en := { (heldBy op []).en with ce := [(0, c)] } }
    out (.heldAccessResponse 0) (at' none) (fun t => decide (rD (regsOf t 0) 2 = 5 ∧ (regsOf t 0).fl.t = true)) ∧
    code (at' (some 0x0C)) 0x0C ∧
    out (.heldAccessResponse 0) tk (fun t => decide ((gWin t 5).map Pkt.st = some (.held 0) ∧ rD (regsOf t 0) 4 = 0x100)) ∧
    out (.heldAccessResponse 0) (ce (.chw 0 9 false) { txst := .opn, cred := 1, txPeer := 4 }) (fun t => decide ((gCe t 0).cred = 0 ∧
      t.en.cb.fly.map CbMsg.kind = [.word (.data 9)])) ∧
    out (.heldAccessResponse 0) (ce (.chclose 0 true) { txst := .opn, cred := 1, txPeer := 4 }) (fun t => (regsOf t 0).fl.t &&
      decide ((gCe t 0).txst = .closing)) ∧
    out (.heldAccessResponse 0) (ce (.chr 0 2 false) { rxBusy := true, rxBuf := [.data 9] }) (fun t => decide (rD (regsOf t 0) 2 = 9 ∧
      (gCe t 0).rxBuf = [])) ∧
    out (.heldAccessResponse 0) (ce (.chw 0 9 false) { txst := .aborted }) (fun t => decide ((gThr t 0).fcode = 0x0B ∧ (gCe t 0).txst = .aborted)) ∧
    out (.heldAccessResponse 0) (first (heldBy (.ctlStore 8 4 2) [])) (fun t => decide ((gThr t 0).held = none ∧ (regsOf t 0).pc = 4)) ∧
    (anyWrite (heldBy (.ctlStore 8 4 2) []) (.thread 0) 8 (ctlBe 8 4) 2).2 = none := by
  decide

/-- Test: PostedAccessResponses. R151, R167, R498. -/
theorem test_posted :
    let p (job : Option Nat) (f : Option W8) (sti : Option (W48 × W32)) : Posted := { pc := 0x44, job := job, fault := f, sti := sti }
    let s (x : Posted) : State := withT { st := .run, posted := [x] }
    let ext (st : MpSt) : State := { s (p (some 9) none none) with ms := finMs st [] }
    let fence (n : Nat) : State := withT { st := .run, posted := po n, held := some { op := .fence, writes := [] } }
    let c : Instr := .postedAccessResponse 0 0
    out c (s (p none none none)) (fun t => decide ((gThr t 0).posted = [])) ∧ still c (s (p none none (some (0, 0)))) ∧
    out c (fence 1) (fun t => decide ((gThr t 0).held = none ∧ (regsOf t 0).pc = 4)) ∧
    out c (fence 2) (fun t => decide ((gThr t 0).held.isSome = true ∧ (gThr t 0).posted.length = 1)) ∧
    out c (s (p none (some 5) none)) (fun t => decide ((gThr t 0).fcode = 5 ∧ (regsOf t 0).pc = 0x44)) ∧
    out c (withT { st := .halt, posted := [p none (some 5) none] }) (fun t => decide ((gThr t 0).pendFault = some (5, 0x44) ∧
      (gThr t 0).st = .halt)) ∧
    out c (ext .okay) (fun t => decide ((gThr t 0).posted = [] ∧ (gThr t 0).st = .run)) ∧ still c (s (p (some 9) none none)) ∧
    out c (ext .dataErr) (fun t => decide ((gThr t 0).fcode = 6)) ∧ out c (ext .decErr) (fun t => decide ((gThr t 0).fcode = 5)) := by
  decide

/-- Test: ThreadDebugCommands. R203, R238, R476–R479. -/
theorem test_debug :
    let s (t : Thread) (e : Eng) : State := opened { withT t with en := { (withT t).en with eng := [(0, e)] } } 1
    let talking (s : State) : State := { s with en := { s.en with ce := [(0, { txst := .opn })] } }
    let pend (n : Nat) : Thread := { st := .run, dbg := { pending := true, deferred := n } }
    let halted : Thread := { st := .halt, dbg := { halted := true, reason := 3 } }
    let reason (c : Instr) (s : State) (r : BitVec 3) : Bool := out c s fun t => decide ((gThr t 0).st = .halt ∧ (gThr t 0).dbg.reason = r)
    still (.debugHalt 0) base ∧ reason (.debugHalt 0) (s { st := .run } {}) 1 ∧
    out (.debugHalt 0) (talking (s { st := .run } {})) (fun t => (gThr t 0).dbg.pending && decide ((gThr t 0).st = .run)) ∧
    reason (.debugHalt 0) (talking (s { st := .run } { noDefer := true })) 1 ∧
    still (.debugHaltEffect 0) (s { pend 0 with entryEnd := 3 } {}) ∧ still (.forcedHalt 0) (s { pend 4096 with entering := some 2 } {}) ∧
    reason (.debugHaltEffect 0) (s (pend 0) {}) 1 ∧ still (.debugHaltEffect 0) (talking (s (pend 0) {})) ∧
    reason (.forcedHalt 0) (talking (s (pend 4096) {})) 2 ∧ still (.forcedHalt 0) (talking (s (pend 4095) {})) ∧
    out (.debugResume 0) (s halted {}) (fun t => (gThr t 0).dbg.bpPass && decide ((gThr t 0).st = .run)) ∧
    out (.debugStep 0) (s halted {}) (fun t => (gThr t 0).dbg.stepping && decide ((gThr t 0).st = .run)) ∧
    out (.debugResume 0) (s { halted with pendFault := some (6, 8) } {}) (fun t => decide ((gThr t 0).fcode = 6)) ∧
    still (.debugResume 0) (s { st := .run } {}) ∧
    (let b : State := s { st := .run, r := { pc := 8 }, succ := some 0 } {}
     reason (.addressBreakpoint 0) { b with mg := { b.mg with bp := [(3, { en := true, addr := 8 })] } } 3) ∧
    still (.addressBreakpoint 0) (s { st := .run, r := { pc := 8 }, succ := some 0 } {}) := by
  decide

/-- Test: DebugLockCommands. R467–R470, R481. The 1 s boundary is 40,000,000,000 ticks. -/
theorem test_lock :
    let l (k : DbgLock) (now : W64) : State := { base with tb := { running := true, now := now }, mg := { base.mg with lock := k } }
    let fails (k : DbgLock) (now : W64) (why : W8) : Bool := out .unlock (l k now) fun t => decide (t.mg.lock.lastFail = why ∧ t.mg.lock.fails = 1)
    fails { busy := true } 0 6 ∧ fails { failTb := some 0 } 39999999999 6 ∧
    out .unlock (l { failTb := some 0 } 40000000000) (fun t => t.mg.lock.busy) ∧
    out .unlock { base with mg := {} } (fun t => decide (t.mg.lock.lastFail = 7)) ∧ still (.unlockDone 5) base ∧
    out (.seqDebugHalt 0) (opened (seq {}) 1) (fun t => decide ((gSq (sqPc t 0) 0).st = .halt ∧ (gSq (sqPc t 0) 0).kept = .run)) ∧
    still (.seqDebugHalt 0) (opened base 1) ∧ still (.seqDebugHalt 0) (seq {}) ∧
    out (.seqDebugResume 0) (opened (withBank { sq := { st := .halt, kept := .run } }) 1) (fun t => decide ((gSq t 0).st = .run)) ∧
    out (.seqDebugStep 0) (opened (withBank { sq := { st := .halt, kept := .run } }) 1) (fun t => (gSq t 0).stepping) ∧
    out (.seqBreakpoint 0) (seq { bpEn := true, bpAddr := 5, pc := 5 }) (fun t => decide ((gSq t 0).st = .halt)) ∧
    still (.seqBreakpoint 0) (seq { bpEn := true, bpAddr := 5, pc := 6 }) := by
  decide

/-! ### Callboard, timers, pins (spec/06, spec/07) -/

/-- One message for endpoint 0 in flight, endpoint 0 so. -/
def flying (k : CbKind) (src route : Nat) (c : Ce) : State :=
  { base with ec := 4, en := { base.en with ce := [(0, c)], cb := { fly := [{ kind := k, src := src, dst := 0, route := route, ec := 0 }] } } }

/-- Test: CallboardArrivals. R227–R231. -/
theorem test_arrivals :
    let go (i : Instr) (k : CbKind) (c : Ce) (p : Ce → List CbKind → Bool) : Bool := out i (flying k 4 9 c) fun t =>
      p (gCe t 0) (t.en.cb.fly.map CbMsg.kind)
    let tx (st : TxSt) (cred : Nat) : Ce := { txst := st, cred := cred, txPeer := 4, route := 9 }
    let rx (b : List CbWord) : Ce := { rxBusy := true, rxPeer := 4, rxRoute := 9, rxBuf := b }
    go (.cbOpenArrive 0) .opn {} (fun c f => c.rxBusy && decide (c.rxBuf = [.opn 4] ∧ f = [.grant])) ∧
    go (.cbOpenArrive 0) .opn (rx []) (fun c f => decide (c.waiting = [(4, 9)] ∧ f = [])) ∧
    go (.cbGrantArrive 0) .grant (tx .opening 0) (fun c _ => decide (c.txst = .opn ∧ c.cred = 7)) ∧
    go (.cbGrantArrive 0) .grant (tx .opn 3) (fun c _ => decide (c = tx .opn 3)) ∧
    go (.cbWordArrive 0) (.word (.data 5)) (rx [.opn 4]) (fun c _ => decide (c.rxBuf = [.opn 4, .data 5])) ∧
    go (.cbWordArrive 0) (.word (.data 5)) { rx [] with rxRoute := 8 } (fun c f => decide (c.rxBuf = [] ∧ f = [])) ∧
    go (.cbCreditArrive 0) .credit (tx .opn 0) (fun c _ => decide (c.cred = 1)) ∧
    go (.cbCreditArrive 0) .credit (tx .closing 0) (fun c _ => decide (c.cred = 0)) ∧
    go (.cbCloseNews 0) .closeNews (tx .closing 2) (fun c _ => decide (c.txst = .idle)) ∧
    go (.cbCloseNews 0) .closeNews (tx .opn 2) (fun c _ => decide (c.txst = .opn)) ∧
    go (.cbAbortArrive 0) (.abortRx 1) (rx [.data 2]) (fun c _ => decide (c.rxAbt = some 1 ∧ c.rxBuf = [.data 2])) ∧
    go (.cbAbortArrive 0) (.abortRx 1) (rx [.close]) (fun c _ => decide (c.rxAbt = none)) ∧
    go (.cbAbortArrive 0) (.abortRx 1) { waiting := [(4, 9), (4, 8)] } (fun c _ => decide (c.waiting = [(4, 8)])) ∧
    go (.cbAbortArrive 0) (.abortTx 2) (tx .opening 0) (fun c _ => decide (c.txst = .aborted ∧ c.cause = 2)) ∧
    go (.cbAbortArrive 0) (.abortTx 2) (tx .aborted 0) (fun c _ => decide (c.cause = 0)) ∧
    go (.cbNextGrant 0) .credit { waiting := [(3, 1), (8, 2)], lastGrant := 3 } (fun c f => c.rxBusy &&
      decide (c.rxPeer = 8 ∧ c.waiting = [(3, 1)] ∧ f = [.credit, .grant])) ∧
    go (.cbNextGrant 0) .credit { waiting := [(3, 1), (8, 2)], lastGrant := 8 } (fun c _ => decide (c.rxPeer = 3)) ∧
    still (.cbNextGrant 0) (flying .credit 4 9 (rx [])) := by
  decide

/-- Test: CallboardAborts. R233, R236, R242–R244. -/
theorem test_aborts :
    let s (c : Ce) : State := { base with en := { base.en with ce := [(0, c)] } }
    let idle (l : Nat) : Ce := { rxBusy := true, rxPeer := 4, stallLaps := l, tmo := 3 }
    let waits (d : Nat) : Thread := { st := .run, held := some { op := .chr d 0 false, writes := [] } }
    let ring (a : Nat) : Ce := { rxBusy := true, rxPeer := a }
    let still2 : State := { base with en := { base.en with
      thr := [(0, waits 0), (1, waits 0)], ce := [(0, ring 4), (4, ring 0)] } }
    isMapped base 0 = true ∧ mayWritePage base .host = true ∧
    out (.ceAbort .host 0) (s { rxBusy := true, rxPeer := 4 }) (fun t => decide ((gCe t 0).rxAbt = some 2 ∧
      t.en.cb.fly.map CbMsg.kind = [.abortTx 2])) ∧
    still (.ceAbort .host 0) base ∧ still (.ceAbort (.thread 1) 0) (s { rxBusy := true }) ∧
    out (.ceAbortTx .host 0) (s { txst := .opening, txPeer := 4 }) (fun t => decide ((gCe t 0).txst = .aborted ∧
      t.en.cb.fly.map CbMsg.kind = [.abortRx 2])) ∧
    still (.ceAbortTx .host 0) (s { txst := .aborted }) ∧
    out (.stalledRoute 0) (s (idle 3)) (fun t => (gCe t 0).stall && (gEng t 0).notice.getLsbD 0) ∧
    still (.stalledRoute 0) (s (idle 2)) ∧ still (.stalledRoute 0) (s { idle 3 with tmo := 0 }) ∧
    out .standstillEvaluation still2 (fun t => decide (t.en.cb.ssMap = [0, 1])) ∧
    out .standstillEvaluation { still2 with en := { still2.en with ce := [(0, ring 4), (4, { ring 0 with rxBuf := [.data 1] })] } }
      (fun t => decide (t.en.cb.ssMap = [])) := by
  decide

/-- Timer 0 of engine 0. -/
def withTmr (t : Tmr) : State := withEng { tmr := [(0, t)], tmr0 := [(0, t)] }

/-- Test: TimerEvents. R257, R260–R262, R266, R268. -/
theorem test_timer_events :
    let on (c p : W32) : Tmr := { en := true, c := c, p := p }
    let ev (i : Instr) (x : Tmr) (p : Tmr → Bool) : Bool := out i (withTmr x) fun t => p (gTmr t 0 0)
    tmrUp base 0 = true ∧ ev (.timerTop 0 0) (on 4 5) (fun t => t.sTop && t.down && decide (t.c = 5)) ∧
    still (.timerTop 0 0) (withTmr (on 3 5)) ∧
    ev (.timerTop 0 0) { on 0xFFFE 0x1FFFF with cfg := 1 } (fun t => t.sTop && decide (t.c = 0xFFFF)) ∧
    ev (.timerBottom 0 0) { on 1 5 with down := true, shadow := some 9 } (fun t => t.sBot && !t.down &&
      decide (t.c = 0 ∧ t.p = 9 ∧ t.shadow = none)) ∧ still (.timerBottom 0 0) (withTmr (on 1 5)) ∧
    ev (.timerCompareMatch 0 0) { on 2 5 with cfg := 0x10000, cmpA := 3 } (fun t => t.sCmpA && decide (t.c = 3)) ∧
    ev (.timerCompareMatch 0 0) { on 2 5 with chB := true, cfg := 2 } (fun t => t.sCmpB && !t.chB && decide (t.c = 3)) ∧
    still (.timerTrigger 0 0) (withTmr (on 2 5)) ∧
    ev (.timerTrigger 0 0) { on 2 5 with trg := true, cfg := 0x4000 } (fun t => decide (t.c = 0)) ∧
    ev (.timerTrigger 0 0) { c := 2, trg := true, cfg := 0x6000 } (fun t => t.en && decide (t.c = 2)) ∧
    ev (.timerTrigger 0 0) { c := 2, trg := true, cfg := 0x08000000 } (fun t => t.capDue) := by
  decide

/-- Test: TimerRegisterCommands; boundaries: fields at the first reserved value; a compare and a period at the count. -/
theorem test_timer_registers :
    let ev (i : Instr) (x : Tmr) (p : Tmr → Bool) : Bool := out i (withTmr { x with stepped := true }) fun t => p (gTmr t 0 0)
    let bad (d : W32) : Bool := ev (.tmrCfgWrite 0 0 d) { en := true } fun t => t.cfgErr && decide (t.cfg = 0)
    let run (c p : W32) (cfg : W32) : Tmr := { en := true, c := c, p := p, cfg := cfg }
    bad 3 ∧ bad 0xC ∧ bad 0x1400 ∧ bad 0x0C000000 ∧ bad 0x8 ∧ bad 1 ∧
    out (.tmrCfgWrite 0 1 2) base (fun t => (gTmr t 0 1).cfgErr) ∧
    ev (.tmrCfgWrite 0 0 0x43FF0001) {} (fun t => decide (t.cfg = 0x03FF0001)) ∧
    ev (.clr 0 0) { c := 4, down := true } (fun t => !t.down && decide (t.c = 0)) ∧
    (let high : State := withTmr { cfg := 2, c := 7 }
     out (.clr 0 1) high (fun t => decide ((gTmr t 0 0).c = 7)) ∧ still (.swcap 0 1) high) ∧
    out (.swcap 0 0) (withTmr { capQ := [1, 2, 3, 4] }) (fun t => let u := gTmr (tmrEnd t 0) 0 0; u.ovr && decide (u.drop = 1)) ∧
    out (.swcap 0 0) (withTmr { capQ := [1, 2, 3], c := 7 }) (fun t => decide ((gTmr (tmrEnd t 0) 0 0).capQ = [1, 2, 3, 7])) ∧
    out (.cmpWrite 0 0 false 5) (withTmr (run 4 9 0x10000)) (fun t => (gTmr t 0 0).sCmpA && decide ((gTmr t 0 0).c = 5)) ∧
    ev (.cntWrite 0 0 3) { byTmr := [2] } (fun t => decide (t.c = 0)) ∧
    ev (.cntWrite 0 0 9) { p := 9 } (fun t => t.down && decide (t.c = 9)) ∧ ev (.cntWrite 0 0 0) { p := 9, down := true } (fun t => !t.down) ∧
    ev (.periodWrite 0 0 4) { c := 4 } (fun t => t.down && decide (t.p = 4)) ∧
    ev (.periodWrite 0 0 4) (run 1 9 0) (fun t => decide (t.p = 9 ∧ t.shadow = some 4)) ∧
    ev (.periodWrite 0 0 4) (run 3 9 0x100000) (fun t => !t.down && decide (t.p = 4)) ∧
    ev (.periodWrite 0 0 4) (run 4 9 0x100000) (fun t => t.down && t.sTop && !t.sShort) ∧
    ev (.periodWrite 0 0 4) (run 5 9 0x100000) (fun t => t.down && t.sShort) ∧
    ev (.cmpWrite 0 0 false 5) (run 4 9 0x10000) (fun t => !t.sCmpA && decide (t.cmpA = 5)) ∧
    ev (.cmpWrite 0 0 false 4) (run 4 9 0x10000) (fun t => t.sCmpA) ∧ ev (.cmpWrite 0 0 true 4) (run 4 9 0x40000) (fun t => t.sCmpB) ∧
    ev (.cmpWrite 0 0 true 4) (run 4 9 2) (fun t => decide (tget none t.staged 5 = some 4 ∧ t.cmpB = 0)) ∧
    ev (.tmrCapRead .host 0 0) {} (fun t => t.emptyRd) ∧ ev (.tmrCapRead .host 0 0) { capQ := [3, 4] } (fun t => decide (t.capQ = [4])) ∧
    still (.tmrOvrClear 0 0) base ∧ ev (.tmrOvrClear 0 0) { ovr := true, drop := 3 } (fun t => decide (t.drop = 0)) := by
  decide

/-- Test: PinCommands. R272, R273, R276, R278, R280; boundaries: 31 and 32 ticks; 15 and 16 entries; ACT 7 and 8. -/
theorem test_pins :
    let ev (i : Instr) (x : Pin) (p : Pin → Bool) : Bool := out i (withPin x) fun t => p (gPin t 0)
    let cap : Cap := { t := 1, edge := 1, gap := false, vis := 0 }
    let cue (t : W64) (act : BitVec 4) : List Cue := [{ t := t, min := 0, act := act, ec := 1 }]
    ev (.flushCue 0) { cueQ := cue 5000 1 } (fun x => decide (x.cueQ = [])) ∧
    still (.flushCue 0) (withPin { cueQ := [{ t := 1016, min := 0, act := 1, ec := 0 }] }) ∧ ev (.flushCap 0) { capQ := [cap] } (fun x => decide (x.capQ = [])) ∧
    still (.pinOvrClear 0) base ∧ ev (.pinOvrClear 0) { ovr := true, drop := 2 } (fun x => decide (x = {})) ∧
    still (.pinEdge 0 false 0) base ∧
    ev (.pinEdge 0 true 0) { lastEdge := some 969 } (fun x => x.inp && x.filtered && decide (x.lastEdge = some 969)) ∧
    ev (.pinEdge 0 true 4) { lastEdge := some 969, capEdge := 1 } (fun x => decide (x.capQ = [{ t := 1001, edge := 1, gap := false, vis := 2 }])) ∧
    ev (.pinEdge 0 false 0) { inp := true, capEdge := 1 } (fun x => decide (x.capQ = [] ∧ x.lastEdge = some 1000)) ∧
    ev (.pinEdge 0 true 0) { filtered := true, capEdge := 3 } (fun x => !x.filtered && decide (x.drop = 1)) ∧
    ev (.pinEdge 0 true 0) { capEdge := 1, gapNext := true, capQ := List.replicate 15 cap } (fun x => !x.gapNext &&
      decide (x.capQ.length = 16 ∧ (x.capQ.getLast?.map Cap.gap) = some true)) ∧
    ev (.pinEdge 0 true 0) { capEdge := 1, capQ := List.replicate 16 cap } (fun x => x.gapNext && x.ovr && decide (x.drop = 1)) ∧
    out (.pinEdge 0 true 0) (withPins base { capEdge := 1 } { paused := true }) (fun t => decide ((gPin t 0).capQ = [])) ∧
    still (.cueFire 0) base ∧ tbAt base 1 = 1016 ∧ ev (.cueFire 0) { cueQ := cue 1015 1 } (fun x => decide (x.cueQ = [] ∧
      x.lastFire = some 1015) && x.out) ∧ still (.cueFire 0) (withPin { cueQ := cue 1016 1 }) ∧
    ev (.cueFire 0) { cueQ := cue 1000 2, lastFire := some 983 } (fun x => x.late && decide (x.lastFire = some 1015)) ∧
    still (.cueFire 0) (withPin { cueQ := cue 1000 2, lastFire := some 984 }) ∧
    ev (.cueFire 0) { cueQ := [{ t := 900, min := 1015, act := 1, ec := 0 }] } (fun x => x.late && decide (x.lastFire = some 1015)) ∧
    out (.pbRfxWrite 0 3 0x1800) base (fun t => !(tget {} (gBank t 0).rfx 3).arm) ∧
    out (.pbRfxWrite 0 3 0x1708) base (fun t => (tget {} (gBank t 0).rfx 3).arm) ∧
    out (.pbRfxWrite 0 3 0x1700) base (fun t => !(tget {} (gBank t 0).rfx 3).arm) := by
  decide

/-! ### Usher and box office (spec/10) -/

def withUsh (u : Ush) : State := { base with tr := { ush := u } }
def withBox (b : Box) : State := { base with tr := { box := b } }
/-- Thread 0 holds handle 0x100 of pool 0, of 256 bytes. -/
def holding : Box := { en := true, held := [{ master := 0, handle := 0x100, pool := 0, returning := false }] }

/-- Test: UsherCommands. R345, R346, R349, R351–R353; boundaries: lengths 0, 256 and 257; the age of one time unit. -/
theorem test_usher :
    let enter (s : State) (len : BitVec 17) (p : BitVec 2 × W32 → State → Bool) : Bool :=
      out (.ushEnter 0 0x100 len 3) s fun t => p (tget (0, 0) t.tr.ush.entres 0) t
    let head (st : PSt) (d : Dom) : State := withUsh { win := [(5, some (pkt st))], dom := [(3, { d with q := [5] })] }
    let rel (w : W32) : PSt := .released { word := w, newLen := none }
    let gone (t : State) : Bool := decide (gWin t 5 = none ∧ (gDom t 3).q = [])
    let due (now : W64) : State := { head .window { tmo := 1 } with tb := { running := true, now := now } }
    live base = true ∧ out (.ushEnter 0 0x100 64 3) base (fun t => decide ((gThr t 0).fcode = 0x0D)) ∧
    enter (withBox holding) 0 (fun r _ => decide (r.1 = 3)) ∧ enter (withBox holding) 257 (fun r _ => decide (r.1 = 3)) ∧
    enter { withBox holding with tr := { box := holding, ush := { dom := [(3, { lim := 1, q := [9] })] } } } 256
      (fun r _ => decide (r.1 = 2)) ∧
    enter (withBox holding) 256 (fun r t => decide (r = (1, 0) ∧ (gDom t 3).nextSeq = 1 ∧ (gDom t 3).q.length = 1)) ∧
    out (.dispatch 3) (head .window { engines := 1 }) (fun t => decide ((gEng (usherEnd t) 0).dq = [5] ∧ (gDom t 3).ptr = 0 ∧
      (gWin t 5).map Pkt.st = some (.queued 0))) ∧
    still (.dispatch 3) (head .window { engines := 2 }) ∧
    out (.retirement 3) (head (rel 0) {}) (fun t => gone t && decide ((gDom t 3).retired = 1 ∧ (gDom t 3).dropped = 1)) ∧
    (let up : State := { head (rel 0x201) {} with tr := { (head (rel 0x201) {}).tr with link := [(2, { st := .up })] } }
     out (.retirement 3) up fun t => gone t && decide ((gLink t 2).asm.q.map OutPkt.handle = [0x100] ∧ (gDom t 3).dropped = 0)) ∧
    out (.retirement 3) (head (rel 0x40003) {}) (fun t => decide ((gDom t 3).q = [] ∧ (gDom t 4).q = [5] ∧
      (gWin t 5).map Pkt.recirc = some true)) ∧
    out (.domainTimeout 3) (due 40000) (fun t => (gDom t 3).timedOut && (gEng t 0).notice.getLsbD 1) ∧
    still (.domainTimeout 3) (due 39999) ∧ still (.forceDrop (.thread 1) 3 0x100) (head .window {}) ∧
    out (.forceDrop .host 3 0x100) (head (rel 0) { relLast := some (0x100, 0) }) (fun t => (gDom t 3).fdLost) ∧
    out (.forceDrop .host 3 0x200) (head .window { relLast := some (0x200, 0) }) (fun t => (gDom t 3).fdLost) ∧
    out (.forceDrop .host 3 0x200) (head .window {}) (fun t => (gDom t 3).fdMiss) ∧
    out (.forceDrop .host 3 0x100) base (fun t => (gDom t 3).fdMiss) ∧
    out (.forceDrop .host 3 0x100) (head (.held 0) {}) (fun t => let u := forceEnd t 3; gone u && decide ((gDom u 3).fdrops = 1 ∧
      u.tr.ush.orphans.length = 1 ∧ (gDom t 3).q = [5])) := by
  decide

/-- Test: BoxCommands. R61–R63, R355, R359–R363, R380; boundaries: LOG2SIZE 7, 8, 16, 17; 512 handles in the cache. -/
theorem test_box :
    let box (i : Instr) (b : Box) (p : State → Bool) : Bool := out i (withBox b) p
    let pool (i : Instr) (q : Pool) (p : Pool → Bool) : Bool := out i
      { withBox { en := true, pool := [(0, q)] } with blk := { ready := true, portsOn := true } } fun t => p (gPool t 0)
    let on : Pool := { en := true, refill := true }
    let err (t : State) : Bool := t.tr.box.cfgErr
    let port : State := { base with tr := { box := { en := true }, dp := [(0, { en := true })] } }
    box .boxEnable { draining := true } err ∧ still .boxEnable (withBox { en := true }) ∧
    box .boxEnable { pool := [(0, { en := true, cache := [1] })] } (fun t => t.tr.box.en && (gPool t 0).refill &&
      decide ((gPool t 0).cache = [])) ∧
    out .boxDisable port err ∧ still .boxDisable (withBox {}) ∧ box .boxDisable { en := true } (fun t => t.tr.box.draining) ∧
    box .boxDrainDone { draining := true } (fun t => !t.tr.box.draining) ∧
    still .boxDrainDone (withBox { draining := true, pool := [(0, { cache := [1] })] }) ∧
    box (.boxPoolWrite 0 0x107) {} err ∧ box (.boxPoolWrite 0 0x111) {} err ∧ box (.boxPoolWrite 0 0x10A) { en := true } err ∧
    box (.boxPoolWrite 0 0x108) {} (fun t => (gPool t 0).en && decide ((gPool t 0).log2 = 8)) ∧
    box (.boxPoolWrite 0 0x10) {} (fun t => decide ((gPool t 0).log2 = 16)) ∧
    box (.boxAlloc .host 0) { en := true, pool := [(0, { cache := [0x40] })] } (fun t => decide
      (t.tr.box.held.map Held362.handle = [0x40] ∧ (gPool t 0).cache = [])) ∧ still (.boxAlloc .host 0) (withBox { en := true }) ∧
    box (.boxFree (.thread 0) 0x100) holding (fun t => decide (t.tr.box.held = [] ∧ (gPool t 0).cache = [0x100])) ∧
    out (.boxFree (.thread 0) 0x101) (withBox holding) (fun t => decide ((gThr t 0).fcode = 0x0D)) ∧
    still (.boxFree .host 0x100) (withBox holding) ∧
    pool (.pmAllocRequest 0) on (fun q => decide (q.req = some 64)) ∧
    still (.pmAllocRequest 0) (withBox { en := true, pool := [(0, { on with req := some 1 })] }) ∧
    pool (.pmHandleBeat 0 0x40 false false true) {} (fun q => decide (q.cache = [])) ∧
    pool (.pmHandleBeat 0 0x40 false false false) { on with req := some 64 } (fun q => decide (q.cache = [] ∧ q.req = some 63)) ∧
    pool (.pmHandleBeat 0 0 true false true) { on with req := some 64 } (fun q => decide (q.cache = [] ∧ q.req = none)) ∧
    pool (.pmHandleBeat 0 0x40000000 false false true) { on with req := some 2 } (fun q => decide (q.cache = [] ∧ q.req = some 1)) ∧
    pool (.pmHandleBeat 0 0 false true true) { on with req := some 64 } (fun q => q.retry && decide (q.req = none)) ∧
    pool (.pmHandleBeat 0 0x40 true false true) { on with req := some 3 } (fun q => q.refill && decide (q.cache = [0x40] ∧ q.req = none)) ∧
    pool (.pmFreeReturn 0 true) { toPm := [7, 8] } (fun q => decide (q.toPm = [8] ∧ q.lastFree = some 7)) ∧
    still (.pmFreeReturn 0 false) (withBox { pool := [(0, { toPm := [7] })] }) ∧
    pool (.boxRetryExpiry 0) { retry := true } (fun q => !q.retry) ∧ still (.boxRetryExpiry 0) base ∧
    pool (.waitingFifoRetry 0) { late := [3, 4] } (fun q => decide (q.fifo = [3] ∧ q.late = [4])) ∧ still (.waitingFifoRetry 0) base := by
  decide

/-! ### Lanes and lane groups (spec/09) -/

/-- Group 0 is on with this live configuration; lane 0 and its link are so. -/
def lane0 (c : W64) (x : Lane) (l : Link) : State :=
  { base with tr := { lg := [(0, { en := true, cfg := c, live := c })], lane := [(0, x)], link := [(0, l)] } }
def eth : W64 := 0x0000400000000001
def raw : W64 := 0x0000400000000800
def delim : W64 := 0x0000400000000403

/-- Test: LaneReceiveCommands. R305, R307, R309, R318, R321; boundaries: headers 0 and 3; 62 and 63 good ones. -/
theorem test_lane_receive :
    let rx (i : Instr) (s : State) (p : Lane → Bool) : Bool := out i s fun t => p (gLane t 0)
    let hunt (n off : Nat) : State := lane0 eth { rx := { lock := true, good := n, offset := off } } {}
    let bypass (cur : Option (List W8)) : State :=
      lane0 raw { rx := { lock := true, aligned := true, pos := some 0 } } { st := .up, dsk := 2, fr := { cur := cur } }
    still (.laneRxWord 0 1 5) base ∧ still (.laneRxWord 0 1 5) (lane0 eth {} {}) ∧
    rx (.laneRxWord 0 0 5) (hunt 62 65) (fun x => decide (x.rx.offset = 0 ∧ x.rx.good = 0 ∧ x.hdrErr = 1)) ∧
    rx (.laneRxWord 0 3 5) (hunt 62 0) (fun x => decide (x.rx.offset = 1 ∧ x.rx.good = 0)) ∧
    rx (.laneRxWord 0 1 5) (hunt 62 0) (fun x => !x.rx.aligned && decide (x.rx.good = 63)) ∧
    rx (.laneRxWord 0 2 5) (hunt 63 7) (fun x => x.rx.aligned && decide (x.rx.offset = 7 ∧ x.hdrErr = 0)) ∧
    out (.laneRxWord 0 2 0x0102) (bypass (some [7])) (fun t => decide ((gLink t 0).fr.cur = some [7, 2, 2, 1, 0, 0, 0, 0, 0, 0])) ∧
    out (.laneRxWord 0 1 0x1E) (bypass (some [7])) (fun t => decide ((gLink t 0).fr.cur = some [7])) ∧ still (.lnRxLockChange 0 false) base ∧
    rx (.lnRxLockChange 0 false) (bypass none) (fun x => !x.rx.lock && !x.rx.aligned && decide (x.unlock = 1)) ∧
    rx (.lnRxLockChange 0 false) (hunt 9 3) (fun x => !x.rx.lock && decide (x.rx.good = 0 ∧ x.unlock = 0)) ∧
    rx (.lnRxLockChange 0 true) (lane0 eth {} {}) (fun x => x.rx.lock && !x.rx.aligned) ∧
    rx (.lnRxLockChange 0 true) (lane0 raw {} {}) (fun x => x.rx.lock && x.rx.aligned) := by
  decide

/-- Test: LaneTransmitCommands. R327–R331, R344. -/
theorem test_lane_transmit :
    let pkt (n : Nat) : OutPkt := { handle := 0x100, len := n, pool := 0, chain := false, chidx := 0, append := false }
    let q (c : W64) (n : Nat) (st : LSt) : State := lane0 c {} { st := st, asm := { q := [pkt n] } }
    let asm (i : Instr) (s : State) (p : Asm → Bool) : Bool := out i s fun t => p (gLink t 0).asm
    let idle : Lane := { tx := { quiet := false } }
    let offLane (s : State) : State := mLg s 0 fun g => { g with en := false }
    let fin (j : Nat) (d : Dom) : State :=
      { base with ms := finMs .okay [], tr := { ush := { dom := [(0, d)] }, link := [(0, { fr := { inq := { writing := [{
          pkt := { bytes := [1, 2], info := 0, pool := 0, segs := 1, dc := 0, tb := 0, span := 0 }
          handles := [0x40], chidx := 0, job := j }] } } })] } }
    srcTurn (fin 9 {}) 0 = true ∧ jobDone (fin 9 {}) 9 = true ∧
    windowFull (fin 9 {}) = false ∧ domFull (fin 9 {}) 0 = false ∧
    out (.framerEnter 0) (fin 9 { q := [9], lim := 1 }) (fun t => t.tr.ush.wfull && decide (t.tr.ush.wsrc = [0])) ∧
    still (.framerEnter 0) (fin 8 {}) ∧
    still (.txFrameStart 0 { chain := .ok [], data := [.ok [7, 8]] } 2) (q delim 2 .forming) ∧
    asm (.txFrameStart 0 { chain := .ok [], data := [.ok [7, 8]] } 2) (q delim 2 .up) (fun a => a.busy && decide (a.q = [] ∧
      a.cur = [kChar 0xFB, dChar 7, dChar 8, kChar 0xFD])) ∧
    asm (.txFrameStart 0 { chain := .ok [], data := [.ok [7, 8]] } 2) (q eth 2 .locking) (fun a => a.busy && decide (a.cur = [
      ctlBlk [0x78, 0x55, 0x55, 0x55, 0x55, 0x55, 0x55, 0xD5], ctlBlk [0xAA, 7, 8, 0, 0, 0, 0, 0]])) ∧
    still (.txFrameStart 0 { chain := .ok [], data := [.ok [7, 8]] } 1) (q eth 2 .up) ∧
    live (q eth 16385 .up) = true ∧ (gLink (q eth 16385 .up) 0).asm.busy = false ∧ min 16385 16384 ≤ 16384 ∧ 16384 < 16385 ∧
    out (.laneTxWord 0) (offLane (lane0 eth { tx := { quiet := false, q := [(1, 5)], owed := 1 } } {})) (fun t => (gLane t 0).tx.quiet &&
      decide ((gLane t 0).tx.last = some (1, 5))) ∧ still (.laneTxWord 0) base ∧
    out (.laneTxWord 0) (lane0 eth { tx := { quiet := false, q := [(1, 5), (2, 6)] } } {}) (fun t => decide
      ((gLane t 0).tx.q = [(2, 6)] ∧ (gLane t 0).tx.last = some (1, 5))) ∧
    still (.laneTxWord 0) (lane0 eth idle {}) ∧
    out (.laneTxWord 0) (lane0 (eth + 0x1000000000000) { idle with mkpat := 9 } { st := .up }) (fun t => decide
      ((gLane t 0).tx.last = some (1, 9) ∧ (gLink t 0).asm.mkCnt = 0x3FFF)) ∧
    out (.laneTxWord 0) (lane0 eth idle { st := .up }) (fun t => decide ((gLane t 0).tx.last = some (1, 0x1E))) := by
  decide

/-- Test: LaneGroupCommands. R331–R337. -/
theorem test_lane_group :
    let lg (x : Lg) : State := { base with tr := { lg := [(0, x)] } }
    let on : Lg := { en := true, cfg := eth, live := eth }
    let go (i : Instr) (x : Lg) (p : Lg → State → Bool) : Bool := out i (lg x) fun t => p (gLg t 0) t
    let two (x : Lg) : State := { base with tr := { lg := [(0, x), (1, { on with rb := .drain })] } }
    still (.lgEnable 0) (lg on) ∧ lgRefused { cfg := eth + 4 } = true ∧ lgRefused { cfg := eth } = false ∧
    go (.lgEnable 0) { cfg := eth + 4 } (fun x _ => x.cfgErr && !x.en) ∧
    go (.lgEnable 0) { cfg := eth } (fun x t => x.en && decide (x.live = eth ∧ (gLink t 7).st = .locking) && !(gLane t 7).tx.quiet) ∧
    still (.lgDisable 0) base ∧ go (.lgDisable 0) on (fun x t => !x.en && decide ((gLink t 0).st = .off) && (gLane t 0).tx.quiet) ∧
    go (.rebond 0) { on with rebond := true } (fun x _ => x.rbEc) ∧
    out (.rebond 0) (two on) (fun t => (gLg t 0).rebond && decide ((gLg t 0).rb = .idle)) ∧
    go (.rebond 0) { on with cfg := 0 } (fun x _ => x.cfgErr && decide (x.rb = .idle)) ∧
    go (.rebond 0) { cfg := eth } (fun x _ => decide (x.live = eth)) ∧
    go (.rebond 0) on (fun x t => decide (x.rb = .quiet ∧ (gLink t 3).st = .rebonding)) ∧
    still (.rebondStart 0) (lg on) ∧ still (.rebondStart 0) (two { on with rebond := true }) ∧ go (.rebondQuietExpiry 0 5) { on with rb := .quiet, rebond := true, rbEc := true } (fun x _ => x.rebond && !x.rbEc) ∧
    go (.rebondStart 0) { on with rebond := true } (fun _ t => decide ((gLink t 0).st = .rebonding)) ∧
    still (.rebondDrainExpiry 0) (lg on) ∧ go (.rebondDrainExpiry 0) { on with rb := .drain } (fun x _ => decide (x.rb = .quiet)) ∧
    still (.rebondQuietExpiry 0 5) (lg on) ∧
    go (.rebondQuietExpiry 0 5) { on with rb := .quiet, rebond := true, cfg := raw } (fun x t => !x.rebond &&
      decide (x.live = raw ∧ x.rb = .idle ∧ (gLink t 0).st = .locking)) ∧
    out (.cntclr 0) (lane0 eth { hdrErr := 3 } { rxFrames := 4, st := .up }) (fun t => decide ((gLane t 0).hdrErr = 0 ∧
      (gLink t 0).rxFrames = 0 ∧ (gLink t 0).st = .up)) := by
  decide

/-! ### DUT ports (spec/10) -/

def withDp (d : Dp) : State := { base with tr := { dp := [(0, d)] } }
def ent (n : Nat) : DqEnt :=
  { handle := 0x100, seq := 0, len := n, od := 0, err := false, chain := false, chidx := 0, pool := 0, tb := 0, job := 0 }
def staged (n : Nat) : TxPkt := { ent := ent n, data := List.replicate n 7, err := false, lost := false, dc := 0 }
def pbe (dc : W64) : PbEntry := { dc := dc, tb := 0, seq := 0, handle := 0, len := 0, od := 0, port := 0, rx := false, err := false, span := 2 }

/-- Test: DutTransmitCommands. R68, R69, R365, R375, R376; boundaries: the last beat of 128 and of 1 byte; dc s - 1, s, s + 1. -/
theorem test_dut_transmit :
    let dp (i : Instr) (d : Dp) (p : Dp → Bool) : Bool := out i (withDp d) fun t => p (gDp t 0)
    let on (n : Nat) : Dp := { en := true, tx := [staged n], dq := [ent n] }
    let rp (dc : W64) (tx : List TxPkt) : Dp := { en := true, mode := .replay, dc := dc, tx := tx, rpTx := [(4, pbe 12)] }
    let sb (n i : Nat) (x : W16) : Bool := dp (.dpTxBeat 0 1 true) { on n with pres := some (i, 0) } fun d =>
      decide (d.tx = [] ∧ d.dq = [] ∧ d.cntTx = 1 ∧ d.lastTx.map Prod.snd = some x)
    dpRuns (withDp { en := true }) 0 = true ∧ still (.dpTxBeat 0 0 true) (withDp { en := true }) ∧
    still (.dpTxBeat 0 0 true) (withDp (rp 0 [])) ∧
    dp (.dpTxBeat 0 2 true) (on 129) (fun d => decide (d.dc = 2 ∧ d.pres = some (1, 1) ∧ d.lastTx.map Prod.snd = some 1)) ∧
    dp (.dpTxBeat 0 1 true) { on 300 with pres := some (1, 0) } (fun d => decide (d.pres = some (2, 0) ∧ d.lastTx.map Prod.snd = some 0)) ∧
    dp (.dpTxBeat 0 2 false) (on 129) (fun d => decide (d.dc = 2 ∧ d.pres = some (0, 1) ∧ d.lastTx = none)) ∧ sb 128 0 3 ∧ sb 129 1 6 ∧ sb 1 0 7 ∧
    still (.replaySopPresent 0 1) (withDp (rp 8 [staged 1])) ∧
    dp (.replaySopPresent 0 1) (rp 9 [staged 1]) (fun d => !d.diverge && decide (d.pres = some (0, 10))) ∧
    dp (.replaySopPresent 0 0) (rp 11 [staged 1]) (fun d => d.diverge && d.rpLate && d.rpLogTx) ∧
    dp (.replaySopPresent 0 1) (rp 9 []) (fun d => d.diverge) ∧
    dp (.dpStagePacket 0 (.ok []) { chain := .ok [], data := [.ok [1, 2]] }) { en := true, dq := [ent 3] } (fun d => decide (d.tx.map TxPkt.data = [[1, 2, 0]])) ∧
    dp (.dpStagePacket 0 (.ok []) { chain := .ok [], data := [.dataErr] }) { en := true, dq := [ent 3] } (fun d => decide (d.tx.map TxPkt.data = [[0, 0, 0]] ∧
      d.tx.map TxPkt.err = [true])) ∧ still (.dpStagePacket 0 (.ok []) { chain := .ok [], data := [] }) base := by
  decide

/-- Test: DutReceiveCommands. R88, R344, R366–R371. -/
theorem test_dut_receive :
    let dp (i : Instr) (d : Dp) (p : Dp → Bool) : Bool := out i (withDp d) fun t => p (gDp t 0)
    let on : Dp := { en := true }
    let mid : Dp := { en := true, rx := some ([5], 0) }
    let fin (j : Nat) : Dp := { en := true, inq := { writing := [{
      pkt := { bytes := [1, 2], info := 0, pool := 0, segs := 1, dc := 0, tb := 0, span := 0 }, handles := [0x40], chidx := 0, job := j }] } }
    let full : Dp := { en := true, fast := true }
    still (.dpRxBeat 0 [] true false 1 false 1) base ∧ rxReadyPort (withDp on) 0 = true ∧
    dp (.dpRxBeat 0 [1] true false 1 false 1) on (fun d => decide (d.rx = some ([1], 1) ∧ d.dc = 1)) ∧
    dp (.dpRxBeat 0 [1] false false 1 false 1) mid (fun d => decide (d.rx = some ([5, 1], 0))) ∧
    dp (.dpRxBeat 0 [1] false false 1 false 1) on (fun d => decide (d.frmErr = 1 ∧ d.rx = none)) ∧
    dp (.dpRxBeat 0 [1] true true 1 false 1) on (fun d => decide (d.rx = none ∧ d.frmErr = 1)) ∧
    (let w : State := { withDp (fin 9) with ms := finMs .okay [] }
     srcTurn w 64 = true ∧ jobDone w 9 = true ∧ windowFull w = false ∧ domFull w 0 = false) ∧ still (.dpRxEnter 0) (withDp (fin 9)) ∧
    dp (.dpHoldRaise 0 1) full (fun d => d.hold && decide (d.cause = 5 ∧ d.holds = 1)) ∧ still (.dpHoldRaise 0 1) (withDp on) ∧
    dp (.dpHoldRelease 0) { on with hold := true } (fun d => !d.hold) ∧ still (.dpHoldRelease 0) (withDp { full with hold := true }) ∧
    still (.dutClkRunningChange 0 false) base ∧ dp (.dutClkRunningChange 0 true) on (fun d => d.clkRun) ∧
    dp (.dutClkRunningChange 0 true) { on with cfg := 0x1000800, notice := some (3, false) } (fun d => decide (d.clkChg = 1)) ∧
    out (.dutClkRunningChange 0 true) (withDp { on with cfg := 0x1000800 }) (fun t => decide ((gDom t 0).q.length = 1) &&
      (gDp t 0).notice.isSome) ∧
    dp (.drainSample 0 1) { on with tx := [staged 1], smp := some (4094, 128, 0) } (fun d => decide (d.smp = some (4095, 128, 0))) ∧
    dp (.drainSample 0 1) { on with tx := [staged 1], smp := some (4095, 4096, 0) } (fun d => decide (d.samples = [1310720])) := by
  decide

/-- Test: DutControlCommands. R71, R91, R96, R369, R373; boundary: a ring that ends at the end of external memory. -/
theorem test_dut_control :
    let dp (i : Instr) (d : Dp) (p : Dp → Bool) : Bool := out i (withDp d) fun t => p (gDp t 0)
    let ring (b : W64) : Dp := { dqBase := b + 0x000A000000000000 }
    let ok : Dp := ring 0x4000000000
    let book (d : Dp) (u : Ush) : State := { base with tr := { dp := [(0, d)], ush := { u with pbEn := true } } }
    let pres : Dp := { en := true, pres := some (0, 0), tx := [staged 1], dq := [ent 1] }
    still (.dpEnable 0) (withDp { ok with en := true }) ∧ dp (.dpEnable 0) (ring 0x7FFFFFD000) (fun d => d.cfgErr && !d.en) ∧
    dp (.dpEnable 0) (ring 0x3FFFFFF000) (fun d => d.cfgErr) ∧ dp (.dpEnable 0) (ring 0x7FFFFFC000) (fun d => d.en) ∧
    dp (.dpEnable 0) ok (fun d => d.en && decide (d.mode = .plain)) ∧ dp (.dpEnable 0) { ok with mode := .replay } (fun d => d.en) ∧
    dp (.dpEnable 0) { ok with cfg := 0x801 } (fun d => d.en && !d.recording && decide (d.mode = .record)) ∧
    out (.dpEnable 0) (book { ok with cfg := 0x801 } { dom := [(0, { q := [1] })] }) (fun t => (gDp t 0).cfgErr && !(gDp t 0).en) ∧
    out (.dpEnable 0) (book { ok with cfg := 0x801 } { dom := [(0, { nextSeq := 8 }), (1, { nextSeq := 9 })] }) (fun t =>
      (gDp t 0).recording && decide ((gDom t 0).nextSeq = 0 ∧ (gDom t 1).nextSeq = 9)) ∧
    still (.dpDisable 0) base ∧ dp (.dpDisable 0) { en := true, rx := some ([], 0) } (fun d => !d.en && decide (d.frmErr = 1 ∧ d.rx = none)) ∧
    dp (.dpDisable 0) pres (fun d => decide (d.pres = none ∧ d.tx = [] ∧ d.disDrop = 1)) ∧
    dp (.dpDisable 0) { en := true, mode := .replay, rpTx := [(0, pbe 1)] } (fun d => decide (d.mode = .plain ∧ d.rpTx = [])) ∧
    dp (.dpCntclr 0) { cntTx := 4, clkChg := 2 } (fun d => decide (d.cntTx = 0 ∧ d.clkChg = 2)) ∧
    still (.dpRstNAssert 0) (withDp { rstN := false }) ∧ dp (.dpRstNRelease 0) { rstN := false } (fun d => d.rstN) ∧
    still (.dpRstNRelease 0) base ∧
    out (.dpRstNAssert 0) { withDp { dc := 5 } with aon := {} } (fun t => !(gDp t 0).rstN && decide ((gDp t 0).dc = 5)) ∧
    dp (.dpRstNAssert 0) { dc := 5, samples := [1] } (fun d => decide (d.dc = 0 ∧ d.samples = [])) ∧
    dp (.dpRstNAssert 0) { pres with dc := 5 } (fun d => decide (d.dc = 0 ∧ d.tx = [] ∧ d.rstDrop = 1)) := by
  decide

/-! ### DMA channels, atomic units, memory ports, host port (spec/11, spec/02) -/

def withDc (d : Dc) (lm : Mem) : State := { base with mv := { dc := [(0, d)] }, ram := { lm := lm } }
/-- A descriptor at local memory 0 of PE0: FILL of 3 bytes at 0x10000100 with 0xAABBCCDD. -/
def fillDesc (own : W8) : Mem :=
  [(9, 1), (11, 0x10), (16, 3), (20, 4), (24, 0xDD), (25, 0xCC), (26, 0xBB), (27, 0xAA)] ++ (if own = 0 then [] else [(31, own)])
/-- A descriptor at local memory 0 of PE0: 3 bytes from 0x10000200 to 0x10000100. -/
def copyDesc : Mem :=
  [(1, 2), (3, 0x10), (9, 1), (11, 0x10), (16, 3), (31, 0x80), (0x200, 7), (0x202, 9)]

/-- Test: DmaControl. R397, R399, R400, R402, R403; boundaries: ring sizes 1, 2, 16 and 17. -/
theorem test_dma_control :
    let dc (i : Instr) (d : Dc) (p : Dc → Bool) : Bool := out i (withDc d []) fun t => p (gDc t 0)
    let size (n : BitVec 5) (bad : Bool) : Bool := dc (.dcEnable 0) { log2 := n } fun d => decide (d.cfgErr = bad ∧ d.en = !bad)
    let set : DSet := { src := 0x10000200, dst := 0x10000100, len := 3 }
    let reh (st : DcSt) : Dc := { rehearsal := true, st := st, shd := set }
    size 1 true ∧ size 2 false ∧ size 16 false ∧ size 17 true ∧ still (.dcEnable 0) (withDc { st := .idle } []) ∧
    dc (.dcEnable 0) { pause := true } (fun d => d.fetch && decide (d.st = .paused)) ∧
    dc (.dcEnable 0) { reh .off with shValid := true } (fun d => !d.shValid && decide (d.st = .run ∧ d.act = set)) ∧
    dc (.dcDisable 0) { en := true, st := .run, stage := [1] } (fun d => !d.en && decide (d.st = .aborting ∧ d.stage = [])) ∧
    dc (.dcDisable 0) { en := true, st := .aborting } (fun d => !d.en && decide (d.st = .aborting)) ∧
    dc (.dcDisable 0) { en := true, st := .error } (fun d => decide (d.st = .off)) ∧
    dc (.pause 0) { st := .run } (fun d => decide (d.st = .pausing)) ∧ dc (.pause 0) { st := .idle } (fun d => decide (d.st = .paused)) ∧
    dc (.pauseClear 0) { st := .run, pause := true } (fun d => !d.pause) ∧
    dc (.pauseClear 0) { st := .paused, pause := true } (fun d => decide (d.st = .idle)) ∧
    dc (.pauseClear 0) { st := .paused, loaded := true, act := set, rdPos := 3, wrPos := 2 } (fun d => decide (d.st = .run)) ∧
    dc (.pauseClear 0) { st := .paused, loaded := true, act := set, rdPos := 3, wrPos := 3 } (fun d => decide (d.st = .idle)) ∧
    dc (.dmaAbort 0) { st := .paused } (fun d => decide (d.st = .aborting)) ∧ still (.dmaAbort 0) (withDc { st := .idle } []) ∧
    dc (.arm 0) { st := .run } (fun d => d.shValid) ∧ dc (.arm 0) { st := .idle } (fun d => d.shValid) ∧
    dc (.arm 0) (reh .idle) (fun d => decide (d.st = .run)) ∧
    dc (.arm 0) { reh .idle with shd := { set with len := 0 } } (fun d => d.err && decide (d.errCode = 4)) ∧
    dc (.doorbell 0) {} (fun d => d.dbPend) := by
  decide

/-- Test: DmaTransfers. R394–R397, R400–R402, R404. -/
theorem test_dma_transfers :
    let at' : Dc := { en := true, st := .idle, fetch := true, ringBase := 0x10000000 }
    let dc (i : Instr) (d : Dc) (lm : Mem) (p : Dc → State → Bool) : Bool := out i (withDc d lm) fun t => p (gDc t 0) t
    let fin (d : Dc) : Dc := { d with st := .run, loaded := true, wrPos := 3, act := { len := 3, flags := 2 } }
    still (.dmaDescriptorFetch 0 .timeout) base ∧
    dc (.dmaDescriptorFetch 0 .timeout) { at' with ringBase := 0x20000000, fetch := false, dbPend := true } []
      (fun d _ => !d.dbPend && decide (d.st = .idle)) ∧
    dc (.dmaDescriptorFetch 0 .decErr) { at' with ringBase := 0x4000000000 } [] (fun d _ => decide (d.st = .error ∧ d.errCode = 6)) ∧
    dc (.dmaDescriptorFetch 0 .timeout) at' (fillDesc 0) (fun d _ => !d.fetch && decide (d.st = .idle)) ∧
    dc (.dmaDescriptorFetch 0 .timeout) at' (fillDesc 0x81) (fun d _ => decide (d.st = .error ∧ d.errCode = 4)) ∧
    dc (.dmaDescriptorFetch 0 .timeout) at' (fillDesc 0x80) (fun d t => decide (d.st = .run ∧ d.acked = 0 ∧ (gDc (dmaEnd t) 0).acked = 3 ∧
      mread (dmaEnd t).ram.lm 0xFF 5 = [0, 0xDD, 0xCC, 0xBB, 0])) ∧
    dc (.dmaDescriptorFetch 0 .timeout) at' copyDesc (fun _ t => decide (dcStaged (gDc (dmaEnd t) 0) = 3 ∧
      mread (dmaEnd (dmaEnd t)).ram.lm 0xFF 5 = [0, 7, 0, 9, 0])) ∧
    still (.dmaCompletion 0 .timeout) (withDc { fin {} with wrPos := 2 } []) ∧
    dc (.dmaCompletion 0 .timeout) (fin { rehearsal := true }) [] (fun d t => d.done && decide (d.st = .idle ∧ d.doneCnt = 1 ∧
      t.mv.doneMap = 1)) ∧
    dc (.dmaCompletion 0 .timeout) (fin { rehearsal := true, shValid := true, shd := { src := 0x10000200, dst := 0x10000100, len := 1 } }) []
      (fun d _ => decide (d.st = .run ∧ d.act.len = 1)) ∧
    dc (.dmaCompletion 0 .timeout) (fin { ringBase := 0x10000000 }) (fillDesc 0x80) (fun d t => d.fetch && decide (d.next = 1 ∧
      d.st = .idle ∧ mread t.ram.lm 31 1 = [0])) ∧
    dc (.dmaCompletion 0 .decErr) (fin { ringBase := 0x4000000000 }) [] (fun d _ => decide (d.st = .error ∧ d.errAddr = 0x400000001E)) ∧
    dc (.dmaError 0) { st := .run, bad := some (5, 0x40) } [] (fun d t => d.err && decide (d.errCode = 5 ∧ d.st = .error ∧ t.mv.errMap = 1)) ∧
    still (.dmaError 0) base ∧ dc (.dmaError 0) { st := .error, errOpen := true, errCode := 6 } [] (fun d _ => d.err && !d.errOpen) ∧
    still (.dmaPaused 0) base ∧ dc (.dmaPaused 0) { st := .pausing, pause := true } [] (fun d _ => decide (d.st = .paused)) ∧
    dc (.dmaPaused 0) { fin {} with st := .pausing } [] (fun d _ => decide (d.st = .idle)) ∧
    still (.dmaAbortDone 0) base ∧ dc (.dmaAbortDone 0) { st := .aborting } [] (fun d _ => decide (d.st = .off)) := by
  decide

def withAu (u : Nat) (a : Au) : State := { base with mv := { au := [(u, a)] } }
/-- The line of 0x4000000040, of port 0, and that of the wings' first word. -/
def lineE : Nat := 0x100000001
def lineW : Nat := 0x800000

/-- Test: AtomicUnitCommands. R409–R411, R419. -/
theorem test_atomic_unit :
    let op (m fn : Nat) (a : W48) : AuOp := { master := m, fn := fn, addr := a, x := 5, y := 9, job := 3 }
    let asks : Thread := { st := .run, held := some { op := .atom 1 0x20000000 5 9 2 3, writes := [] } }
    let thr (s : State) : State := { s with en := { s.en with thr := [(0, asks)] } }
    let waits (u : Nat) (a : W48) (m : Nat) (line : Nat) : State :=
      withAu u { fills := [(line, 9)], q := [op m 1 a] }
    let wing (m : Nat) (b : Mem) (bad : List Nat) : State :=
      { thr (waits 8 0x20000000 m lineW) with ram := { wings := b, wingsBad := bad } }
    let ext (st : MpSt) : State := { waits 0 0x4000000040 0xF00 lineE with ms := finMs st (5 :: List.replicate 63 0) }
    let got (u : Nat) (line : Nat) (t : State) : Bool := (tget none (gAu t u).lines line).any fun l => l.dirty && decide (l.data.head? = some 9)
    let held (dirty : Bool) : AuLine := { data := 5 :: List.replicate 63 0, dirty := dirty, last := 0 }
    let go (h : Hcas) : State := { base with mv := { hcas := h } }
    still (.auLineFill 8 0x800000) base ∧
    out (.auLineFill 8 0x800000) (wing 0 [(0, 5)] []) (fun t => got 8 lineW t &&
      decide (t.mv.auFin = [{ job := 3, old := 5, t := true, fault := none }])) ∧
    out (.auLineFill 8 0x800000) (wing 0 [(0, 6)] []) (fun t => !got 8 lineW t &&
      decide (t.mv.auFin = [{ job := 3, old := 6, t := false, fault := none }])) ∧
    out (.auLineFill 8 0x800000) (wing 0 [] [7]) (fun t => decide (t.mv.auFin.map AuAns.fault = [some 6] ∧ (gAu t 8).q = [])) ∧
    out (.auLineFill 0 0x100000001) (ext .okay) (fun t => got 0 lineE t && t.mv.hcas.t && decide (t.mv.hcas.old = 5)) ∧
    out (.auLineFill 0 0x100000001) (ext .decErr) (fun t => t.mv.hcas.err && decide (t.mv.hcas.code = 5)) ∧
    still (.auLineWriteback 0 0x100000001) (withAu 0 { q := [op 0 1 0x4000000040] }) ∧
    still (.auLineWriteback 0 0x100000001) base ∧
    out (.auLineWriteback 8 0x800000) (withAu 8 { lines := [(lineW, some (held true))] }) (fun t =>
      decide (mread t.ram.wings 0 2 = [5, 0] ∧ tget none (gAu t 8).lines lineW = none)) ∧
    out (.auLineWriteback 0 0x100000001) (withAu 0 { lines := [(lineE, some (held false))] }) (fun t =>
      decide (tget none (gAu t 0).lines lineE = none ∧ (gMp t 0).stage = [])) ∧
    out (.auLineWriteback 0 0x100000001) (withAu 0 { lines := [(lineE, some (held true))] }) (fun t =>
      decide ((gMp t 0).stage.map MpReq.off = [64] ∧ (gAu t 0).wbs = [(lineE, 1)])) ∧
    out (.auLineWriteback 0 0x100000001) { withAu 0 { wbs := [(lineE, 9)] } with ms := finMs .decErr [] } (fun t =>
      decide ((gAu t 0).wbs = [] ∧ t.mg.log.early = [(0x2105, [0, 0x4000000040])])) ∧
    still .go (go { busy := true }) ∧ out .go (go { addr := 4 }) (fun t => t.mv.hcas.err && decide (t.mv.hcas.code = 4)) ∧
    out .go (go { addr := 0x10000000 }) (fun t => decide (t.mv.hcas.code = 5)) ∧
    out .go (go { addr := 0x4000000040 }) (fun t => t.mv.hcas.busy && decide ((gAu t 0).fills.map Prod.fst = [lineE])) ∧
    out .go { base with mv := { hcas := { addr := 0x4000000040, cmp := 5, new := 7 }, au := [(0, { lines := [(lineE, some (held false))] })] } }
      (fun t => t.mv.hcas.t && !t.mv.hcas.busy && decide (((tget none (gAu t 0).lines lineE).map AuLine.data).map List.head? =
        some (some 7))) := by
  decide

def rq (wr : Bool) (j : Nat) : MpReq := { write := wr, off := 0x40, n := 64, data := [], mask := [], src := 0, qos := 0, job := j }
def withMp (p : Mp) : State := { base with blk := { ready := true, portsOn := true }, ms := { mp := [(0, p)] } }

/-- Test: MemoryPortCommands. R52–R57, R59. -/
theorem test_memory_port :
    let b (st : BitVec 2) (ok : Bool) : MpBeat := { status := st, parOk := ok, data := List.replicate 64 7 }
    let out' (wr : Bool) : Mp := { out := [(3, some (rq wr 9))] }
    let mp (i : Instr) (p : Mp) (f : Mp → State → Bool) : Bool := out i (withMp p) fun t => f (gMp t 0) t
    let ends (i : Instr) (wr : Bool) (st : MpSt) : Bool := mp i (out' wr) fun p t => decide (p.out = [] ∧ t.ms.fin.map MpAns.st = [st])
    mpUp (withMp {}) = true ∧ still (.mpRequest 0) (withMp {}) ∧
    mp (.mpRequest 0) { stage := [rq false 9], wait := [rq true 8] } (fun p _ => decide (p.stage = [rq true 8] ∧ p.reqs = 1 ∧ p.wait = [])) ∧
    ends (.mpResponse 0 3 [b 0 true]) true .okay ∧ ends (.mpResponse 0 3 [b 0 true]) false .okay ∧
    ends (.mpResponse 0 3 [b 2 true]) false .decErr ∧ ends (.mpResponse 0 3 [b 3 true]) true .decErr ∧
    ends (.mpResponse 0 3 [b 1 true]) true .dataErr ∧ ends (.mpResponse 0 3 [b 0 false]) false .dataErr ∧
    mp (.mpResponse 0 3 [b 0 true]) { out := [(3, some { rq false 9 with n := 128 })] } (fun _ t =>
      decide (t.ms.fin.map MpAns.st = [.dataErr])) ∧
    mp (.mpResponse 0 3 [b 0 true]) { stuck := [2, 3] } (fun p _ => decide (p = { stuck := [2] })) ∧
    mp (.mpResponse 0 3 [b 0 true]) {} (fun p _ => p.tagUnexp) ∧
    mp (.mpTimeout 0 9) (out' true) (fun p t => decide (p.stuck = [3] ∧ p.tmos = 1 ∧ t.ms.fin.map MpAns.st = [.timeout])) ∧
    mp (.mpTimeout 0 9) { stage := [rq false 9, rq true 8] } (fun p _ => decide (p.stage = [rq true 8] ∧ p.stuck = [])) ∧
    still (.mpTimeout 0 7) (withMp (out' true)) := by
  decide

def hreq (wr : Bool) (off : Nat) (data : W64) : HReq :=
  { write := wr, addr := BitVec.ofNat 24 (off / 8), be := 0xFF, wdata := data, parBad := false, curtain := false, early := false }
def withQ (r : HReq) : State := { base with hp := { q := [r] } }

/-- Test: HostPortCommands. R42–R46, R77–R79, R393; boundaries: 7 and 8 requests; reasons 0x01 and 0x06. -/
theorem test_host_port :
    let ask : Instr := .hostRequest false 2 0xFF 3 false
    let rsp (s : State) (x : W64) (st : BitVec 2) : Bool := out .hostResponse s fun t =>
      decide (t.hp.rsp.map HRsp.rdata = some x ∧ t.hp.rsp.map HRsp.status = some st ∧ t.hp.q = [])
    let ctn (r : HReq) (reason : W8) : State := { withQ { r with curtain := true } with aon := { reason := reason, isolate := true } }
    let ap (j : Nat) (st : MpSt) : State := { withQ (hreq false 0x880000 0) with hp := { q := [hreq false 0x880000 0], apJob := some j }, ms := finMs st [1, 2, 3, 4, 5, 6, 7, 8] }
    out ask { base with hp := { parEn := true } } (fun t => decide (t.hp.q.map HReq.parBad = [true])) ∧
    out ask { base with hp := { q := List.replicate 7 (hreq false 0 0) } } (fun t => decide (t.hp.q.length = 8)) ∧
    still ask { base with hp := { q := List.replicate 8 (hreq false 0 0) } } ∧ still .hostResponse base ∧ still .hostTimeout base ∧
    rsp (ctn (hreq false 0 0) 3) 0x4B42000000000003 1 ∧ rsp (ctn (hreq false 0xFF8 0) 1) 0x4B42000000000001 1 ∧
    rsp (ctn (hreq false 0xFF8 0) 6) 0x4B42000000000006 1 ∧ rsp (ctn (hreq false 0xFF8 0) 4) 1 0 ∧
    rsp (ctn (hreq true 0xFF0 0) 4) 0 0 ∧ out .hostResponse (ctn (hreq true 0xFF8 0) 4) (fun t => !t.aon.isolate) ∧
    rsp (withQ { hreq false 0x100 0 with parBad := true }) 0 2 ∧
    out .hostResponse (withQ (hreq true 0x100 1)) (fun t => t.hp.parEn) ∧ rsp (withQ (hreq false 0x100 0)) 0 0 ∧
    rsp (ap 9 .okay) 0x0807060504030201 0 ∧ rsp (ap 9 .decErr) 0 0 ∧ rsp (ap 9 .timeout) 0 3 ∧ still .hostResponse (ap 8 .okay) ∧
    out .hostResponse (withQ (hreq false 0x880000 0)) (fun t => t.blk.unmapped) ∧
    still .hostTimeout (ctn (hreq false 0 0) 3) ∧ out .hostTimeout (withQ (hreq false 0 0)) (fun t => t.hp.tmo && decide (t.hp.q = [])) := by
  decide

/-- Test: RegisterAndTestCommands. R28, R44, R49, R471–R475; boundaries: the ends of a page and of the wings. -/
theorem test_registers :
    let put (a : BitVec 27) (be : W8) (x : W64) (p : State → Bool) : Bool := out (.registerWrite .host a be x) base p
    let tap (i : Instr) (s : State) (p : Tap → State → Bool) : Bool := out i s fun t => p t.mg.tap t
    let prog : State := { base with aon := { base.aon with keyBusy := true, keySlot := 2, keyDig := 5 } }
    mayWrite base .host 0x2000000 = true ∧ still (.registerWrite .host 0x100 0 1) base ∧
    decide ((regRead { base with lap := 6 } 0xF00 0x100098 0xFF).1 = 0x70000) ∧
    put 0x203FFF8 0x81 0x1100000000000022 (fun t => decide (mread t.ram.lm 0x3FFF8 8 = [0x22, 0, 0, 0, 0, 0, 0, 0x11])) ∧
    put 0x2040000 0xFF 1 (fun t => t.blk.unmapped && decide (t.ram.lm = [])) ∧
    put 0x5FFFFF8 0x80 0x3300000000000000 (fun t => decide (mread t.ram.wings 0x1FFFFFF 1 = [0x33])) ∧
    put 0x6000000 0xFF 1 (fun t => t.blk.unmapped) ∧ put 0x50000 0xFF 1 (fun t => t.blk.unmapped) ∧ put 0x100 1 1 (fun t => t.hp.parEn) ∧
    out (.registerWrite .host 0x8 1 2) { base with blk := { unmapped := true } } (fun t => !t.blk.unmapped) ∧
    out (.registerWrite .host 0x440000 0xFF 5) { base with mv := { doneMap := 7 } } (fun t => decide (t.mv.doneMap = 2)) ∧
    tapUp base = true ∧ tap .blkid base (fun p _ => decide (p.ir = 2 ∧ p.dr = 0x4B42080000000021)) ∧
    tap .bypass base (fun p _ => decide (p.ir = 0xFF)) ∧
    tap (.dbgacc false 0x20 0) base (fun p _ => decide (p.status = 2)) ∧
    tap (.dbgacc false 1 0) { base with aon := { reason := 4, porN := true } } (fun p _ => decide (p.status = 1 ∧ p.data = 0x4B42000000000004)) ∧
    tap (.keyprog 2 5 0) base (fun _ t => t.aon.keyBusy && decide (t.aon.keyDig = 5)) ∧ still (.keyprogDone true) base ∧
    tap (.keyprogDone true) prog (fun _ t => decide (t.aon.keys.map KeySlot.used = [false, false, true, false])) ∧
    tap (.keyprogDone false) prog (fun p _ => p.keyFail) ∧
    tap (.keyprog 2 5 0) { prog with aon := { prog.aon with keyBusy := false, keys := [{}, { used := true }, {}, {}] } } (fun p t =>
      p.keyRefused && !t.aon.keyBusy) ∧
    tap .wsExtest base (fun p _ => !p.wirOn && decide (p.wir = 1)) ∧ tap .wsIntestScan (opened base 4) (fun p t => p.wirOn && t.aon.isolate) ∧
    tap .wsBypass base (fun p _ => decide (p.wir = 0)) ∧
    tap (.wsPreload [3, 53116]) base (fun p _ => tget false p.cells 53116 && !tget false p.cells 4) ∧
    tap .wrstnAssert base (fun p _ => decide (p.cells = [])) ∧ tap .tapReset { base with mg := { base.mg with tap := { ir := 2 } } } (fun p _ =>
      decide (p = {})) := by
  decide

/-! ### Resets, start-up, clocks (spec/02, spec/03, spec/07, spec/12) -/

def withAon (a : Aon) : State := { base with aon := a }
/-- The AON registers of a running block. -/
def runs : Aon := base.aon

/-- Test: ResetAndSupplyCommands. R74, R80, R81, R86, R91, R95, R100. -/
theorem test_resets :
    let aon (i : Instr) (a : Aon) (p : Aon → State → Bool) : Bool := out i { withAon a with ram := { lm := [(3, 4)] } } fun t => p t.aon t
    let boot (a : Aon) (t : State) : Bool := decide (a.power = .boot ∧ t.blk.bootStep = 2)
    let half : JHalf := { hdr := some 1, flip := some 1, recs := [.fwInvalid 0] }
    still .vddAonUp base ∧ aon .vddAonUp { vddAon := false } (fun a _ => a.vddAon && decide (a.power = .aon ∧ a.reason = 1)) ∧
    aon .vddAonLoss runs (fun a t => decide (a.power = .off ∧ a.reason = 1 ∧ t.ram.lm = [])) ∧
    aon .porNAssert runs (fun a _ => !a.porN && decide (a.reason = 1 ∧ a.lastReason = 1)) ∧ still .porNAssert (withAon {}) ∧
    aon .porNRelease {} (fun a _ => a.porN && decide (a.reason = 1 ∧ a.lastReason = 1 ∧ a.power = .aon)) ∧
    aon .porNRelease { corePwrOk := true } (fun a t => boot a t && decide (a.reason = 1)) ∧ still .porNRelease base ∧
    aon .corePwrOkFall runs (fun a t => a.owedPwr.isSome && decide (a.reason = 3 ∧ a.lastReason = 3 ∧ t.ram.lm = [])) ∧
    still .corePwrOkFall (withAon {}) ∧ aon .corePwrOkRise { porN := true, reason := 3 } boot ∧
    aon .blkRstNAssert runs (fun a t => decide (a.reason = 2 ∧ a.owedRst = some 2 ∧ t.ram.lm = [(3, 4)] ∧ t.en = {})) ∧
    out .blkRstNAssert (withPin { ovr := true, drop := 5 }) (fun t => decide (t.mg.log.early = [(0x6201, [0, 5])])) ∧
    still .blkRstNAssert (withAon { blkRstN := false }) ∧ still .blkRstNRelease base ∧
    aon .blkRstNRelease { runs with blkRstN := false, clkLoss := true, reason := 5, power := .boot } (fun a t => boot a t && !a.clkLoss) ∧
    aon .isolate runs (fun a _ => a.isolate && decide (a.reason = 4)) ∧ still .isolate (withAon {}) ∧ still .isolateClear base ∧
    aonOpen (withAon { runs with isolate := true, reason := 4 }) = true ∧
    aon .isolateClear { runs with isolate := true, reason := 4, power := .boot } boot ∧
    aon (.wrapperClockLoss 1) runs (fun a t => a.clkLoss && decide (a.owedClk = some 1 ∧ a.reason = 5 ∧ t.en = base.en)) ∧
    still (.wrapperClockLoss 1) (withAon { runs with clkLoss := true }) ∧ still .vddMramLoss base ∧
    rulingHalf { base with mg := { base.mg with mram := { j0 := half } } } = some 0 := by
  decide

/-- Clocks in their windows, in hertz. -/
def good : List (Nat × Nat) := [(0, 2500000000), (1, 1000000000), (2, 500000000), (3, 100000000), (4, 156250000)]
def env0 : BootEnv := { meas := good, rampFail := [], bistFail := [], chal := 77 }

/-- Test: StartUpCommands. R82, R99, R101, R102, R104. -/
theorem test_start_up :
    let s0 (n : BitVec 4) : State := { pending := [], aon := { runs with power := .boot, reason := 2 }, blk := { bootStep := n } }
    let eng (st : PePower) (g : PeGoal) (bist : Bool) : State :=
      { base with en := { base.en with pe := [(5, { st := st, goal := g, bistReq := bist })] }, ram := { lm := [(0x140000, 7)] } }
    let pe (i : Instr) (s : State) (p : Pe → Bool) : Bool := out i s fun t => p (gPe t 5)
    still (.startUp env0) base ∧ fwChoice (hostRelease (s0 2) 77) = none ∧
    out (.startUp env0) (s0 2) (fun t => t.blk.recovery && decide (t.aon.power = .recovery ∧ t.aon.reason = 0 ∧ t.mg.lock.chal = 77)) ∧
    out .mramNotReady (s0 2) (fun t => t.blk.recovery && t.mg.log.opened) ∧ still (.clockCheck env0) (s0 2) ∧
    out (.clockCheck { env0 with meas := (0, 2750000001) :: good.tail }) (s0 5) (fun t => decide (t.blk.step5Log = [0]) && clkIsOut t 0 && !clkIsOut t 1) ∧
    clocksBad (clocksTaken (s0 5) env0) env0 = [] ∧
    still (.engineRampDone 5) base ∧ still (.engineZeroingDone 5) base ∧ still (.engineBistDone 5 true) base ∧
    out (.engineRampDone 5) (eng .ramp .none false) (fun t => decide ((gPe t 5).st = .init ∧ t.ram.lm = [])) ∧
    pe (.engineRampTimeout 5) (eng .ramp .none false) (fun x => x.failed && decide (x.st = .off)) ∧
    pe (.engineZeroingDone 5) (eng .init .none true) (fun x => decide (x.st = .bist)) ∧
    pe (.engineZeroingDone 5) (eng .init .none false) (fun x => decide (x.st = .on)) ∧
    lowestUnmapped (eng .init .map false) = some 1 ∧
    out (.engineZeroingDone 5) (eng .init .map false) (fun t => decide (physOf t 1 = 5)) ∧
    pe (.engineBistDone 5 true) (eng .bist .none true) (fun x => decide (x.st = .on)) ∧
    pe (.engineBistDone 5 false) (eng .bist .none true) (fun x => x.failed && decide (x.st = .off)) := by
  decide

def withTb (b : Tb) : State := { base with tb := { b with running := true } }

/-- Test: ClockAndSensorCommands. R85, R88, R251–R254, R425, R426; boundaries: the 15th and 16th sample; both edges of a pulse's window. -/
theorem test_clocks :
    let tb (i : Instr) (b : Tb) (p : Tb → Bool) : Bool := out i (withTb b) fun t => p t.tb
    let sample (k : Nat) (now : W64) : Tb := { k := k, ref := some 0, now := now }
    let pps (now : W64) (p : Tb → Bool) : Bool := tb .ppsPulse { now := now, pps := 0, ppsSeen := 1, ppsEn := true } p
    let poll (s : State) (id f : Nat) (p : State → Bool) : Bool := out (.clockPoll [(id, f)]) s p
    let half : JHalf := { hdr := some 1, flip := some 1 }
    let mram (s : State) : State := { s with mg := { s.mg with mram := { j0 := half }, log := { opened := true } } }
    still .tbSample (withTb { discEn := false }) ∧ tb .tbSample { now := 5 } (fun b => decide (b.ref = some 5 ∧ b.k = 0)) ∧
    tb .tbSample (sample 14 262145) (fun b => decide (b.k = 15 ∧ b.sAcc = 65536) && b.unsettled) ∧
    tb .tbSample (sample 15 262145) (fun b => !b.unsettled && decide (b.corr = BitVec.ofInt 32 (-16384))) ∧
    tb .tbSample { sample 16 262143 with corr := 13743895 } (fun b => b.clamp && decide (b.corr = 13743895)) ∧
    tb .refclkGap { k := 4 } (fun b => b.gap && decide (b.k = 0)) ∧
    out .refclkLoss base (fun t => t.tb.holdover && clkIsOut t 4) ∧ still .refclkReturn base ∧
    out .refclkReturn (withTb { holdover := true }) (fun t => !t.tb.holdover) ∧
    pps 39960000000 (fun b => b.ppsLock) ∧ pps 39959999984 (fun b => !b.ppsLock) ∧ pps 40040000000 (fun b => b.ppsLock) ∧
    pps 40040000016 (fun b => !b.ppsLock && decide (b.ppsSeen = 2)) ∧
    tb .ppsPulse { now := 40000000000, ppsSeen := 2, ppsLock := true } (fun b => decide (b.x = 262144 * 65536)) ∧
    still .ppsMissing base ∧ tb .ppsMissing { ppsSeen := 2, ppsLock := true } (fun b => !b.ppsLock && decide (b.ppsSeen = 0)) ∧
    still .tbRateJournal (mram (withTb { corr := 68719 })) ∧
    out .tbRateJournal (mram (withTb { corr := 68720 })) (fun t => decide (t.tb.corrJrn = 68720 ∧ (jHalf t 0).recs = [.tbRate 68720])) ∧
    poll base 2 500000000 (fun t => !clkIsOut t 2) ∧ poll base 2 550000001 (fun t => clkIsOut t 2) ∧
    poll { base with clk := { out := 4 } } 2 500000000 (fun t => !clkIsOut t 2) ∧
    poll base 4 0 (fun t => t.tb.holdover) ∧
    poll (withDp { en := true, clkRun := true }) 16 255000001 (fun t => (gDp t 0).fast && (gDp t 0).hold) ∧
    poll (withTb { holdover := true }) 0 0 (fun t => decide (t.aon.power = .boot)) := by
  decide

/-- Boundaries of a thermal sensor: WARN at 800, left at 784; CRIT at 896, which isolates the block. -/
theorem test_sensors :
    let had (x : Sens) : State := { base with blk := { ready := true, uncal := true }, mg := { base.mg with sm := { alive := true, sens := [(0, x)] } } }
    let sense (raw : Int) (x : Sens) (p : Sens → State → Bool) : Bool := out (.sensorPoll [(0, raw)]) (had x) fun t => p (gSens t 0) t
    still (.sensorPoll [(0, 1)]) { base with mg := {} } ∧ sensFits 0 799 = true ∧
    sense 799 {} (fun x _ => !x.warn && decide (x.value = 799)) ∧
    sense 800 {} (fun x t => x.warn && t.mg.sm.sensBit && decide (t.mg.log.early = [(0x7101, [0, 800])])) ∧
    sense 785 { warn := true } (fun x _ => x.warn) ∧ sense 784 { warn := true } (fun x _ => !x.warn) ∧
    sense 895 { warn := true } (fun _ t => !t.aon.isolate) ∧ sense 896 { warn := true } (fun _ t => t.aon.isolate) := by
  decide

/-! ### The stage manager (spec/12) -/

/-- A command with these bytes stands alone in the ring. -/
def ring (m : Mem) (s : State) : State := { s with mg := { s.mg with sm := { s.mg.sm with cmdRing := m, cmdWr := 1 } } }
/-- The command completes with this result. -/
def ends (c : Instr) (m : Mem) (s : State) (res : W8) : Bool := out c (ring m s) fun t =>
  decide (mread t.mg.sm.cplRing 0 2 = [mget m 0, res] ∧ t.mg.sm.cmdRd = 1 ∧ t.mg.sm.cplWr = 1)
def inSlot (o : OpSlot) : State := { base with mg := { base.mg with sm := { alive := true, ops := [(0, { o with gen := 1 })] } } }
/-- The journal's half 0 rules. -/
def ruled (s : State) : State :=
  { s with mg := { s.mg with mram := { s.mg.mram with j0 := { hdr := some 1, flip := some 1, units := 1 } }, log := { opened := true } } }
def img (len : Nat) (x : List Section) : Image :=
  { kind := 1, format := 1, len := len, version := 3, secver := 0, keyslot := 0, reserved := false, pubkey := 0, sig := 0, sections := x }
/-- SWAPTMO set to 1,000. -/
def swaptmo : Mem := [(0, 0x10), (8, 5), (10, 4), (16, 0xE8), (17, 3)]

theorem test_turn : smTurn (ring [(0, 1)] base) .ready 0x01 (1 :: List.replicate 63 0) := by
  unfold smTurn
  decide

/-- Test: ShortManagerCommands, configuration, calibration and log. -/
theorem test_short_commands :
    let bad : State := { base with mg := { base.mg with mram := { wrErr := true } } }
    let cal (o n : W8) : Mem := [(0, 0x20), (8, o), (9, 0xFF), (10, n)]
    still .identify { ring [(0, 1)] base with aon := {} } ∧
    ends .identify [(0, 1), (5, 9)] base 3 ∧ ends .status [(0, 2)] base 0 ∧ ends .configSet [(0, 0x10), (8, 9), (10, 4)] base 3 ∧
    out .configSet (ring swaptmo base) (fun t => decide (t.mg.sm.cfg = [{ item := 5, key := 0, val := [0xE8, 3, 0, 0], persist := false }])) ∧
    ends .configSet [(0, 0x10), (8, 5), (10, 4)] base 3 ∧ ends .configSet ((0, 0x10) :: (1, 1) :: swaptmo.drop 1) bad 0x0E ∧
    out .configSet (ring ((0, 0x10) :: (1, 1) :: swaptmo.drop 1) (ruled base)) (fun t => decide ((jHalf t 0).recs =
      [.config 5 [0xE8, 3, 0, 0]])) ∧
    ends .configSet swaptmo { base with aon := { base.aon with power := .recovery } } 5 ∧
    still .configSet (ring swaptmo { base with aon := { base.aon with power := .boot } }) ∧
    out .configSet (ring [(0, 0x10), (8, 2), (10, 2)] base) (fun t => decide (physOf t 0 = 0x7F ∧ (gPe t 0).st = .off)) ∧
    out .configSet (ring [(0, 0x10), (8, 2), (10, 2), (16, 1), (17, 1)] base) (fun t => decide ((gPe t 1).st = .ramp ∧ (gPe t 1).goal = .map)) ∧
    ends .configGet [(0, 0x11), (8, 9)] base 3 ∧ ends .configGet [(0, 0x11), (8, 5), (10, 4)] base 3 ∧
    ends .calRead (cal 0xE8 24) base 0 ∧ ends .calRead (cal 0xE9 24) base 3 ∧ ends .calRead (cal 0 25) base 3 ∧ ends .calRead (cal 0 0) base 3 ∧
    ends (.calWrite (.ok [5])) [(0, 0x21), (8, 0x3F), (10, 1), (20, 0x40)] base 3 ∧
    ends (.calWrite (.ok [5, 5])) [(0, 0x21), (8, 0xDF), (9, 5), (10, 2), (20, 0x40)] base 3 ∧
    ends (.calWrite .decErr) [(0, 0x21), (8, 0xDF), (9, 5), (10, 1), (20, 0x40)] base 7 ∧
    ends (.calExport .timeout) [(0, 0x22), (16, 0x20), (20, 0x40)] base 3 ∧ inExt 0x4000000000 0x10000 = true ∧
    ends (.logRead .timeout) [(0, 0x30), (20, 0x40)] base 3 ∧ ends (.logRead .timeout) [(0, 0x30), (12, 1), (20, 0x40)] base 0 := by
  decide

theorem test_op_commands :
    let fw (st : OpSt) (c : Bool) : State := inSlot { st := st, cmd := [0x40], committed := c }
    let onOp (i : Instr) (op : W8) (s : State) (p : OpSlot → Bool) : Bool := ends i [(0, op), (8, 8)] s 0 &&
      out i (ring [(0, op), (8, 8)] s) fun t => p (gOp t 0)
    let refused (i : Instr) (op : W8) (s : State) : Bool := ends i [(0, op), (8, 8)] s 9
    let book (d : Dp) : State := { base with tr := { dp := [(0, d)], ush := { pbEn := true, pbWr := 2 } } }
    let arm : Mem := [(0, 0x78), (8, 1), (20, 0x40)]
    let tbl : ReplayTable := { ranges := [(0, 0)], entries := [(0, pbe 12)] }
    ends .fwActivate [(0, 0x41), (8, 2)] base 3 ∧ ends .fwActivate [(0, 0x41)] (fw .running false) 4 ∧
    ends .fwActivate [(0, 0x41)] (inSlot { st := .running, cmd := [0x31] }) 9 ∧ ends .fwActivate [(0, 0x41), (8, 1)] base 6 ∧
    ends (.replayArm none) arm base 3 ∧ ends (.replayArm (some tbl)) arm (book { en := true, mode := .record }) 3 ∧
    ends (.replayArm none) arm (book { en := true }) 7 ∧ rangeEntries tbl 0 false = [(0, pbe 12)] ∧
    out (.replayArm (some tbl)) (ring arm (book { en := true })) (fun t => decide ((gDp t 0).mode = .replay ∧ (gDp t 0).rpTx = [(0, pbe 12)])) ∧
    ends .suspend [(0, 0xF0), (8, 16)] (fw .running false) 0x0A ∧ ends .opStatus [(0, 0xF3), (8, 9)] (fw .running false) 0x0A ∧
    onOp .suspend 0xF0 (fw .running false) (fun o => o.susp) ∧ onOp .suspend 0xF0 (fw .intermission false) (fun o => !o.susp) ∧
    refused .suspend 0xF0 (fw .done false) ∧ refused .suspend 0xF0 (inSlot { st := .running, cmd := [0x31] }) ∧
    onOp .resume 0xF1 (fw .intermission false) (fun o => decide (o.st = .running)) ∧ refused .resume 0xF1 (fw .running false) ∧
    onOp .cancel 0xF2 (fw .running false) (fun o => decide (o.st = .cancelling)) ∧ refused .cancel 0xF2 (fw .running true) ∧
    onOp .opStatus 0xF3 (fw .failed false) (fun o => decide (o.st = .failed)) := by
  decide

/-- Test: LongManagerCommands. R302, R432, R444–R447, R451, R454–R463. -/
theorem test_long_commands :
    let starts (i : Instr) (m : Mem) (s : State) (total arg : Nat) : Bool := out i (ring m s) fun t =>
      decide ((gOp t 0).st = .running ∧ (gOp t 0).total = total ∧ (gOp t 0).arg = arg ∧ (gOp t 0).gen = 1)
    let op (cmd : List W8) (o : OpSlot) : State := inSlot { o with cmd := cmd, st := .running }
    let ended (i : Instr) (s : State) (st : OpSt) (res : W8) : Bool := out i s fun t =>
      decide ((gOp t 0).st = st ∧ (gOp t 0).result = res) && t.mg.sm.freed.contains 0
    let addr (c : W8) (n : W8) : Mem := [(0, c), (20, 0x40), (24, n)]
    let spare (s : State) : State := { s with en := { s.en with pe := [(0, { st := .on }), (64, { st := .off })] } }
    still (.journalCompact 1) base ∧ still (.fwUpdate 1 .memErr) { base with mg := {} } ∧
    ended (.fwUpdate 1 .memErr) (inSlot { cmd := [0x40], st := .cancelling }) .cancelled 0x0C ∧
    ends (.journalCompact 1) [(0, 0x31)] base 9 ∧ starts (.journalCompact 1) [(0, 0x31)] (ruled base) 0 0 ∧
    ends (.journalCompact 1) [(0, 0x31)] (ruled (inSlot { cmd := [0x31], st := .running })) 4 ∧
    out (.journalCompact 1) (ruled (op [0x31] { phase := 1 })) (fun t => decide (rulingHalf t = some 1 ∧ (gOp t 0).st = .done)) ∧
    ends (.fwUpdate 1 .memErr) [(0, 0x40), (20, 0x40), (26, 0x40), (24, 1)] base 3 ∧ starts (.fwUpdate 1 .memErr) (addr 0x40 9) base 9 1 ∧
    ended (.fwUpdate 1 .memErr) (op [0x40] {}) .failed 7 ∧
    out (.fwUpdate 4 (.ok (img 9 []))) (op [0x40] { total := 9, img := some (img 9 []) }) (fun t => decide ((gOp t 0).prog = 4)) ∧
    ended (.fwUpdate 9 (.ok (img 8 []))) (op [0x40] { total := 9, img := some (img 8 []), arg := 1 }) .failed 6 ∧
    ends (.calPins 0 []) [(0, 0x23)] base 3 ∧ starts (.calPins 0 []) [(0, 0x23), (8, 5)] base 2 0 ∧
    ends (.repertoryLoad 1 .memErr) [(0, 0x50), (24, 9)] base 3 ∧ starts (.repertoryLoad 1 .memErr) (addr 0x50 9) base 9 0 ∧
    ended (.repertoryLoad 1 .memErr) (op [0x50] {}) .failed 7 ∧ ended (.repertoryLoad 1 (.ok (img 9 []))) (op [0x50] { total := 9 }) .failed 6 ∧
    starts (.repertorySwap 1 .memErr) (addr 0x51 9) base 9 0 ∧
    out (.repertorySwap 1 .memErr) (op [0x51] { phase := 2, img := some (img 9 [.cptmap 0 [(5, 0x40)]]) }) (fun t => (gThr t 0).swap &&
      decide ((gOp t 0).phase = 3)) ∧
    still (.repertorySwap 1 .memErr) (op [0x51] { phase := 3, img := some (img 9 [.cptmap 0 [(5, 0x40)]]) }) ∧
    ends (.engineSwing 1) [(0, 0x60), (8, 64), (9, 0xFF)] base 3 ∧ ends (.engineSwing 1) [(0, 0x60)] base 8 ∧
    out (.engineSwing 1) (ring [(0, 0x60), (9, 0xFF)] (spare base)) (fun t => decide ((gOp t 0).arg ≠ 0 ∧ (gPe t (gOp t 0).arg).st = .ramp)) ∧
    ends (.engineBist 1 true) [(0, 0x61), (8, 68)] base 3 ∧ ends (.engineBist 1 true) [(0, 0x61)] base 3 ∧
    starts (.engineBist 1 true) [(0, 0x61), (8, 67)] base 1 67 ∧
    (let b : State := op [0x61] { arg := 5 }
     let c : State := { b with en := { b.en with pe := [(5, { st := .bist })] } }
     ended (.engineBist 1 true) c .done 0 ∧ out (.engineBist 1 false) c fun t => decide ((gPe t 5).st = .off ∧ t.mg.sm.retired = [5])) ∧
    ends (.checkpoint 1 .timeout) [(0, 0x70)] base 9 ∧ ends (.restore 1 .timeout) [(0, 0x71), (8, 2)] base 3 := by
  decide

/-- CHECKPOINT and RESTORE, suspend points, timeouts, units. R445, R447, R460–R463. -/
theorem test_checkpoint :
    let bases : CfgItem := { item := 4, key := 0, val := [0, 0, 0, 0, 0x40, 0, 0, 0, 0, 0, 0, 0, 0x41, 0, 0, 0], persist := false }
    let withB (s : State) : State := { s with mg := { s.mg with sm := { s.mg.sm with cfg := [bases] } } }
    let op (cmd : List W8) (o : OpSlot) : State := inSlot { o with cmd := cmd, st := .running }
    let port (s : State) : State := { s with tr := { dp := [(0, { en := true })] } }
    let at' (now : W64) (s : State) : State := { s with tb := { running := true, now := now } }
    out (.checkpoint 1 .timeout) (ring [(0, 0x70)] (withB (port base))) (fun t => (gDp t 0).hold && (gDp t 0).ckHold &&
      decide ((gOp t 0).total = 0x3431000)) ∧
    still (.checkpoint 1 .timeout) (port (op [0x70] {})) ∧ still (.checkpoint 1 .timeout) { op [0x70] {} with ec := 1 } ∧
    out (.checkpoint 1 .timeout) (op [0x70] {}) (fun t => t.mg.sm.frozen && decide ((gOp t 0).phase = 1)) ∧
    out (.checkpoint 1 .decErr) (op [0x70] { phase := 2, total := 1 }) (fun t => decide ((gOp t 0).phase = 4)) ∧
    out (.checkpoint 1 (.ok [])) (op [0x70] { phase := 4 }) (fun t => decide ((gOp t 0).st = .failed ∧ (gOp t 0).result = 7)) ∧
    still (.checkpoint 1 (.ok [])) { op [0x70] { phase := 4 } with ec := 1 } ∧
    out (.checkpoint 9 (.ok [])) (withB (op [0x70] { phase := 2 })) (fun t => t.mg.ckA.isSome && decide ((gOp t 0).phase = 3)) ∧
    out (.checkpoint 9 .timeout) (op [0x70] { phase := 3 }) (fun t => decide ((gOp t 0).st = .done)) ∧
    out (.suspendPoint 0) (op [0x23, 0, 0, 0, 0, 0, 0, 0, 3] { susp := true, prog := 1, total := 2 }) (fun t => decide ((gOp t 0).st = .intermission)) ∧
    still (.suspendPoint 0) (op [0x23] { susp := true, prog := 2, total := 2 }) ∧
    (let o (us : W8) : State := op (0x60 :: List.replicate 11 0 ++ [us]) { phase := 2 }
     out (.longOperationTimeout 0) (at' 40000 (o 1)) (fun t => decide ((gOp t 0).st = .cancelled)) ∧
     still (.longOperationTimeout 0) (at' 39999 (o 1))) ∧
    still .logUnitWrite base ∧ still .journalCompaction base ∧
    out (.mramUnitWrite 64 (List.replicate 64 7) true) base (fun t => decide (mread t.mg.mram.bytes 63 3 = [0, 7, 7])) ∧
    out (.mramUnitWrite 64 (List.replicate 64 7) false) base (fun t => t.mg.mram.wrErr) := by
  decide

/-- Operations at work: ENGINE_SWING at its curtain, RESTORE's last step, CAL_PINS' pause, a loaded repertory comes into use. -/
theorem test_works :
    let op (cmd : List W8) (o : OpSlot) : State := inSlot { o with cmd := cmd, st := .running }
    let quiet (s : State) : State := { s with en := { s.en with thr := [] } }
    let bases : CfgItem := { item := 4, key := 0, val := [0, 0, 0, 0, 0x40, 0, 0, 0, 0, 0, 0, 0, 0x41, 0, 0, 0], persist := false }
    let ck : Ckpt := { base := 0x4000000000, gen := 1, tb := 0, digest := 0, mask := [0], lm := [], wings := [(3, 4)], thr := [], eng := [], ce := []
                       cb := {}, ush := {}, box := {}, dc := [], bank := [], pin := [], au := [], lg := [], lane := [], link := [], dp := [] }
    let saved (s : State) : State := { s with mg := { s.mg with ckA := some ck, sm := { s.mg.sm with cfg := [bases] } } }
    let sw : State := op [0x60] { phase := 2, arg := 64 }
    stoppedCount (quiet sw) 0 = 32 ∧ out (.engineSwing 1) (quiet sw) (fun t => decide (physOf t 0 = 64 ∧ (gOp t 0).st = .done)) ∧
    out (.engineSwing 1) sw (fun t => decide ((gOp t 0).prog = 31 ∧ physOf t 0 = 0)) ∧
    out (.restore 1 .timeout) (ring [(0, 0x71)] (saved base)) (fun t => decide ((gOp t 0).st = .running)) ∧
    ends (.restore 1 .timeout) [(0, 0x71)] (saved { base with en := {} }) 0x0D ∧
    out (.restore 1 .timeout) (saved (op [0x71] { phase := 3 })) (fun t => decide (t.ram.wings = [(3, 4)] ∧ (gOp t 0).st = .done)) ∧
    out (.calPins 0 []) (op [0x23, 0, 0, 0, 0, 0, 0, 0, 3] { total := 2 }) (fun t => (gBank t 0).paused && decide ((gOp t 0).phase = 1)) ∧
    out (.repertoryLoad 1 .memErr) (op [0x50] { phase := 2, img := some (img 9 []) }) (fun t => decide ((gOp t 0).st = .done)) := by
  decide

theorem test_log_unit :
    let rec' (n : W32) : LogRec := { tb := 0, seq := n, code := 1, data := [] }
    let s : State := { base with mg := { base.mg with log := { opened := true, buf := [rec' 0, rec' 1, rec' 2] } } }
    out .logUnitWrite s fun t => decide (t.mg.log.ring = [rec' 1, rec' 0] ∧ t.mg.log.buf = [rec' 2]) := by
  decide

/-! ### The whole machine -/

def stepped (s : State) (p : State → Bool) : Bool :=
  match step s with
  | .next t => p t
  | _ => false

/-- Test: StepTakesFront, IdleTick, IssueRules. -/
theorem test_step :
    stepped (put 0x70000000 (.nop 0) { base with pending := [.nop 0, .nop 1] }) (fun t => decide (t.pending = [.nop 1] ∧ (regsOf t 0).pc = 4)) ∧
    stepped { base with ec := 256 } (fun t => decide (t.pending = [.standstillEvaluation] ∧ t.phase = 1)) ∧
    stepped (put 0x70000000 (.nop 0) { base with phase := 1 }) (fun t => decide (t.pending = [.nop 0] ∧ t.phase = 2)) ∧
    stepped { mEng base 0 (fun e => { e with slot := some 3, prev := some 2 }) with ec := 63, phase := 2 } (fun t => decide (t.ec = 64 ∧ t.lap = 1 ∧
      t.tb.now = 1016 ∧ t.phase = 0 ∧ (gEng t 0).slot = none ∧ (gEng t 0).prev = some 3)) ∧
    stepped { base with phase := 2, mg := { base.mg with sm := { restart := true } } } (fun t => t.mg.sm.alive && !t.mg.sm.restart) ∧
    fetches (put 0x70000000 (.nop 0) base) 0 = true ∧ canIssue (put 0x70000000 (.nop 0) (mEng base 0 fun e => { e with prev := some 0 })) 0 = false ∧
    canIssue (put 0x70000000 (.nop 0) (withT { st := .run, owe := 1 })) 0 = false ∧ still (.add 0 1 2 3) (put 0x70000000 (.nop 0) base) ∧
    (let two : State := { base with ec := 2, en := { base.en with thr := [(0, { st := .run, succ := some 0 }), (1, { st := .run, succ := some 0 })] } }
     issuer (mEng two 0 fun e => { e with modeLive := 0 }) 0 = some 0 ∧ issuer (mEng two 0 fun e => { e with modeLive := 0, rr := 0 }) 0 = some 1 ∧
     issuer (mEng two 0 fun e => { e with modeLive := 3 }) 0 = none ∧ issuer { two with ec := 1 } 0 = some 1) ∧
    stepped {} (fun t => decide (t = {})) ∧ canIssue {} 0 = false ∧ still (.nop 0) {} ∧ sqIssues {} 0 = false ∧ still (.kpNop 0) {} := by
  decide

theorem test_reset : memOk State.reset = true ∧ State.reset.aon.reason = 1 := by decide

/-- The read that CAL_WRITE asks for. -/
theorem test_mover_read : (moverRead base smSrc 3 0x4000000000 1 (.ok [5])).2 = some [5] := by decide

/-- What signatures and digests answer is open (log 5): where they accept, START_UP, FW_UPDATE, FW_ACTIVATE and the repertory commands
find an image that is not refused. -/
theorem test_accepted (s : State) (hk : keyMatches s 0 0 = true) (hs : Config.ecdsaOk 0 (imgDigest (img 9 [])) 0 = true) :
    imgRefused s 1 0 (img 9 []) = none := by
  unfold imgRefused
  simp only [show (img 9 []).kind = 1 from rfl, show (img 9 []).keyslot.toNat = 0 from rfl, show (img 9 []).pubkey = 0 from rfl,
    show (img 9 []).sig = 0 from rfl, show (img 9 []).secver = 0 from rfl, hk, hs]
  decide

end Sys2Proof.Tests
end

section
/-! SUPPORT. The box office while nothing waits on it, and its stop (spec/10 R359–R363; log 27): a write of 0 to `BOX_CFG.EN` sends
the handles that masters have given back, and that wait for room, to the pool manager, so they leave the record of R362. -/

namespace Sys2Proof.Machine

/-! ### Folds over the pools -/

/-- What one step of a fold keeps, the fold keeps. -/
theorem foldNat_keeps {σ β : Type} {f : σ → Nat → σ} (P : σ → β) (hf : ∀ s n, P (f s n) = P s) (l : List Nat) :
    ∀ s, P (foldNat f s l) = P s := by
  induction l with
  | nil => exact fun _ => rfl
  | cons n l ih => exact fun s => (ih (f s n)).trans (hf s n)

/-- A fold whose steps change nothing changes nothing. -/
theorem foldNat_fixed {σ : Type} {f : σ → Nat → σ} {s : σ} {l : List Nat} (hf : ∀ n, f s n = s) : foldNat f s l = s := by
  induction l with
  | nil => rfl
  | cons n l ih => rw [foldNat, hf, ih]

/-- A part of a pool that an update keeps is the same in every pool. -/
theorem gPool_mPool_part {β : Type} (P : Pool → β) (s : State) (p j : Nat) {f : Pool → Pool} (hf : ∀ q, P (f q) = P q) :
    P (gPool (mPool s p f) j) = P (gPool s j) := by
  by_cases h : j = p
  · rw [h, gPool_mPool_same, hf]
  · rw [gPool_mPool_ne s f h]

/-! ### A box office on which nothing waits -/

/-- Nothing waits on the box office: no packet stands in the window, no requester has a packet or a chain under way, and the waiting
FIFOs are empty (R353, R358, R360). -/
structure BoxIdle (s : State) : Prop where
  win : s.tr.ush.win = []
  waiting (r : Nat) : (gInq s r).waiting = []
  live (r : Nat) : (gInq s r).live ≤ 1
  fifo (p : Nat) : (gPool s p).fifo = []

theorem roomIn_off {s : State} (hen : s.tr.box.en = false) (p : Nat) : roomIn s p = s := by
  simp [roomIn, hen]

theorem chainGo_idle {s : State} (h : BoxIdle s) (r : Nat) : chainGo s r = s := by
  have hl : ¬1 < (gInq s r).live := Nat.not_lt.2 (h.live r)
  simp [chainGo, h.waiting r, hl]

theorem boxServe_idle {s : State} (h : BoxIdle s) (n : Nat) : boxServe n s = s := by
  cases n with
  | zero => rfl
  | succ n =>
    have hnone : ((List.range 8).find? fun p => !(gPool s p).fifo.isEmpty && !(gPool s p).cache.isEmpty) = none := by
      simp [h.fifo]
    rw [boxServe, hnone]

/-- A stopped box office on which nothing waits has nothing to go on with. -/
theorem boxRun_off_idle {s : State} (hen : s.tr.box.en = false) (h : BoxIdle s) : boxRun s = s := by
  have hroom : s.tr.ush.win.foldl roomWin (foldNat roomIn s (List.range 8)) = s := by
    rw [foldNat_fixed (roomIn_off hen), h.win, List.foldl_nil]
  simp only [boxRun, hroom, foldNat_fixed (chainGo_idle h), ite_self, boxServe_idle h]

/-! ### The stop of the box office (R361) -/

/-- One pool when EN goes to 0: its refill ends, and what waited for room in its cache is on its way to the pool manager. -/
def poolStop (s acc : State) (p : Nat) : State := mPool acc p fun q => { q with
  refill := false, retry := false, toPm := q.toPm ++ q.waitFree ++ (returned s p).map Held362.handle, waitFree := [] }

/-- The box office's own registers and record when EN goes to 0. -/
def boxStopRegs (s : State) : State :=
  mBox s fun b => { b with en := false, filled := 0, draining := true, held := b.held.filter fun h => !h.returning }

/-- The block with EN at 0 and its pools stopped, before the box office goes on. -/
def boxStop (s : State) : State := foldNat (poolStop s) (boxStopRegs s) (List.range 8)

theorem boxOff_eq {s : State} (hp : anyPortOn s = false) (hen : s.tr.box.en = true) : boxOff s = boxRun (boxStop s) := by
  simp only [boxOff, hp, hen]
  rfl

/-- What the stop of a pool keeps, the stop of all pools keeps. -/
theorem boxStop_keeps {β : Type} (P : State → β) {s : State} (hP : ∀ t p, P (poolStop s t p) = P t) :
    P (boxStop s) = P (boxStopRegs s) := foldNat_keeps P hP _ _

theorem boxStop_en (s : State) : (boxStop s).tr.box.en = false :=
  boxStop_keeps (fun t : State => t.tr.box.en) fun _ _ => rfl

/-- Of the record of R362, the stop leaves the handles that masters have not given back. -/
theorem boxStop_held (s : State) : (boxStop s).tr.box.held = s.tr.box.held.filter fun h => !h.returning :=
  boxStop_keeps (fun t : State => t.tr.box.held) fun _ _ => rfl

theorem boxStop_ush (s : State) : (boxStop s).tr.ush = s.tr.ush :=
  boxStop_keeps (fun t : State => t.tr.ush) fun _ _ => rfl

theorem boxStop_inq (s : State) (r : Nat) : gInq (boxStop s) r = gInq s r :=
  boxStop_keeps (fun t : State => gInq t r) fun _ _ => rfl

theorem boxStop_fifo (s : State) (p : Nat) : (gPool (boxStop s) p).fifo = (gPool s p).fifo :=
  boxStop_keeps (fun t : State => (gPool t p).fifo) fun t n => gPool_mPool_part Pool.fifo t n p fun _ => rfl

theorem boxStop_idle {s : State} (h : BoxIdle s) : BoxIdle (boxStop s) where
  win := by rw [boxStop_ush, h.win]
  waiting r := by rw [boxStop_inq, h.waiting]
  live r := by rw [boxStop_inq]; exact h.live r
  fifo p := by rw [boxStop_fifo, h.fifo]

/-- BOX_DISABLE with every port off and nothing waiting: the stop is all that happens. -/
theorem exec_boxDisable_idle {s : State} (hup : up s = true) (hp : anyPortOn s = false) (hen : s.tr.box.en = true)
    (h : BoxIdle s) : exec .boxDisable s = .next (boxStop s) := by
  calc exec .boxDisable s = act (up s) boxOff s := rfl
    _ = .next (boxOff s) := act_true hup
    _ = .next (boxStop s) := by rw [boxOff_eq hp hen, boxRun_off_idle (boxStop_en s) (boxStop_idle h)]

/-! ### A handle given back to a full cache (R363) -/

/-- An entry of the record of R362, which is marked as returning when it is the master's of this handle. -/
def markReturning (master : Nat) (h : W32) (x : Held362) : Held362 :=
  if x.master = master ∧ x.handle = h then { x with returning := true } else x

/-- R363: a BOX_FREE of a held handle whose pool cannot take it now leaves it in the record of R362, marked as returning. -/
theorem exec_boxFree_waits {s : State} {who : Requester} {h : W32} {p : Nat} (hup : up s = true)
    (hh : heldPool s (readerOf who) h = some p) (hc : canFree s p = false) :
    exec (.boxFree who h) s = .next 
      (retStall (mBox s fun b => { b with held := b.held.map (markReturning (readerOf who) h) }) p) := by
  have hf : boxFree s (readerOf who) h =
      some (retStall (mBox s fun b => { b with held := b.held.map (markReturning (readerOf who) h) }) p) := by
    simp only [boxFree, hh, hc]
    rfl
  have hx : exec (.boxFree who h) s = execBoxFree who h s := rfl
  rw [hx, execBoxFree, act_true hup, hf]

/-- READY, every port off; the box office is on, pool 0 has 1,024 handles in its cache, and the host holds handle 0x100 of it. -/
def hostHolds : State :=
  { aon := { corePwrOk := true, porN := true, porDue := false, reason := 0, power := .ready }
    blk := { ready := true, portsOn := true }
    tr := { box := {
      en := true, filled := 1
      pool := [(0, { en := true, cache := (List.range 1024).map fun i => BitVec.ofNat 32 (0x1000 + i) })]
      held := [{ master := readerOf .host, handle := 0x100, pool := 0, returning := false }] } } }

/-- The same once the host has written the handle to BOX_FREE: it stands in the record as returning. -/
def hostReturns : State :=
  retStall (mBox hostHolds fun b => { b with
    held := [{ master := readerOf .host, handle := 0x100, pool := 0, returning := true }] }) 0

/-- The refuting state is what BOX_FREE makes of a full cache. -/
theorem exec_boxFree_hostHolds : exec (.boxFree .host 0x100) hostHolds = .next hostReturns := by
  have hc : canFree hostHolds 0 = false := by simp [canFree, hostHolds, gPool, tget]
  have hh : heldPool hostHolds (readerOf .host) 0x100 = some 0 := by decide
  exact exec_boxFree_waits rfl hh hc

theorem hostReturns_idle : BoxIdle hostReturns where
  win := rfl
  waiting r := by unfold gInq; split <;> rfl
  live r := by unfold gInq; split <;> exact Nat.zero_le 1
  fifo p := by
    cases p with
    | zero => rfl
    | succ p => rfl

/-- Refutes O37, by its clause that BOX_DISABLE leaves the record of R362 as it was (`t.tr.box.held = b.held`). In `hostReturns`, which
BOX_FREE makes of `hostHolds` (`exec_boxFree_hostHolds`), the host has given handle 0x100 back to a full cache, so the record holds it
as returning (R363). The stop sends it to the pool manager (R361, log 27), and the record is empty. -/
theorem not_boxCommands : ¬ Obligations.BoxCommands := by
  unfold Obligations.BoxCommands
  intro h
  obtain ⟨-, -, -, -, -, hoff, -⟩ := h hostReturns 0 0 .host 0 false false false false rfl
  obtain ⟨t, ht, -, -, -, hheld, -⟩ := hoff (by decide) rfl
  have hstop : exec .boxDisable hostReturns = .next (boxStop hostReturns) :=
    exec_boxDisable_idle rfl rfl rfl hostReturns_idle
  obtain rfl : boxStop hostReturns = t := by simpa [hstop] using ht
  rw [boxStop_held] at hheld
  have hgone : (hostReturns.tr.box.held.filter fun x => !x.returning) = [] := rfl
  have hstood : hostReturns.tr.box.held =
      [{ master := 0xF00, handle := 0x100, pool := 0, returning := true }] := rfl
  rw [hgone, hstood] at hheld
  exact List.cons_ne_nil _ _ hheld.symm

end Sys2Proof.Machine
end

section
/-! SUPPORT. The bill's commit and switch (spec/04 R118, R122, R123). -/

namespace Sys2Proof.Machine

/-! ### The frame of a command on one control page -/

theorem engOnly_mEng (s : State) (p : Nat) (f : Eng → Eng) : engOnly s (mEng s p f) p :=
  ⟨rfl, fun _ hq => gEng_mEng_ne s f hq⟩

theorem engOnly_logEv {s t : State} {p : Nat} (c : W16) (d : List Nat) (h : engOnly s t p) : engOnly s (logEv t c d) p := by
  obtain ⟨l, hl⟩ := logEv_eq t c d
  obtain ⟨h1, h2⟩ := h
  rw [hl]
  refine ⟨?_, fun q hq => h2 q hq⟩
  rw [h1]

/-- A command that updates one control page and logs nothing. -/
theorem gives_mEng {c : Instr} {s : State} {p : Nat} {f : Eng → Eng} {y : Eng} (hc : exec c s = .next (mEng s p f))
    (hy : f (gEng s p) = y) : Gives c s fun t => engOnly s t p ∧ gEng t p = y ∧ logAs s t none :=
  ⟨_, hc, engOnly_mEng s p f, (gEng_mEng_same s p f).trans hy, rfl⟩

/-! ### COMMIT (R122) -/

/-- A control page after COMMIT: a switch that is scheduled already stands. -/
def committed (ec : Nat) (x : Eng) : Eng :=
  { x with commit := some (x.commit.getD (ec / 64 + if ec % 64 ≤ 62 then 1 else 2)), commitEc := true }

theorem commitSet_eq (s : State) (p : Nat) : commitSet s p = mEng s p (committed s.ec) := by
  refine congrArg (mEng s p) (funext fun x => ?_)
  unfold committed
  cases x.commit <;> rfl

theorem exec_commit {s : State} {e : Fin 64} (h : engUp s e.val = true) :
    exec (.commit e) s = .next (mEng s (physOf s e.val) (committed s.ec)) :=
  calc exec (.commit e) s = execCommit e s := rfl
    _ = .next (commitSet s (physOf s e.val)) := act_true h
    _ = .next (mEng s (physOf s e.val) (committed s.ec)) := by rw [commitSet_eq]

theorem committed_early {ec : Nat} {x : Eng} (hc : x.commit = none) (hp : ec % 64 ≤ 62) :
    committed ec x = { x with commit := some (ec / 64 + 1), commitEc := true } := by
  rw [committed, hc, if_pos hp, Option.getD_none]

theorem committed_last {ec : Nat} {x : Eng} (hc : x.commit = none) (hp : ec % 64 = 63) :
    committed ec x = { x with commit := some (ec / 64 + 2), commitEc := true } := by
  rw [committed, hc, if_neg (by omega), Option.getD_none]

theorem committed_again {ec l : Nat} {x : Eng} (hc : x.commit = some l) : committed ec x = { x with commitEc := true } := by
  rw [committed, hc, Option.getD_some, ← hc]

/-! ### The conditions of the switch (R118, R122, R123) -/

theorem billAdjacent_iff (tab : Tab (Option W8)) : billAdjacent tab = true ↔
    ∃ n t, n < 64 ∧ posThread tab n = some t ∧ posThread tab ((n + 1) % 64) = some t := by
  simp only [billAdjacent, List.any_eq_true, List.mem_range, Bool.and_eq_true, decide_eq_true_eq]
  constructor
  · rintro ⟨n, hn, hs, he⟩
    obtain ⟨t, ht⟩ := Option.isSome_iff_exists.1 hs
    exact ⟨n, t, hn, ht, he ▸ ht⟩
  · rintro ⟨n, t, hn, ht, ht'⟩
    exact ⟨n, hn, by rw [ht]; rfl, ht.trans ht'.symm⟩

theorem billNoT0_iff (tab : Tab (Option W8)) : billNoT0 tab = true ↔ ∀ n, n < 64 → posThread tab n ≠ some 0 := by
  simp [billNoT0]

/-- The switch of physical engine p is due in the present ec. -/
def billDue (s : State) (p : Nat) : Prop := s.ec % 64 = 0 ∧ ∃ l, (gEng s p).commit = some l ∧ l ≤ s.ec / 64

/-- The shadow bill and modes as the present ec found them. -/
def billFound (s : State) (p : Nat) : Tab (Option W8) × W32 := (gEng s p).shdWas.getD ((gEng s p).shd, (gEng s p).mode)

/-- The switch, once it is due. -/
def billTry (s : State) (e p : Nat) : State :=
  if billAdjacent (billFound s p).1 then billRefuse s e p 1
  else if billNoT0 (billFound s p).1 then billRefuse s e p 2
  else mEng s p fun x => { x with live := (billFound s p).1, modeLive := (billFound s p).2, commit := commitLeft s x }

theorem exec_billSwitch_due {s : State} {e : Fin 64} (h : engUp s e.val = true) (hd : billDue s (physOf s e.val)) :
    exec (.billSwitch e) s = .next (billTry s e.val (physOf s e.val)) := by
  obtain ⟨h0, l, hl, hle⟩ := hd
  calc exec (.billSwitch e) s = execBillSwitch e s := rfl
    _ = .next (billTry s e.val (physOf s e.val)) := by simp only [execBillSwitch, hl]; exact act_true (by simp [h, h0, hle])

theorem exec_billSwitch_early {s : State} {e : Fin 64} (hd : ¬billDue s (physOf s e.val)) : keeps (.billSwitch e) s := by
  have hx : exec (.billSwitch e) s = execBillSwitch e s := rfl
  rw [keeps, hx, execBillSwitch]
  cases hl : (gEng s (physOf s e.val)).commit with
  | none => exact act_false (by simp)
  | some l =>
    refine act_false (Bool.eq_false_iff.2 fun hb => hd ?_)
    simp only [Bool.and_eq_true, decide_eq_true_eq] at hb
    exact ⟨hb.1.2, l, hl, hb.2⟩

/-- A switch that is refused (R123): only COMMIT and the reason change on the control page, and 0x6010 is logged. -/
theorem gives_billRefuse {c : Instr} {s : State} {e p : Nat} {why : BitVec 2} (hc : exec c s = .next (billRefuse s e p why)) :
    Gives c s fun t => engOnly s t p ∧
      gEng t p = { gEng s p with commit := commitLeft s (gEng s p), reject := true, rejWhy := why } ∧
      logAs s t (some (0x6010, [e, why.toNat])) := by
  refine ⟨_, hc, engOnly_logEv _ _ (engOnly_mEng s p _), ?_, ?_⟩
  · rw [billRefuse, logEv_mEng, gEng_mEng_same]
    simp only [gEng, logEv_en]
  · simp only [logAs, billRefuse, logEv_mEng, mEng_mg]

/-! ### The three ends of a switch that is due -/

section
variable {s : State} {e : Fin 64} (h : engUp s e.val = true) (hd : billDue s (physOf s e.val))
include h hd

theorem exec_billSwitch_adjacent (ha : billAdjacent (billFound s (physOf s e.val)).1 = true) :
    exec (.billSwitch e) s = .next (billRefuse s e.val (physOf s e.val) 1) := by
  rw [exec_billSwitch_due h hd, billTry, if_pos ha]

theorem exec_billSwitch_noT0 (ha : ¬billAdjacent (billFound s (physOf s e.val)).1 = true)
    (h0 : billNoT0 (billFound s (physOf s e.val)).1 = true) :
    exec (.billSwitch e) s = .next (billRefuse s e.val (physOf s e.val) 2) := by
  rw [exec_billSwitch_due h hd, billTry, if_neg ha, if_pos h0]

theorem exec_billSwitch_taken (ha : ¬billAdjacent (billFound s (physOf s e.val)).1 = true)
    (h0 : ¬billNoT0 (billFound s (physOf s e.val)).1 = true) :
    exec (.billSwitch e) s = .next (mEng s (physOf s e.val) fun x => { x with
      live := (billFound s (physOf s e.val)).1, modeLive := (billFound s (physOf s e.val)).2, commit := commitLeft s x }) := by
  rw [exec_billSwitch_due h hd, billTry, if_neg ha, if_neg h0]

end

end Sys2Proof.Machine
end

section
/-! SUPPORT. What a thread is like when its work has been abandoned, when it has taken a fault, and when it has left HALT or FAULTED
(spec/04 R146–R150; spec/06 R210, R498). -/

namespace Sys2Proof.Machine

/-! ### The frame of a command on one thread -/

theorem thrOnly_mThr (s : State) (k : Nat) (f : Thread → Thread) : thrOnly s (mThr s k f) k :=
  ⟨rfl, fun _ hj => gThr_mThr_ne s f hj⟩

/-- A further change of the thread keeps the frame. -/
theorem thrOnly_mThr_of {s x : State} {k : Nat} (f : Thread → Thread) (h : thrOnly s x k) : thrOnly s (mThr x k f) k := by
  obtain ⟨h1, h2⟩ := h
  refine ⟨?_, fun j hj => (gThr_mThr_ne x f hj).trans (h2 j hj)⟩
  generalize x.en.thr = a, x.mg.log = l at h1
  subst h1
  rfl

/-- Outside a step the end of a word does not halt its thread (R478). -/
theorem endStep_free {t : Thread} (h : t.dbg.stepping = false) : endStep t = t := by simp [endStep, h]

/-! ### Abandoned work (R147, R347) -/

/-- No thread differs but in the access that it holds, and no fault map differs. -/
structure HeldOnly (s t : State) : Prop where
  thr (k : Nat) : gThr t k = { gThr s k with held := (gThr t k).held }
  flt (q : Nat) : (gEng t q).fltmap = (gEng s q).fltmap

theorem HeldOnly.refl (s : State) : HeldOnly s s := ⟨fun _ => rfl, fun _ => rfl⟩

theorem HeldOnly.trans {s x t : State} (h : HeldOnly s x) (h' : HeldOnly x t) : HeldOnly s t where
  thr k := by rw [h'.thr k, h.thr k]
  flt q := (h'.flt q).trans (h.flt q)

/-- A further update of the lists of a control page. -/
theorem HeldOnly.mEng {s x : State} {p : Nat} {f : Eng → Eng} (hf : ∀ e, (f e).fltmap = e.fltmap) (h : HeldOnly s x) :
    HeldOnly s (mEng x p f) where
  thr k := h.thr k
  flt q := by
    rw [gEng_mEng, ← h.flt q]
    split
    · next hq => rw [hq, hf]
    · rfl

/-- A further update of the held access of a thread. -/
theorem HeldOnly.mThr {s x : State} {k : Nat} {f : Thread → Thread} (hf : ∀ t, f t = { t with held := (f t).held })
    (h : HeldOnly s x) : HeldOnly s (mThr x k f) where
  thr j := by
    rw [gThr_mThr]
    split
    · next hj => rw [hj, hf, h.thr k]
    · exact h.thr j
  flt q := h.flt q

theorem serveTakers_heldOnly (p n : Nat) : ∀ s, HeldOnly s (serveTakers p n s) := by
  induction n with
  | zero => exact HeldOnly.refl
  | succ n ih =>
    intro s
    rw [serveTakers]
    split
    · refine .trans ?_ (ih _)
      exact .mThr (fun _ => rfl) (.mEng (fun _ => rfl) (.refl s))
    · exact .refl s

theorem serveEng_heldOnly (s : State) (p : Nat) : HeldOnly s (serveEng s p) := serveTakers_heldOnly p _ s

/-- Abandoning what a thread has under way makes it idle, and else changes threads in their held accesses only. -/
theorem abandon_eq (s : State) (k : Nat) : ∃ x, HeldOnly s x ∧ abandon s k = mThr x k idleThr := by
  refine ⟨_, ?_, rfl⟩
  split
  · split
    · exact ⟨fun _ => rfl, fun _ => rfl⟩
    · exact ⟨fun _ => rfl, fun _ => rfl⟩
    · exact ⟨fun _ => rfl, fun _ => rfl⟩
    · refine .trans ?_ (serveEng_heldOnly _ _)
      exact .mThr (fun _ => rfl) (.mEng (fun _ => rfl) (.refl s))
    · exact .mEng (fun _ => rfl) (.refl s)
    · exact .refl s
  · exact .refl s

theorem gThr_abandon (s : State) (k : Nat) : gThr (abandon s k) k = idleThr (gThr s k) := by
  obtain ⟨x, hx, h⟩ := abandon_eq s k
  rw [h, gThr_mThr_same, hx.thr k]
  rfl

theorem fltmap_abandon (s : State) (k q : Nat) : (gEng (abandon s k) q).fltmap = (gEng s q).fltmap := by
  obtain ⟨x, hx, h⟩ := abandon_eq s k
  rw [h]
  exact hx.flt q

/-! ### Thread faults (R150, R210) -/

theorem gThr_faultReport (s : State) (k : Nat) (code : W8) (pc : W48) :
    gThr (faultReport s k code pc) k = faultThr code pc (gThr s k) := by
  obtain ⟨l, m, h⟩ := faultReport_eq s k code pc
  rw [h]
  exact gThr_mThr_same s k _

theorem fltmap_faultReport (s : State) (k : Nat) (code : W8) (pc : W48) :
    (gEng (faultReport s k code pc) (k / 32)).fltmap = setBit (gEng s (k / 32)).fltmap (k % 32) := by
  obtain ⟨l, m, h⟩ := faultReport_eq s k code pc
  rw [h]
  exact congrArg Eng.fltmap (gEng_mEng_same (mThr s k (faultThr code pc)) (k / 32) fun e =>
    { e with fltmap := setBit e.fltmap (k % 32) })

theorem gThr_takeFault (s : State) (k : Nat) (code : W8) (pc : W48) :
    gThr (takeFault s k code pc) k = faultThr code pc (idleThr (gThr s k)) := by
  rw [takeFault, gThr_faultReport, gThr_abandon]

theorem fltmap_takeFault (s : State) (k : Nat) (code : W8) (pc : W48) :
    (gEng (takeFault s k code pc) (k / 32)).fltmap = setBit (gEng s (k / 32)).fltmap (k % 32) := by
  rw [takeFault, fltmap_faultReport, fltmap_abandon]

theorem faultedAt_takeFault (s : State) (k : Nat) (code : W8) (pc : W48) :
    faultedAt s (takeFault s k code pc) k code pc := by
  unfold faultedAt
  rw [gThr_takeFault]
  exact ⟨rfl, rfl, rfl, rfl⟩

/-! ### A debug halt and the return from it (R238, R498) -/

theorem gThr_haltTake (s : State) (k : Nat) (reason : BitVec 3) : gThr (haltTake s k reason) k = { idleThr (gThr s k) with
    st := .halt, waitK := none
    dbg := { (gThr s k).dbg with halted := true, pending := false, reason := reason, stepping := false, deferred := 0 } } := by
  rw [haltTake, gThr_mThr_same, gThr_abandon]
  rfl

/-- A thread that goes on: behind the curtain it waits for the curtain to rise. -/
def goesOn (t : Thread) : Thread :=
  { t with st := if t.curtain then .wait else .run, waitK := if t.curtain then some .curtain else none }

/-- Without a pending fault the thread goes on. -/
theorem leaveHalt_clean {s : State} {k : Nat} (h : (gThr s k).pendFault = none) : leaveHalt s k = mThr s k goesOn := by
  have hf : (fun t : Thread =>
      if t.curtain then { t with st := .wait, waitK := some .curtain } else { t with st := .run, waitK := none }) = goesOn := by
    funext t
    unfold goesOn
    split <;> rfl
  rw [leaveHalt, h]
  exact congrArg (mThr s k) hf

/-- A pending fault is taken. -/
theorem gThr_leaveHalt_fault {s : State} {k : Nat} {code : W8} {pc : W48} (h : (gThr s k).pendFault = some (code, pc)) :
    gThr (leaveHalt s k) k = faultThr code pc { gThr s k with pendFault := none } := by
  simp only [leaveHalt, h, gThr_faultReport, gThr_mThr_same]

end Sys2Proof.Machine
end

section
/-! SUPPORT. Events, waking, the watchdog and RESTART (spec/04 R146; spec/06 R203, R207, R213, R216–R223). -/

namespace Sys2Proof.Machine

/-! ### Event sources (R216–R218) -/

theorem lowest_eq {x : W16} {bit : Nat} (hb : bit < 16) (hx : x.getLsbD bit = true)
    (hlow : ∀ n, n < bit → x.getLsbD n = false) : lowest x = some bit := by
  rw [lowest, List.find?_range_eq_some]
  exact ⟨hx, List.mem_range.2 hb, fun n hn => by rw [hlow n hn]; rfl⟩

theorem getLsbD_unlatch (x : W16) (bit : Nat) {i : Nat} (hi : i < 16) :
    (unlatch x bit).getLsbD i = (x.getLsbD i && decide (i ≠ bit)) := by
  rw [unlatch, clrBit, BitVec.getLsbD_and, BitVec.getLsbD_not, BitVec.getLsbD_ofNat, Nat.testBit_two_pow]
  simp [hi, eq_comm]

/-- The lowest pending source that the thread takes is recognized (R217). -/
theorem recognized_lowest {s : State} {k bit : Nat} (hr : (gThr s k).st = .run ∨ (gThr s k).st = .wait ∧ (gThr s k).curtain = false)
    (h : lowest (pendNow s k &&&
      (if (gThr s k).save.isSome then waitMask (gThr s k) else (gThr s k).evEn ||| waitMask (gThr s k))) = some bit) :
    recognized s k = some bit := by
  have hc : (decide ((gThr s k).st = .run) || (decide ((gThr s k).st = .wait) && !(gThr s k).curtain)) = true := by
    simpa using hr
  simp only [recognized, hc, if_true, h]

/-! ### Event entry (R146, R218–R220) -/

theorem exec_eventEntry_none {s : State} {g : Fin 2048} (h : (gThr s (thrKey s g.val)).entering = none) :
    keeps (.eventEntry g) s := by
  have hx : exec (.eventEntry g) s = execEventEntry g s := rfl
  simp only [keeps, hx, execEventEntry, h]

theorem exec_eventEntry_some {s : State} {g : Fin 2048} {bit : Nat} (h : thrUp s g.val = true)
    (he : (gThr s (thrKey s g.val)).entering = some bit)
    (hr : (gThr s (thrKey s g.val)).st = .run ∨ (gThr s (thrKey s g.val)).st = .wait) :
    exec (.eventEntry g) s = .next (enterEvent s (thrKey s g.val) bit) := by
  have hx : exec (.eventEntry g) s = execEventEntry g s := rfl
  simp only [hx, execEventEntry, he]
  exact act_true (by simpa [h] using hr)

/-- The PC that event entry for source `bit` saves: a wait that names the source has ended (R219). -/
def returnPc (t : Thread) (bit : Nat) : W48 := if (waitMask t).getLsbD bit then t.r.pc + 4 else t.r.pc

/-- The thread in the first ec of event entry, with INH at 0. -/
def enteredThr (t : Thread) (ec bit : Nat) : Thread := { idleThr t with
  st := .run, waitK := none, readyAt := ec + 3, entryEnd := ec + 3
  save := some { pc := returnPc t bit, fl := t.r.fl, succ := t.succ }, succ := none
  pend := unlatch t.pend bit, r := { t.r with pc := t.vbase + BitVec.ofNat 48 (16 * bit) }
  dbg := { t.dbg with bpPass := false } }

theorem gThr_enterEvent {s : State} {k bit : Nat} (hs : (gThr s k).save = none) (hd : (gThr s k).dbg.stepping = false) :
    gThr (enterEvent s k bit) k = enteredThr (gThr s k) s.ec bit := by
  have h0 : (gThr s k).save.isSome = false := by rw [hs]; rfl
  simp only [enterEvent, h0, Bool.false_eq_true, if_false, gThr_mThr_same, gThr_abandon]
  exact endStep_free hd

theorem save_enteredThr_named {t : Thread} {ec bit : Nat} (h : (waitMask t).getLsbD bit = true) :
    (enteredThr t ec bit).save = some { pc := t.r.pc + 4, fl := t.r.fl, succ := t.succ } := by
  simp only [enteredThr, returnPc, h, if_true]

theorem save_enteredThr_other {t : Thread} {ec bit : Nat} (h : ¬(waitMask t).getLsbD bit = true) :
    (enteredThr t ec bit).save = some { pc := t.r.pc, fl := t.r.fl, succ := t.succ } := by
  simp only [enteredThr, returnPc, if_neg h]

/-- The thread that wakes instead of entering, with INH at 1 (R220). -/
def wokenThr (t : Thread) : Thread := { t with st := .run, waitK := none, succ := none, r := { t.r with pc := t.r.pc + 4 } }

theorem wakeNext_eq {t : Thread} (hd : t.dbg.stepping = false) : wakeNext t = wokenThr t := endStep_free hd

/-- With INH at 1 event entry only wakes the thread. -/
theorem enterEvent_inhibited {s : State} {k bit : Nat} (hs : (gThr s k).save ≠ none) (hd : (gThr s k).dbg.stepping = false) :
    thrOnly s (enterEvent s k bit) k ∧ gThr (enterEvent s k bit) k =
      { wokenThr (gThr s k) with entering := none, readyAt := s.ec + 3, entryEnd := s.ec + 3 } := by
  have h1 : (gThr s k).save.isSome = true := Option.isSome_iff_ne_none.2 hs
  simp only [enterEvent, h1, if_true, gThr_mThr_same, wakeNext_eq hd, and_true]
  exact thrOnly_mThr s k _

/-! ### Waking and the watchdog (R22, R203, R213) -/

/-- A thread wakes from WAITT, and issues at its own position next (R22). -/
def wakeOwn (s : State) (k : Nat) : State := mThr s k fun t => { wakeNext t with ownFirst := true }

theorem gThr_wakeOwn {s : State} {k : Nat} (hd : (gThr s k).dbg.stepping = false) :
    gThr (wakeOwn s k) k = { wokenThr (gThr s k) with ownFirst := true } := by
  rw [wakeOwn, gThr_mThr_same, wakeNext_eq hd]

theorem exec_threadWake_due {s : State} {g : Fin 2048} (h : thrUp s g.val = true)
    (hw : (gThr s (thrKey s g.val)).st = .wait) (hk : (gThr s (thrKey s g.val)).waitK = some .waitt)
    (hn : (gThr s (thrKey s g.val)).r.wake.toNat ≤ s.tb.now.toNat) :
    exec (.threadWake g) s = .next (wakeOwn s (thrKey s g.val)) :=
  calc exec (.threadWake g) s = execThreadWake g s := rfl
    _ = _ := by simp only [execThreadWake]; exact act_true (by simp [h, hw, hk, hn])

theorem exec_threadWake_early {s : State} {g : Fin 2048}
    (hn : s.tb.now.toNat < (gThr s (thrKey s g.val)).r.wake.toNat) : keeps (.threadWake g) s := by
  have hx : exec (.threadWake g) s = execThreadWake g s := rfl
  simp only [keeps, hx, execThreadWake]
  exact act_false (by simp [hn])

theorem exec_threadWatchdog_due {s : State} {g : Fin 2048} (h : thrUp s g.val = true) (h0 : s.ec % 64 = 0)
    (hr : (gThr s (thrKey s g.val)).st = .run) (hl : (gThr s (thrKey s g.val)).wdLimit ≠ 0)
    (hc : (gThr s (thrKey s g.val)).wdLimit.toNat ≤ (gThr s (thrKey s g.val)).wdCount.toNat) :
    exec (.threadWatchdog g) s =
      .next (takeFault s (thrKey s g.val) 0x0E (gThr s (thrKey s g.val)).r.pc) :=
  calc exec (.threadWatchdog g) s = execThreadWatchdog g s := rfl
    _ = _ := by simp only [execThreadWatchdog]; exact act_true (by simpa [h, h0, hr, hc] using hl)

theorem exec_threadWatchdog_early {s : State} {g : Fin 2048} (h : (gThr s (thrKey s g.val)).wdLimit = 0 ∨
    (gThr s (thrKey s g.val)).wdCount.toNat < (gThr s (thrKey s g.val)).wdLimit.toNat) : keeps (.threadWatchdog g) s := by
  have hx : exec (.threadWatchdog g) s = execThreadWatchdog g s := rfl
  simp only [keeps, hx, execThreadWatchdog]
  rcases h with h | h
  · exact act_false (by simp [h])
  · exact act_false (by simp [h])

/-! ### RESTART (R207, R212, R213, R498) -/

/-- What RESTART clears, with its DROPEV bit. -/
def restartClears (drop : Bool) (t : Thread) : Thread :=
  { t with fcode := 0, wdCount := 0, save := if drop then none else t.save }

theorem exec_restart {s : State} {who : Requester} {g : Fin 2048} {drop : Bool} (h : engUp s (g.val / 32) = true)
    (hm : mayRestart s who g.val = true) :
    exec (.restart who g drop) s = .next (restartThr s (thrKey s g.val) drop) :=
  calc exec (.restart who g drop) s = execRestart who g drop s := rfl
    _ = _ := act_true (by simp [h, hm])

theorem restartThr_other {s : State} {k : Nat} {drop : Bool} (h : (gThr s k).st ≠ .faulted) : restartThr s k drop = s := by
  simp only [restartThr, h, if_false]

/-- RESTART of a thread that is not FAULTED, or by a requester that may not write it, has no effect. -/
theorem exec_restart_refused {s : State} {who : Requester} {g : Fin 2048} {drop : Bool} (h : engUp s (g.val / 32) = true)
    (hf : ¬(mayRestart s who g.val = true ∧ (gThr s (thrKey s g.val)).st = .faulted)) : keeps (.restart who g drop) s := by
  by_cases hm : mayRestart s who g.val = true
  · rw [keeps, exec_restart h hm, restartThr_other fun hst => hf ⟨hm, hst⟩]
  · exact act_false (by simp [hm])

theorem goesOn_st_ne_faulted (t : Thread) : (goesOn t).st ≠ .faulted := by
  simp only [goesOn]
  split <;> decide

/-- A halt that was requested in FAULTED takes effect before the first word, unless the thread is FAULTED again (R205). -/
def haltAsked (s : State) (k : Nat) : State :=
  if (gThr s k).dbg.pending && decide ((gThr s k).st ≠ .faulted) then haltTake s k 1 else s

section
variable {s : State} {k : Nat} (drop : Bool) (hst : (gThr s k).st = .faulted)
include hst

theorem restartThr_faulted : restartThr s k drop = haltAsked (leaveHalt (mThr s k (restartClears drop)) k) k := by
  simp only [restartThr, hst, if_true]
  rfl

/-- Without a pending fault the thread goes on, or halts where that was requested. -/
theorem restartThr_clean (hp : (gThr s k).pendFault = none) :
    restartThr s k drop = if (gThr s k).dbg.pending then haltTake (mThr (mThr s k (restartClears drop)) k goesOn) k 1
      else mThr (mThr s k (restartClears drop)) k goesOn := by
  have hl : leaveHalt (mThr s k (restartClears drop)) k = mThr (mThr s k (restartClears drop)) k goesOn :=
    leaveHalt_clean (by rw [gThr_mThr_same]; exact hp)
  have hn : decide ((goesOn (restartClears drop (gThr s k))).st ≠ .faulted) = true := decide_eq_true (goesOn_st_ne_faulted _)
  rw [restartThr_faulted drop hst, hl, haltAsked, gThr_mThr_same, gThr_mThr_same, hn, Bool.and_true]
  rfl

/-- A fault that is pending comes before a halt: the thread is FAULTED again. -/
theorem gThr_restartThr_fault {code : W8} {pc : W48} (hp : (gThr s k).pendFault = some (code, pc)) :
    gThr (restartThr s k drop) k = faultThr code pc { restartClears drop (gThr s k) with pendFault := none } := by
  have hl : gThr (leaveHalt (mThr s k (restartClears drop)) k) k =
      faultThr code pc { restartClears drop (gThr s k) with pendFault := none } := by
    rw [gThr_leaveHalt_fault (code := code) (pc := pc) (by rw [gThr_mThr_same]; exact hp), gThr_mThr_same]
  have hn : ¬(gThr (leaveHalt (mThr s k (restartClears drop)) k) k).st ≠ .faulted := by rw [hl]; exact not_not_intro rfl
  rw [restartThr_faulted drop hst, haltAsked, decide_eq_false hn, Bool.and_false, if_neg Bool.false_ne_true, hl]

end

/-! ### THR_EV (R223) -/

theorem exec_thrEvWrite {s : State} {who : Requester} {g : Fin 2048} {d : W64} (h : engUp s (g.val / 32) = true)
    (hm : mayWritePage s who = true) : exec (.thrEvWrite who g d) s = .next (thrEvPut s (thrKey s g.val) d) :=
  calc exec (.thrEvWrite who g d) s = execThrEvWrite who g d s := rfl
    _ = _ := act_true (by simp [h, hm])

theorem exec_thrEvWrite_refused {s : State} {who : Requester} {g : Fin 2048} {d : W64} (hm : mayWritePage s who = false) :
    keeps (.thrEvWrite who g d) s := by
  have hx : exec (.thrEvWrite who g d) s = execThrEvWrite who g d s := rfl
  rw [keeps, hx, execThrEvWrite, hm, Bool.and_false]
  exact act_false rfl

theorem gThr_thrEvPut (s : State) (k : Nat) (d : W64) : gThr (thrEvPut s k d) k = { gThr s k with
    evEn := BitVec.ofNat 16 d.toNat, evPin := BitVec.ofNat 8 (d.toNat / 2 ^ 32), evDma := BitVec.ofNat 6 (d.toNat / 2 ^ 40) } := by
  rw [thrEvPut, gThr_mThr_same]
  simp only [BitVec.extractLsb', Nat.shiftRight_eq_div_pow, Nat.pow_zero, Nat.div_one]

end Sys2Proof.Machine
end

section
/-! The bill, and the commands of events, waiting and RESTART (O25). -/

namespace Sys2Proof.Machine

theorem engUp_of_thrUp {s : State} {g : Nat} (h : thrUp s g = true) : engUp s (g / 32) = true := by
  simp only [thrUp, Bool.and_eq_true] at h
  exact h.1

/-- Settles O25: each clause is what the laws above say of its command, once its condition is told apart. -/
theorem billAndThreadCommands : Obligations.BillAndThreadCommands := by
  unfold Obligations.BillAndThreadCommands
  refine ⟨fun s e h => ?_, fun s g bit who drop d h => ?_⟩
  · intro p x lap was adjacent noT0 again due gives refused
    have hadj : adjacent ↔ billAdjacent was.1 = true := (billAdjacent_iff was.1).symm
    have hT0 : noT0 ↔ billNoT0 was.1 = true := (billNoT0_iff was.1).symm
    refine ⟨fun hc hp => ?_, fun hc hp => ?_, fun l hc => ?_, fun hd ha => ?_, fun hd ha h0 => ?_, fun hd ha h0 => ?_,
      exec_billSwitch_early⟩
    · exact gives_mEng (exec_commit h) (committed_early hc hp)
    · exact gives_mEng (exec_commit h) (committed_last hc hp)
    · exact gives_mEng (exec_commit h) (committed_again hc)
    · exact gives_billRefuse (exec_billSwitch_adjacent h hd (hadj.1 ha))
    · exact gives_billRefuse (exec_billSwitch_noT0 h hd (mt hadj.2 ha) (hT0.1 h0))
    · exact gives_mEng (exec_billSwitch_taken h hd (mt hadj.2 ha) (mt hT0.2 h0)) rfl
  · intro k th r ee vec named runs woken src free
    have hup : engUp s (g.val / 32) = true := engUp_of_thrUp h
    refine ⟨fun hr hb hs hlow => ?_, exec_eventEntry_none, fun he hr hs hd => ?_, fun he hr hs hd => ?_,
      fun hw hk hn hd => ?_, exec_threadWake_early, fun h0 hr hl hc => ?_, exec_threadWatchdog_early,
      fun hf hp hd => ?_, fun hf hp hd => ?_, fun code pc hf hp => ?_, exec_restart_refused hup, fun hm => ?_, exec_thrEvWrite_refused⟩
    · exact recognized_lowest hr (lowest_eq hb hs hlow)
    · refine ⟨_, exec_eventEntry_some h he hr, ?_⟩
      dsimp only
      rw [gThr_enterEvent hs hd]
      exact ⟨rfl, rfl, rfl, rfl, rfl, rfl, rfl, rfl, rfl, rfl, rfl, save_enteredThr_named, save_enteredThr_other,
        fun _ => getLsbD_unlatch _ _⟩
    · have hx := exec_eventEntry_some h he hr
      obtain ⟨honly, ht⟩ := enterEvent_inhibited (bit := bit) hs hd
      refine ⟨⟨_, hx, honly, ?_⟩, _, hx, ?_⟩
      · rw [ht]
        exact ⟨rfl, rfl, rfl, rfl⟩
      · dsimp only
        rw [ht]
        exact ⟨rfl, rfl, rfl⟩
    · have hx := exec_threadWake_due h hw hk hn
      refine ⟨⟨_, hx, thrOnly_mThr _ _ _, ?_⟩, _, hx, ?_⟩
      · rw [gThr_wakeOwn hd]
        exact ⟨rfl, rfl, rfl, rfl⟩
      · dsimp only
        rw [gThr_wakeOwn hd]
    · exact ⟨_, exec_threadWatchdog_due h h0 hr hl hc, faultedAt_takeFault _ _ _ _, fltmap_takeFault _ _ _ _⟩
    · obtain ⟨hm, hst⟩ := hf
      refine ⟨_, exec_restart hup hm, ?_⟩
      rw [restartThr_clean drop hst hp, if_neg (Bool.eq_false_iff.1 hd)]
      refine ⟨thrOnly_mThr_of _ (thrOnly_mThr _ _ _), ?_⟩
      rw [gThr_mThr_same, gThr_mThr_same]
      rfl
    · obtain ⟨hm, hst⟩ := hf
      refine ⟨_, exec_restart hup hm, ?_⟩
      dsimp only
      rw [restartThr_clean drop hst hp, if_pos hd, gThr_haltTake, gThr_mThr_same, gThr_mThr_same]
      exact ⟨rfl, rfl, rfl, rfl, rfl, rfl⟩
    · obtain ⟨hm, hst⟩ := hf
      refine ⟨_, exec_restart hup hm, ?_⟩
      dsimp only
      rw [gThr_restartThr_fault drop hst hp]
      exact ⟨rfl, rfl, rfl, rfl⟩
    · exact ⟨_, exec_thrEvWrite hup hm, thrOnly_mThr _ _ _, gThr_thrEvPut _ _ _⟩

end Sys2Proof.Machine
end

section
/-! SUPPORT. What travels on the callboard and arrives at an endpoint (spec/06 R227–R231). -/

namespace Sys2Proof.Machine

/-! ### Which message arrives (R228) -/

/-- L at its least is not longer than L at its most (R228). -/
theorem cbDue_of_cbMust {s : State} {m : CbMsg} (h : cbMust s m = true) : cbDue s m = true := by
  simp only [cbMust, cbDue, decide_eq_true_eq] at h ⊢
  by_cases hr : m.src / 128 = m.dst / 128
  · simpa only [hr, if_true] using h
  · simp only [hr, if_false] at h ⊢
    omega

theorem cbMust_of_not_cbDue {s : State} {m : CbMsg} (h : cbDue s m = false) : cbMust s m = false :=
  Bool.eq_false_iff.2 fun hc => Bool.eq_false_iff.1 h (cbDue_of_cbMust hc)

theorem takeMsg_none {want : CbMsg → Bool} {ep : Nat} {l : List CbMsg} (h : ∀ x, x ∈ l → x.dst = ep → want x = false) :
    ∀ seen, takeMsg want ep l seen = none := by
  induction l with
  | nil => exact fun _ => rfl
  | cons m t ih =>
    intro seen
    have hm : ¬(decide (m.dst = ep) && !seen.contains m.src && want m) = true := by
      by_cases hd : m.dst = ep
      · simp [h m List.mem_cons_self hd]
      · simp [hd]
    rw [takeMsg, if_neg hm, ih fun x hx => h x (List.mem_cons_of_mem _ hx)]

/-- Nothing precedes the oldest message in flight. -/
theorem takeMsg_head {want : CbMsg → Bool} {ep : Nat} {m : CbMsg} (rest : List CbMsg) (hd : m.dst = ep) (hw : want m = true) :
    takeMsg want ep (m :: rest) [] = some (m, rest) := by
  simp [takeMsg, hd, hw]

/-- Nothing arrives sooner than the L of R228 after it was sent. -/
theorem arrive_early {want : CbKind → Bool} {ep : Nat} {s : State}
    (h : ∀ x, x ∈ s.en.cb.fly → x.dst = ep → cbDue s x = false) : arrive want ep s = .next s := by
  have hdue := takeMsg_none (want := fun m => want m.kind && cbDue s m) fun x hx hd => by
    rw [h x hx hd, Bool.and_false]
  have hmust := takeMsg_none (want := fun m => want m.kind && cbMust s m) fun x hx hd => by
    rw [cbMust_of_not_cbDue (h x hx hd), Bool.and_false]
  simp only [arrive, hdue, hmust]
  rfl

/-- The oldest message in flight is for the endpoint, and no other for it must arrive before. -/
structure HeadArrives (s : State) (ep : Nat) (m : CbMsg) (rest : List CbMsg) : Prop where
  up : up s = true
  fly : s.en.cb.fly = m :: rest
  dst : m.dst = ep
  now : cbMust s m = true ∨ cbDue s m = true ∧ ∀ x, x ∈ rest → x.dst = ep → cbMust s x = false

/-- The state once a message has left the list in flight. -/
def landed (s : State) (rest : List CbMsg) : State := mCb s fun c => { c with fly := rest }

/-- A command for messages of the oldest one's kind delivers it. -/
theorem arrive_head {s : State} {ep : Nat} {m : CbMsg} {rest : List CbMsg} (h : HeadArrives s ep m rest) {want : CbKind → Bool}
    (hw : want m.kind = true) : arrive want ep s = .next (deliver (landed s rest) m) := by
  have hpick : ((takeMsg (fun x => want x.kind && cbMust s x) ep s.en.cb.fly []).orElse fun _ =>
      takeMsg (fun x => want x.kind && cbDue s x) ep s.en.cb.fly []) = some (m, rest) := by
    rw [h.fly]
    by_cases hm : cbMust s m = true
    · rw [takeMsg_head rest h.dst (by rw [hw, hm]; rfl)]
      rfl
    · obtain ⟨hdue, hrest⟩ := h.now.resolve_left hm
      rw [takeMsg_none (want := fun x => want x.kind && cbMust s x), takeMsg_head rest h.dst (by rw [hw, hdue]; rfl)]
      · rfl
      · intro x hx hd
        rcases List.mem_cons.1 hx with rfl | hx
        · rw [Bool.eq_false_iff.2 hm, Bool.and_false]
        · rw [hrest x hx hd, Bool.and_false]
  simp only [arrive, hpick]
  exact act_true h.up

/-! ### The commands of arrival -/

theorem exec_cbOpenArrive (ep : Fin 8192) (s : State) : exec (.cbOpenArrive ep) s = execCbOpenArrive ep s := rfl

theorem exec_cbGrantArrive (ep : Fin 8192) (s : State) : exec (.cbGrantArrive ep) s = execCbGrantArrive ep s := rfl

theorem exec_cbWordArrive (ep : Fin 8192) (s : State) : exec (.cbWordArrive ep) s = execCbWordArrive ep s := rfl

theorem exec_cbCreditArrive (ep : Fin 8192) (s : State) : exec (.cbCreditArrive ep) s = execCbCreditArrive ep s := rfl

theorem exec_cbCloseNews (ep : Fin 8192) (s : State) : exec (.cbCloseNews ep) s = execCbCloseNews ep s := rfl

theorem exec_cbAbortArrive (ep : Fin 8192) (s : State) : exec (.cbAbortArrive ep) s = execCbAbortArrive ep s := rfl

/-! ### What only an endpoint and the list in flight differ in -/

/-- Endpoint `ep` is now `y` and `fly` is in flight; no other endpoint, nothing else of the callboard and nothing of the stage
manager's part differs. -/
def epOnly (s t : State) (ep : Nat) (y : Ce) (fly : List CbMsg) : Prop :=
  gCe t ep = y ∧ (∀ e, e ≠ ep → gCe t e = gCe s e) ∧ t.en.cb = { s.en.cb with fly := fly } ∧ t.mg = s.mg

/-- The receive side granted to `src`, with `w` still waiting (R227, R230). -/
def grantedCe (c : Ce) (src route : Nat) (w : List (Nat × Nat)) : Ce := { c with
  rxBusy := true, rxBuf := [.opn src], rxAbt := none, rxPeer := src, rxRoute := route, lastGrant := src, waiting := w
  stallLaps := 0, stallRep := false }

section
variable {s t : State} {ep : Nat} {y : Ce} {fly : List CbMsg}

theorem epOnly_refl (s : State) (ep : Nat) : epOnly s s ep (gCe s ep) s.en.cb.fly := ⟨rfl, fun _ _ => rfl, rfl, rfl⟩

theorem epOnly_landed (s : State) (ep : Nat) (rest : List CbMsg) : epOnly s (landed s rest) ep (gCe s ep) rest :=
  ⟨rfl, fun _ _ => rfl, rfl, rfl⟩

theorem epOnly_mCe (f : Ce → Ce) (h : epOnly s t ep y fly) : epOnly s (mCe t ep f) ep (f y) fly := by
  obtain ⟨hep, hne, hcb, hmg⟩ := h
  exact ⟨by rw [gCe_mCe_same, hep], fun e he => (gCe_mCe_ne t f he).trans (hne e he), hcb, hmg⟩

theorem epOnly_cbSend (kind : CbKind) (src dst route : Nat) (h : epOnly s t ep y fly) :
    epOnly s (cbSend t kind src dst route) ep y
      (fly ++ [{ kind := kind, src := src, dst := dst, route := route, ec := t.ec }]) := by
  obtain ⟨hep, hne, hcb, hmg⟩ := h
  refine ⟨hep, hne, ?_, hmg⟩
  rw [cbSend, mCb_en_cb, hcb]

theorem epOnly_rxGrant (src route : Nat) (h : epOnly s t ep y fly) :
    epOnly s (rxGrant t ep src route) ep (grantedCe y src route y.waiting)
      (fly ++ [{ kind := .grant, src := ep, dst := src, route := route, ec := t.ec }]) :=
  epOnly_cbSend _ _ _ _ (epOnly_mCe _ h)

/-- CREDIT is an event of a thread. -/
theorem creditEv_eq (t : State) (e : Nat) : ∃ thr, creditEv t e = { t with en := { t.en with thr := thr } } := by
  unfold creditEv latchG latchEv
  split
  · exact ⟨_, rfl⟩
  · exact ⟨_, rfl⟩

theorem epOnly_creditEv (e : Nat) (h : epOnly s t ep y fly) : epOnly s (creditEv t e) ep y fly := by
  obtain ⟨thr, ht⟩ := creditEv_eq t e
  rw [ht]
  exact h

end

/-- CREDIT is pending at the thread of an endpoint of a mapped engine. -/
theorem pend_creditEv {s : State} {ep : Nat} (hep : ep < 8192) (hm : isMapped s (ep / 128) = true) :
    (gThr (creditEv s ep) (thrKey s (ep / 4))).pend.getLsbD 12 = true := by
  have hg : ep / 4 < 2048 := by omega
  have he : ep / 4 / 32 = ep / 128 := by omega
  simp [creditEv, latchG, latchEv, hg, he, hm, setBit]

/-! ### What each message does (R227, R229–R231) -/

/-- The send side holds the route that the message speaks of. -/
abbrev TxRoute (c : Ce) (m : CbMsg) : Prop := c.route = m.route ∧ c.txPeer = m.src

/-- The receive side holds the route that the message speaks of. -/
abbrev RxRoute (c : Ce) (m : CbMsg) : Prop := c.rxBusy = true ∧ c.rxRoute = m.route ∧ c.rxPeer = m.src

/-- An ABORT or a CLOSE already ends the message in the receive buffer (R230; log 20). -/
abbrev RxEnded (c : Ce) : Prop := c.rxAbt ≠ none ∨ c.rxBuf.contains .close = true

/-- The send side holds a route (R229). -/
abbrev TxSends (c : Ce) : Prop := c.txst = .opening ∨ c.txst = .opn ∨ c.txst = .closing

theorem rxAbort_ended {c : Ce} (h : RxEnded c) (x : W32) : rxAbort c x = c := by
  refine if_neg ?_
  rcases h with h | h
  · simp [h]
  · rw [h, Bool.not_true, Bool.and_false]
    exact Bool.false_ne_true

theorem rxAbort_open {c : Ce} (hb : c.rxBusy = true) (h : ¬RxEnded c) (x : W32) : rxAbort c x = { c with rxAbt := some x } := by
  obtain ⟨ha, hc⟩ := not_or.1 h
  refine if_pos ?_
  rw [hb, Decidable.not_not.1 ha, Bool.eq_false_iff.2 hc]
  rfl

section
variable {s : State} {ep : Nat} {m : CbMsg} (hd : m.dst = ep)
include hd

theorem deliver_opn (hk : m.kind = .opn) :
    deliver s m = if (gCe s ep).rxBusy = false ∧ (gCe s ep).waiting = [] then rxGrant s ep m.src m.route
      else mCe s ep fun c => { c with waiting := c.waiting ++ [(m.src, m.route)] } := by
  simp [deliver, hk, hd]

theorem deliver_grant (hk : m.kind = .grant) :
    deliver s m = if TxRoute (gCe s ep) m ∧ (gCe s ep).txst = .opening
      then creditEv (mCe s ep fun c => { c with txst := .opn, cred := 7 }) ep else s := by
  simp [deliver, hk, hd]

theorem deliver_word {w : CbWord} (hk : m.kind = .word w) :
    deliver s m = if RxRoute (gCe s ep) m ∧ (gCe s ep).rxAbt = none
      then mCe s ep fun c => { c with rxBuf := c.rxBuf ++ [w], stallLaps := 0, stallRep := false } else s := by
  simp [deliver, hk, hd, and_assoc]

theorem deliver_credit (hk : m.kind = .credit) :
    deliver s m = if TxRoute (gCe s ep) m ∧ (gCe s ep).txst = .opn then
      if (gCe s ep).cred = 0 then creditEv (mCe s ep fun c => { c with cred := c.cred + 1 }) ep
      else mCe s ep fun c => { c with cred := c.cred + 1 } else s := by
  simp [deliver, hk, hd]

theorem deliver_closeNews (hk : m.kind = .closeNews) :
    deliver s m = if TxRoute (gCe s ep) m ∧ (gCe s ep).txst = .closing then mCe s ep fun c => { c with txst := .idle } else s := by
  simp [deliver, hk, hd]

theorem deliver_abortRx {x : W32} (hk : m.kind = .abortRx x) :
    deliver s m = if RxRoute (gCe s ep) m then mCe s ep fun c => rxAbort c x
      else mCe s ep fun c => { c with waiting := c.waiting.filter fun w => decide (w ≠ (m.src, m.route)) } := by
  simp [deliver, hk, hd, and_assoc]

theorem deliver_abortTx {x : BitVec 3} (hk : m.kind = .abortTx x) :
    deliver s m = if TxRoute (gCe s ep) m ∧ TxSends (gCe s ep) then txAborted s ep x else s := by
  simp [deliver, hk, hd, txHeld]

end

/-! ### The next sender (R231) -/

/-- The rank of a waiting request: its sender in ascending order, those up to the last granted one after the others. -/
def turnKey (last : Nat) (w : Nat × Nat) : Nat := if last < w.1 then w.1 else w.1 + 8192

/-- The search keeps the first request of the least rank. -/
theorem nextWaiting_eq_minOn (last : Nat) {ws : List (Nat × Nat)} (h : ws ≠ []) :
    nextWaiting last ws = some (ws.minOn (turnKey last) h) := by
  cases ws with
  | nil => exact absurd rfl h
  | cons w ws =>
    refine List.foldl_hom some fun a x => ?_
    by_cases hlt : turnKey last x < turnKey last a
    · exact (if_pos hlt).trans (congrArg some (if_neg (Nat.not_le.2 hlt)).symm)
    · exact (if_neg hlt).trans (congrArg some (if_pos (Nat.not_lt.1 hlt)).symm)

/-- The request that ranks before every other is the next. -/
theorem nextWaiting_of_least {last : Nat} {ws : List (Nat × Nat)} {w : Nat × Nat} (hw : w ∈ ws)
    (hmin : ∀ x, x ∈ ws → x = w ∨ turnKey last w < turnKey last x) : nextWaiting last ws = some w := by
  have hne : ws ≠ [] := List.ne_nil_of_mem hw
  have hle : turnKey last (ws.minOn (turnKey last) hne) ≤ turnKey last w := List.apply_minOn_le_of_mem hw
  rw [nextWaiting_eq_minOn last hne, (hmin _ List.minOn_mem).resolve_right (Nat.not_lt.2 hle)]

/-- Ascending order with wrap-around, after the last granted sender. -/
theorem turnKey_lt {last : Nat} {a b : Nat × Nat} (ha : a.1 < 8192)
    (h : (last < a.1 ∧ (b.1 ≤ last ∨ a.1 < b.1)) ∨ (a.1 ≤ last ∧ b.1 ≤ last ∧ a.1 < b.1)) :
    turnKey last a < turnKey last b := by
  rcases h with ⟨hl, hb | hb⟩ | ⟨hl, hb, hab⟩
  · rw [turnKey, if_pos hl, turnKey, if_neg (Nat.not_lt.2 hb)]
    omega
  · rw [turnKey, if_pos hl, turnKey, if_pos (Nat.lt_trans hl hb)]
    exact hb
  · rw [turnKey, if_neg (Nat.not_lt.2 hl), turnKey, if_neg (Nat.not_lt.2 hb)]
    omega

theorem exec_cbNextGrant {s : State} {ep : Fin 8192} {src route : Nat} (hup : up s = true) (hb : (gCe s ep.val).rxBusy = false)
    (hn : nextWaiting (gCe s ep.val).lastGrant (gCe s ep.val).waiting = some (src, route)) :
    exec (.cbNextGrant ep) s = .next (rxGrant (mCe s ep.val fun c => { c with
      waiting := c.waiting.filter fun w => decide (w ≠ (src, route)) }) ep.val src route) := by
  have hx : exec (.cbNextGrant ep) s = execCbNextGrant ep s := rfl
  simp only [hx, execCbNextGrant, hn]
  exact act_true (by simp [hup, hb])

/-- A BUSY side grants nobody, and with nobody waiting nobody is granted. -/
theorem exec_cbNextGrant_none {s : State} {ep : Fin 8192} (h : (gCe s ep.val).rxBusy = true ∨ (gCe s ep.val).waiting = []) :
    keeps (.cbNextGrant ep) s := by
  have hx : exec (.cbNextGrant ep) s = execCbNextGrant ep s := rfl
  rw [keeps, hx, execCbNextGrant]
  rcases h with h | h
  · split
    · exact act_false (by simp [h])
    · rfl
  · simp [h, nextWaiting]

end Sys2Proof.Machine
end

section
/-! Arrivals at a callboard endpoint (O31). -/

namespace Sys2Proof.Machine

theorem keeps_of_early {s : State} {ep : Nat} {i : Instr} {want : CbKind → Bool} (hx : exec i s = arrive want ep s)
    (h : ∀ x, x ∈ s.en.cb.fly → x.dst = ep → cbDue s x = false) : keeps i s := hx.trans (arrive_early h)

section
variable {s : State} {ep : Fin 8192} {m : CbMsg} {rest : List CbMsg} (h : HeadArrives s ep.val m rest)
  {i : Instr} {want : CbKind → Bool} {k : CbKind} (hx : exec i s = arrive want ep.val s) (hk : m.kind = k) (hw : want k = true)
include h hx hk hw

/-- What a command for messages of the oldest one's kind answers. -/
theorem gives_of_headArrives {t : State} {P : State → Prop} (ht : deliver (landed s rest) m = t) (hP : P t) : Gives i s P :=
  ⟨t, by rw [hx, arrive_head h (hk ▸ hw), ht], hP⟩

/-- The same where the message makes CREDIT pending at the endpoint's thread. -/
theorem gives_credit {f : Ce → Ce} (ht : deliver (landed s rest) m = creditEv (mCe (landed s rest) ep.val f) ep.val) :
    (Gives i s fun t => epOnly s t ep.val (f (gCe s ep.val)) rest) ∧ Gives i s fun t => isMapped s (ep.val / 128) = true →
      (gThr t (thrKey s (ep.val / 4))).pend.getLsbD 12 = true :=
  ⟨gives_of_headArrives h hx hk hw ht (epOnly_creditEv _ (epOnly_mCe f (epOnly_landed s ep.val rest))),
    gives_of_headArrives h hx hk hw ht fun hm => pend_creditEv (s := mCe (landed s rest) ep.val f) ep.isLt hm⟩

end

/-- Settles O31: each clause is what the laws above say of the message that arrives, or of the grant to the next sender, once its
condition is told apart. The model's own choices in it: a message carries the number of its route (log 13), an abort leaves the send
side no credit, and behind a CLOSE or an ABORT an abort is ignored (log 20). -/
theorem callboardArrivals : Obligations.CallboardArrivals := by
  unfold Obligations.CallboardArrivals
  refine ⟨fun s ep h => ?_, fun s ep m rest hup hfly hd hnow => ?_⟩
  · exact ⟨keeps_of_early (exec_cbOpenArrive ep s) h, keeps_of_early (exec_cbGrantArrive ep s) h,
      keeps_of_early (exec_cbWordArrive ep s) h, keeps_of_early (exec_cbCreditArrive ep s) h,
      keeps_of_early (exec_cbCloseNews ep s) h, keeps_of_early (exec_cbAbortArrive ep s) h⟩
  have h : HeadArrives s ep.val m rest := ⟨hup, hfly, hd, hnow⟩
  have hland : epOnly s (landed s rest) ep.val (gCe s ep.val) rest := epOnly_landed s ep.val rest
  intro c gives tx rx granted grant credit open' grnt word cred news abt toRx toTx ended sends
  refine ⟨fun hk hb hw => ?_, fun hk hw => ?_, fun hk htx hst => ?_, fun hk hn => ?_, fun w hk => ⟨fun hrx ha => ?_, fun hn => ?_⟩,
    fun hk htx hst => ?_, fun hk hn => ?_, fun hk htx hst => ?_, fun hk hn => ?_, fun x hk hrx => ⟨fun he => ?_, fun he => ?_⟩,
    fun x hk hrx => ?_, fun x hk htx hs => ?_, fun x hk hn => ?_, fun src route hb hlt hmem hmin => ?_, exec_cbNextGrant_none⟩
  · have ht := (deliver_opn (s := landed s rest) hd hk).trans (if_pos ⟨hb, hw⟩)
    have hgrant := epOnly_rxGrant m.src m.route hland
    rw [hw] at hgrant
    exact gives_of_headArrives h (exec_cbOpenArrive ep s) hk rfl ht hgrant
  · have hn : ¬((gCe s ep.val).rxBusy = false ∧ (gCe s ep.val).waiting = []) := fun hf =>
      hw.elim (fun hbusy => Bool.false_ne_true (hf.1.symm.trans hbusy)) fun hwait => hwait hf.2
    have ht := (deliver_opn (s := landed s rest) hd hk).trans (if_neg hn)
    exact gives_of_headArrives h (exec_cbOpenArrive ep s) hk rfl ht (epOnly_mCe _ hland)
  · exact gives_credit h (exec_cbGrantArrive ep s) hk rfl
      ((deliver_grant (s := landed s rest) hd hk).trans (if_pos ⟨htx, hst⟩))
  · exact gives_of_headArrives h (exec_cbGrantArrive ep s) hk rfl
      ((deliver_grant (s := landed s rest) hd hk).trans (if_neg hn)) hland
  · exact gives_of_headArrives h (exec_cbWordArrive ep s) hk rfl
      ((deliver_word (s := landed s rest) hd hk).trans (if_pos ⟨hrx, ha⟩)) (epOnly_mCe _ hland)
  · have hno : ¬(RxRoute (gCe s ep.val) m ∧ (gCe s ep.val).rxAbt = none) := fun hin =>
      hn.elim (fun hno => hno hin.1) fun hab => hab hin.2
    exact gives_of_headArrives h (exec_cbWordArrive ep s) hk rfl
      ((deliver_word (s := landed s rest) hd hk).trans (if_neg hno)) hland
  · have ht := (deliver_credit (s := landed s rest) hd hk).trans (if_pos ⟨htx, hst⟩)
    have hfirst (h0 : c.cred = 0) := gives_credit h (exec_cbCreditArrive ep s) hk rfl (ht.trans (if_pos h0))
    refine ⟨?_, fun h0 => (hfirst h0).2⟩
    by_cases h0 : c.cred = 0
    · exact (hfirst h0).1
    · exact gives_of_headArrives h (exec_cbCreditArrive ep s) hk rfl (ht.trans (if_neg h0)) (epOnly_mCe _ hland)
  · exact gives_of_headArrives h (exec_cbCreditArrive ep s) hk rfl
      ((deliver_credit (s := landed s rest) hd hk).trans (if_neg hn)) hland
  · exact gives_of_headArrives h (exec_cbCloseNews ep s) hk rfl
      ((deliver_closeNews (s := landed s rest) hd hk).trans (if_pos ⟨htx, hst⟩)) (epOnly_mCe _ hland)
  · exact gives_of_headArrives h (exec_cbCloseNews ep s) hk rfl
      ((deliver_closeNews (s := landed s rest) hd hk).trans (if_neg hn)) hland
  · have hab := epOnly_mCe (fun c => rxAbort c x) hland
    rw [rxAbort_open hrx.1 he] at hab
    exact gives_of_headArrives h (exec_cbAbortArrive ep s) hk rfl
      ((deliver_abortRx (s := landed s rest) hd hk).trans (if_pos hrx)) hab
  · have hab := epOnly_mCe (fun c => rxAbort c x) hland
    rw [rxAbort_ended he] at hab
    exact gives_of_headArrives h (exec_cbAbortArrive ep s) hk rfl
      ((deliver_abortRx (s := landed s rest) hd hk).trans (if_pos hrx)) hab
  · exact gives_of_headArrives h (exec_cbAbortArrive ep s) hk rfl
      ((deliver_abortRx (s := landed s rest) hd hk).trans (if_neg hrx)) (epOnly_mCe _ hland)
  · exact gives_credit h (exec_cbAbortArrive ep s) hk rfl
      ((deliver_abortTx (s := landed s rest) hd hk).trans (if_pos ⟨htx, hs⟩))
  · exact gives_of_headArrives h (exec_cbAbortArrive ep s) hk rfl
      ((deliver_abortTx (s := landed s rest) hd hk).trans (if_neg hn)) hland
  · have hnext := nextWaiting_of_least hmem fun w hw => (hmin w hw).imp_right (turnKey_lt (hlt _ hmem))
    have hgrant := epOnly_rxGrant src route (epOnly_mCe (fun c => { c with
      waiting := c.waiting.filter fun w => decide (w ≠ (src, route)) }) (epOnly_refl s ep.val))
    rw [hfly] at hgrant
    exact ⟨_, exec_cbNextGrant hup hb hnext, hgrant⟩

end Sys2Proof.Machine
end

section
/-! SUPPORT. What the trap of a pin sequencer's word leaves of the requests that wait for its pc boundary (spec/08 R285, R298;
log 24): a pause of the bank stays asked for, and its sequencer is PAUSED at the boundary and keeps TRAPPED. -/

namespace Sys2Proof.Machine

/-! ### The sequencer of a bank -/

theorem gSq_mSq_same (s : State) (b : Nat) (f : Sq → Sq) : gSq (mSq s b f) b = f (gSq s b) :=
  congrArg Bank.sq (gBank_mSq_same s b f)

theorem gSq_logEv (s : State) (code : W16) (data : List Nat) (b : Nat) : gSq (logEv s code data) b = gSq s b := by
  obtain ⟨l, hl⟩ := logEv_eq s code data
  rw [hl]
  rfl

/-- A posted cue leaves its sequencer as it was. -/
theorem gSq_kpPost (s : State) (b j : Nat) (t : W64) (a : BitVec 4) : gSq (kpPost b j t a s) b = gSq s b := by
  unfold gSq kpPost
  rw [gBank_mBank_same]

/-! ### The trap (R298) -/

/-- A sequencer after a trap. -/
def trappedSq (cause : W8) (x : Sq) : Sq :=
  { x with
    st := .trapped, wait := none, tcause := cause, stepping := false, bpPass := false
    req := x.req.filter fun r => decide (r = .pause) }

theorem gSq_sqTrap (s : State) (b : Nat) (cause : W8) : gSq (sqTrap s b cause) b = trappedSq cause (gSq s b) := by
  have hlog (d : List Nat) : gSq (logEv (mSq s b (trappedSq cause)) 0x6303 d) b = trappedSq cause (gSq s b) :=
    (gSq_logEv _ _ _ _).trans (gSq_mSq_same s b _)
  unfold sqTrap
  dsimp only
  split
  · exact (gSq_kpPost _ _ _ _ _).trans (hlog _)
  · exact hlog _

/-- R285, log 24: a control word that traps while a pause of its bank is asked for leaves the pause asked for, where `kpTrapped`
says that no request is left. -/
theorem not_kpTrapped_of_pause {i : Instr} {b : Fin 32} {f : Sq → Except W8 Sq} {s : State} {c cause : W8} {x : Sq}
    (hi : exec i s = kpCtl i b f s) (h : sqIssues s b.val = true) (hn : kpDecode b (kpWord (gSq s b.val)) = i)
    (hf : f (gSq s b.val) = .error c) (hp : SqReq.pause ∈ (gSq s b.val).req) : ¬ kpTrapped i s b x cause := by
  intro htrap
  obtain ⟨t, ht, hbank, -⟩ := htrap hn
  rw [hi, kpCtl_trap h hn hf, Host.Outcome.next.injEq] at ht
  have hnone : (gSq t b.val).req = [] := by rw [gSq, hbank]
  have hleft : (gSq t b.val).req = (gSq s b.val).req.filter fun r => decide (r = .pause) := by
    rw [← ht, gSq_mSq_same, gSq_sqTrap]
    rfl
  have hstill : SqReq.pause ∈ (gSq t b.val).req := by
    rw [hleft]
    exact List.mem_filter.2 ⟨hp, decide_eq_true rfl⟩
  rw [hnone] at hstill
  exact List.not_mem_nil hstill

/-- The same of RET on an empty stack (R292). -/
theorem not_kpTrapped_kpRet {b : Fin 32} {s : State} {cause : W8} {x : Sq} (h : sqIssues s b.val = true)
    (hn : kpDecode b (kpWord (gSq s b.val)) = .kpRet b) (he : (gSq s b.val).stack = [])
    (hp : SqReq.pause ∈ (gSq s b.val).req) : ¬ kpTrapped (.kpRet b) s b x cause := by
  have hx : exec (.kpRet b) s = execKpRet b s := rfl
  refine not_kpTrapped_of_pause (c := 0x03) hx h hn ?_ hp
  rw [he]

/-! ### A RET that traps in the pc in which CAL_PINS pauses its bank -/

/-- READY; the sequencer of bank 0 runs, with RET (0x0600) at its PC and an empty call stack, and CAL_PINS of bank 0 runs in op slot 0. -/
def atRet : State :=
  { aon := { corePwrOk := true, porN := true, porDue := false, reason := 0, power := .ready }
    blk := { ready := true, portsOn := true }
    tb := { running := true, now := 1000 }
    bank := [(0, { sq := { st := .run, pm := [(0, 0x0600)] } })]
    mg := { sm := {
      alive := true
      ops := [(0, { gen := 1, st := .running, cmd := [0x23, 0, 0, 0, 0, 0, 0, 0, 1], total := 1 })] } } }

/-- The same once CAL_PINS has asked for the pause of bank 0. -/
def atRetPausing : State := mOp (bankPause atRet 0) 0 fun o => { o with phase := 1 }

/-- The refuting state is what CAL_PINS makes of a sequencer that runs. -/
theorem exec_calPins_atRet : exec (.calPins 0 []) atRet = .next atRetPausing := by
  have hworks : smWorks atRet 0x23 0 := by
    unfold smWorks
    decide
  calc exec (.calPins 0 []) atRet = execCalPins 0 [] atRet := rfl
    _ = .next (calPinsRun 0 [] 0 atRet) := longCmd_works hworks
    _ = .next atRetPausing := rfl

end Sys2Proof.Machine
end

section
/-! Control and register words of a pin sequencer (O21). -/

namespace Sys2Proof.Machine

/-- Refutes O21, by its clause that RET on an empty stack leaves the sequencer TRAPPED with no request (`req := []` in `kpTrapped`). In
`atRetPausing`, which CAL_PINS makes of `atRet` (`exec_calPins_atRet`), the pause of bank 0 waits for the pc boundary (R302). RET traps
with cause 0x03 in the same pc, and the pause stays asked for: a sequencer goes to PAUSED from TRAPPED too (R285, log 24). -/
theorem not_sequencerControlRegisterWords : ¬ Obligations.SequencerControlRegisterWords := by
  unfold Obligations.SequencerControlRegisterWords
  rintro ⟨hcontrol, -⟩
  have hissues : sqIssues atRetPausing (0 : Fin 32).val = true := by decide
  have hword : kpDecode 0 (kpWord (gSq atRetPausing (0 : Fin 32).val)) = .kpRet 0 := by decide
  have hempty : (gSq atRetPausing (0 : Fin 32).val).stack = [] := by decide
  have hpause : SqReq.pause ∈ (gSq atRetPausing (0 : Fin 32).val).req := by decide
  obtain ⟨-, -, -, -, -, -, -, hret, -⟩ := hcontrol atRetPausing 0 0 0 hissues
  exact not_kpTrapped_kpRet hissues hword hempty hpause (hret hempty)

end Sys2Proof.Machine
end
